-- ==== Sys2Proof/Word.lean ====
section
/-! DEFINITION. The words of the AXM-0940: bytes, 16, 32 and 64 bit words, little-endian bytes (R5) and bit fields (R6). -/

namespace Sys2Proof

/-- One byte. -/
abbrev Byte := BitVec 8

/-- Byte `i` of a value, byte 0 the least significant (R5). -/
def byteOf (v i : Nat) : Byte := BitVec.ofNat 8 (v / 256 ^ i)

/-- The `n` bytes of a value, byte 0 first (R5). -/
def toBytes : Nat → Nat → List Byte
  | 0, _ => []
  | n + 1, v => BitVec.ofNat 8 v :: toBytes n (v / 256)

/-- The value of bytes, byte 0 first (R5). -/
def ofBytes : List Byte → Nat
  | [] => 0
  | b :: bs => b.toNat + 256 * ofBytes bs

/-- Bits `lo` to `lo + w - 1` of a value (R6). -/
def bitField (v lo w : Nat) : Nat := v / 2 ^ lo % 2 ^ w

/-- Bit `i` of a value as a truth value (R6). -/
def bitAt (v i : Nat) : Bool := v / 2 ^ i % 2 == 1

/-- The two's-complement value of the low `w` bits of `v` (R19). -/
def signedOf (w v : Nat) : Int :=
  let u := v % 2 ^ w
  if u < 2 ^ (w - 1) then (u : Int) else (u : Int) - 2 ^ w

/-- The low `w` bits of an integer in two's complement (R19). -/
def wrapInt (w : Nat) (i : Int) : Nat := (i % 2 ^ w).toNat

/-- `ceil (a / b)`; 0 when `b` is 0. -/
def ceilDiv (a b : Nat) : Nat := if b = 0 then 0 else (a + b - 1) / b

end Sys2Proof
end

