-- ==== Sys2Proof/Syntax.lean ====
section
/-! DEFINITION. The commands of the block: one constructor of `Instr` for each row of spec/opcode_table.json, with the
operands the spec's step needs. Operands that the outside world supplies (a written value, a measured temperature, a frame's
bytes, a physical noise window) are arguments; everything the module itself holds is read from the state. -/

namespace Sys2Proof

/-- A PCIe function (R547): PF0 or VF p. -/
inductive Func where
  | pf0
  | vf (p : Fin 64)
  deriving DecidableEq, Repr

/-- A mailbox (R372). -/
inductive Mbx where
  | pf0
  | part (p : Fin 64)
  | sideband
  deriving DecidableEq, Repr

/-- Who reaches a register or a byte of the module, and by which address (R225, R549, R550). -/
inductive Access where
  /-- The host through PF BAR0 at a byte offset (R549). -/
  | pf (off : Nat)
  /-- The host through VF p BAR0 at a byte offset (R550). -/
  | vf (p : Fin 64) (off : Nat)
  /-- A carding thread of a partition, at a DPA (R99, R206, R224, R284, R452). -/
  | carding (p : Fin 64) (dpa : Nat)
  /-- The mill, at a DPA. -/
  | mill (dpa : Nat)
  deriving DecidableEq, Repr

/-- A carding thread: logical carding core and thread number (R178, R179). -/
structure ThreadId where
  core : Fin 2048
  thread : Fin 8
  deriving DecidableEq, Repr

/-- A frame of the fabric as a receiver sees it after the PCS: header bytes 0 to 31, then the payload (R420, R421). -/
structure Frame where
  header  : List Byte
  payload : List Byte
  deriving DecidableEq, Repr

/-- Why a received frame is a link error (R423, R428, R450). -/
inductive LinkError where
  | crc
  | fec
  | sequence
  | auth
  deriving DecidableEq, Repr

/-- Where the prediction of a 16 x 16 block reads samples (R330): a block of the same picture, a block of the picture decoded `back`
pictures earlier, or a reference that does not exist. -/
inductive PredSource where
  | here (block : Nat)
  | earlier (back block : Nat)
  | absent
  deriving DecidableEq, Repr

/-- A block and one source of its prediction. -/
structure BlockRead where
  block : Nat
  src   : PredSource
  deriving DecidableEq, Repr

/-- What a frame's bitstream shows to the video scheduler and the decoder (R312, R325, R326, R328). -/
structure FrameInfo where
  width       : Nat
  height      : Nat
  codedBytes  : Nat
  /-- FTYPE of R325: 0 key, 1 forward, 2 bidirectional, 3 none. -/
  ftype       : Fin 4
  /-- Slices, tile columns and tile rows (1 each where the standard has none), and WPP rows, 0 without WPP (R311, R326). -/
  slices      : Nat
  tileCols    : Nat
  tileRows    : Nat
  wppRows     : Nat
  /-- It uses a feature outside the decode rows of R311 other than the counts above and its size. -/
  unsupported : Bool
  /-- Output-order place among the slots of the job; none when the job ends with the frame still held for reordering
  (R316). -/
  slot        : Option Nat
  /-- Its place in output order among pictures held, and the slots that pictures held by earlier jobs take before it, first in output
  order first (R316). -/
  order       : Nat
  outputs     : List Nat
  /-- It is a clean start of R335; it is a RASL picture of the IRAP picture before it. -/
  cleanStart  : Bool
  rasl        : Bool
  /-- Film grain syntax present (R325). -/
  grain       : Bool
  /-- Its header is unusable (R329); parameter sets that its bytes carry whole and damaged, and those it refers to (R328). -/
  badHeader   : Bool
  sets        : List Nat
  badSets     : List Nat
  uses        : List Nat
  /-- Blocks in which the syntax of R328 is found damaged, to the end of their segments: raster block numbers. -/
  concealed   : List Nat
  /-- What prediction reads, in decoding order (R330). -/
  reads       : List BlockRead
  deriving DecidableEq, Repr, Inhabited

/-- What a start-up finds outside the model: physical, fuse and image facts (R506, R514, R518, R544). -/
structure StartFacts where
  /-- Failed physical positions of each quadrant's 17 skeins, from fuses and self-test (R23, R544). -/
  failPos    : List (Nat × Nat)
  /-- Stacks that do not train (R505). -/
  deadStacks : List (Fin 8)
  /-- Channels that fail the start-up self-test, with the failing stack trained (R242). -/
  badChannels : List (Fin 256)
  /-- The commit of the last supply loss was found complete (R304, R305). -/
  cleanCommit : Bool
  /-- Images carrying a valid Ardetus signature (R518), one bit each. -/
  sigOk      : BitVec 4
  deriving DecidableEq, Repr

/-- Reader of a sector or page that fails (R470, R472). -/
inductive Reader where
  | core (c : Fin 512)
  | thread (t : ThreadId)
  | stream (engine : Fin 4) (ctx : Fin 136)
  | ftl
  | other
  deriving DecidableEq, Repr

/-- Kinds of an uncorrectable or parity fault that ends in class SKEIN (R455): of a skein's, a core's or a carding core's logic, or of a
word of core, local or skein memory, with its reader (R69, R182, R233). -/
inductive SkeinUnit where
  | skein (k : Fin 64)
  | matrixCore (c : Fin 512)
  | cardingCore (n : Fin 2048)
  | coreMemory (c : Fin 512) (rd : Reader)
  | localMemory (n : Fin 2048) (rd : Reader)
  | skeinMemory (k : Fin 64) (rd : Reader)
  deriving DecidableEq, Repr

/-- The task whose end TASK_COMPLETE reports (R363). -/
inductive TaskRef where
  | matrix (c : Fin 512)
  | carding (t : ThreadId)
  | streamNode (engine : Fin 4) (ctx : Fin 136)
  deriving DecidableEq, Repr

/-- How a host-memory read ended (R555). -/
inductive HostError where
  | timeout
  | ur
  | ca
  | poison
  deriving DecidableEq, Repr

/-- Causes of a wake from P4 (R495). -/
inductive WakeCause where
  | pf0Mailbox
  | partMailbox (p : Fin 64)
  | sideband
  deriving DecidableEq, Repr

/-- The two SPDM transports (R525). -/
inductive Transport where
  | doe
  | mctp
  deriving DecidableEq, Repr

/-- What a register write carries: the value, and the bits of the register that hardware sets at the same moment (R11). -/
structure Written where
  value : BitVec 64
  sets  : BitVec 64
  deriving DecidableEq, Repr

/-- One step of the module: a row of the opcode table. -/
inductive Instr where
  /-- R10, R11 -/ | registerWrite (a : Access) (wide : Bool) (w : Written)
  /-- R9 -/ | badSizeAccess (f : Func) (off size : Nat) (write : Bool)
  /-- R551 -/ | barUnmappedAccess (f : Func) (off : Nat) (wide write : Bool)
  /-- R226 -/ | unbackedDpaAccess (a : Access) (size : Nat) (write : Bool)
  /-- R364 -/ | taskDispatch (q : Fin 4)
  /-- R80 -/ | tld (c : Fin 512)
  /-- R80 -/ | tst (c : Fin 512)
  /-- R80 -/ | transferComplete (c : Fin 512) (tag : Fin 16)
  /-- R81 -/ | tma (c : Fin 512)
  /-- R72 -/ | tmaRetire (c : Fin 512) (arr : Bool)
  /-- R126 -/ | tch (c : Fin 512)
  /-- R83 -/ | trwLoadcfg (c : Fin 512)
  /-- R128 -/ | trwApply (c : Fin 512)
  /-- R127 -/ | trwSave (c : Fin 512)
  /-- R127 -/ | trwRestore (c : Fin 512)
  /-- R84 -/ | tpr (c : Fin 512)
  /-- R85 -/ | tep (c : Fin 512)
  /-- R72 -/ | tepDone (c : Fin 512)
  /-- R86 -/ | tlp (c : Fin 512)
  /-- R87 -/ | tle (c : Fin 512)
  /-- R88 -/ | tsk (c : Fin 512)
  /-- R89 -/ | twt (c : Fin 512)
  /-- R89 -/ | twtRelease (c : Fin 512)
  /-- R90 -/ | tsg (c : Fin 512)
  /-- R166 -/ | thxSend (c : Fin 512)
  /-- R166 -/ | thxSendResume (c : Fin 512)
  /-- R166 -/ | thxReceive (c : Fin 512)
  /-- R166 -/ | thxReceiveArrival (c : Fin 512)
  /-- R92 -/ | tdf (c : Fin 512)
  /-- R93 -/ | tend (c : Fin 512)
  /-- R99 -/ | mcrFlagSet (a : Access) (mask : BitVec 16)
  /-- R99 -/ | mcrFlagClr (a : Access) (mask sameMclkSet : BitVec 16)
  /-- R178 -/ | cardingInstruction (t : ThreadId)
  /-- R185 -/ | ecall (t : ThreadId)
  /-- R185 -/ | ebreak (t : ThreadId)
  /-- R189 -/ | xcFset (t : ThreadId)
  /-- R189 -/ | xcFclr (t : ThreadId)
  /-- R189 -/ | xcFwait (t : ThreadId)
  /-- R189 -/ | fwaitWake (t : ThreadId)
  /-- R187 -/ | xcFrd (t : ThreadId)
  /-- R190 -/ | xcTho (t : ThreadId)
  /-- R191 -/ | handoffComplete (n : Fin 2048) (slot : Fin 8)
  /-- R187 -/ | xcTwait (t : ThreadId)
  /-- R187 -/ | xcStclr (t : ThreadId)
  /-- R200 -/ | xcStsave (t : ThreadId)
  /-- R201 -/ | xcStmerge (t : ThreadId)
  /-- R202 -/ | xcStfin (t : ThreadId)
  /-- R193 -/ | xcSort (t : ThreadId)
  /-- R176 -/ | sortDone (k : Fin 64)
  /-- R192 -/ | xcVrnd (t : ThreadId)
  /-- R194 -/ | xcVsf (t : ThreadId)
  /-- R197 -/ | xcVfba (t : ThreadId)
  /-- R198 -/ | xcVcvt (t : ThreadId)
  /-- R199 -/ | xcVstat (t : ThreadId)
  /-- R209 -/ | noiseWindow (raw : BitVec 1024)
  /-- R215 -/ | whorlJump (a : Access) (wide : Bool) (value : BitVec 64)
  /-- R215 -/ | whorlSeek (a : Access) (wide : Bool) (value : BitVec 64)
  /-- R215 -/ | whorlCmdComplete (k : Fin 64)
  /-- R230 -/ | translationFaultServed (n : Nat)
  /-- R238 -/ | imbalanceWindow (counts : List (Fin 64 × Fin 256 × Nat))
  /-- R241 -/ | stackTempChange (k : Fin 8) (temp : BitVec 8)
  /-- R257 -/ | move (e : Fin 4) (ctx : Fin 136)
  /-- R260 -/ | barset (e : Fin 4) (ctx : Fin 136)
  /-- R261 -/ | descriptorComplete (e : Fin 4) (ctx : Fin 136)
  /-- R264 -/ | streamFaultUnserved (e : Fin 4) (ctx : Fin 136)
  /-- R272 -/ | sliceDeadline (p : Fin 64) (ssb : BitVec 48)
  /-- R273 -/ | strmPArrive (a : Access) (bar : BitVec 8)
  /-- R276 -/ | sliceGraceExpiry (p : Fin 64) (ssb : BitVec 48)
  /-- R281 -/ | streamDrainTimeout
  /-- R301 -/ | ftlJournalWrite
  /-- R301 -/ | ftlCommitDone
  /-- R305 -/ | ftlMapLoadDone (jlost : Bool)
  /-- R296 -/ | readDisturbRefresh (block : Nat)
  /-- R296 -/ | retentionScan (block corrected : Nat)
  /-- R296 -/ | staticWearLevelling (ch : Fin 16)
  /-- R296 -/ | programEraseFailure (block : Nat)
  /-- R298 -/ | flashChannelLost (ch : Fin 16)
  /-- R298 -/ | flashRebuildDone
  /-- R316 -/ | video (p : Fin 64) (r : Fin 16)
  /-- R310 -/ | videoFrameStart (info : FrameInfo)
  /-- R324 -/ | videoBandDone (k : Fin 24)
  /-- R324 -/ | videoFrameCommit (k : Fin 24)
  /-- R331 -/ | videoWatchdog (k : Fin 24)
  /-- R336 -/ | videoFrameStop (k : Fin 24)
  /-- R336 -/ | videoDrainTimeout
  /-- R338 -/ | vidCoreEn (a : Access) (en : BitVec 24)
  /-- R342 -/ | ringDb (a : Access) (v : BitVec 32)
  /-- R345 -/ | enable (a : Access)
  /-- R345 -/ | disable (a : Access)
  /-- R345 -/ | flush (a : Access)
  /-- R345 -/ | rearm (a : Access)
  /-- R345 -/ | clrerr (a : Access)
  /-- R343 -/ | recordFetch
  /-- R359 -/ | graph (p : Fin 64) (r : Fin 16)
  /-- R347 -/ | copy (p : Fin 64) (r : Fin 16)
  /-- R356 -/ | signalLocal (p : Fin 64) (r : Fin 16)
  /-- R357 -/ | signalPeer (p : Fin 64) (r : Fin 16)
  /-- R357 -/ | signalPeerAnswer (p : Fin 64) (r : Fin 16)
  /-- R358 -/ | wait (p : Fin 64) (r : Fin 16)
  /-- R358 -/ | waitWake (p : Fin 64) (r : Fin 16)
  /-- R358 -/ | waitTimeout (p : Fin 64) (r : Fin 16)
  /-- R354 -/ | fence (p : Fin 64) (r : Fin 16)
  /-- R347 -/ | stream (p : Fin 64) (r : Fin 16)
  /-- R347 -/ | nop (p : Fin 64) (r : Fin 16)
  /-- R363 -/ | taskComplete (t : TaskRef)
  /-- R350 -/ | recordComplete (p : Fin 64) (r : Fin 16) (idx : BitVec 32)
  /-- R366 -/ | ringWatchdogExpiry (p : Fin 64) (r : Fin 16)
  /-- R368 -/ | guiltyResetDone (p : Fin 64) (r : Fin 16)
  /-- R407 -/ | servingSwitch (p : Fin 64)
  /-- R407 -/ | switchComplete (p : Fin 64)
  /-- R412 -/ | ageTick (p : Fin 64) (r : Fin 16)
  /-- R374 -/ | mbxReqdb (m : Mbx) (slot : Fin 16)
  /-- R378 -/ | mailboxReset (m : Mbx)
  /-- R375 -/ | mailboxResponseDeferred (m : Mbx)
  /-- R377 -/ | lCommandComplete (m : Mbx) (seq : BitVec 16)
  /-- R20 -/ | devInfo (m : Mbx)
  /-- R502 -/ | devSensors (m : Mbx)
  /-- R384 -/ | partForm (m : Mbx)
  /-- R384 -/ | partDissolve (m : Mbx)
  /-- R384 -/ | partQuery (m : Mbx)
  /-- R385 -/ | partSet (m : Mbx)
  /-- R249 -/ | partQuota (m : Mbx)
  /-- R385 -/ | partSeed (m : Mbx)
  /-- R386 -/ | objCreate (m : Mbx)
  /-- R386 -/ | objShare (m : Mbx)
  /-- R246 -/ | objPromote (m : Mbx)
  /-- R246 -/ | objEvict (m : Mbx)
  /-- R386 -/ | objPin (m : Mbx)
  /-- R292 -/ | objStage (m : Mbx)
  /-- R386 -/ | objQuery (m : Mbx)
  /-- R386 -/ | objDelete (m : Mbx)
  /-- R236 -/ | hashSet (m : Mbx)
  /-- R282 -/ | loadModel (m : Mbx)
  /-- R242 -/ | chMapout (m : Mbx)
  /-- R490 -/ | pwrSet (m : Mbx)
  /-- R497 -/ | pwrQuery (m : Mbx)
  /-- R498 -/ | pwrCap (m : Mbx)
  /-- R522 -/ | measure (m : Mbx)
  /-- R515 -/ | lifecycleSet (m : Mbx)
  /-- R526 -/ | debugSet (m : Mbx)
  /-- R521 -/ | certGet (m : Mbx)
  /-- R435 -/ | fabDevnum (m : Mbx)
  /-- R419 -/ | fabPort (m : Mbx)
  /-- R436 -/ | fabRoute (m : Mbx)
  /-- R447 -/ | fabQuarantine (m : Mbx)
  /-- R454 -/ | fabQuery (m : Mbx)
  /-- R314 -/ | vsessOpen (m : Mbx)
  /-- R314 -/ | vsessClose (m : Mbx)
  /-- R314 -/ | vsessQuery (m : Mbx)
  /-- R314 -/ | vsessReset (m : Mbx)
  /-- R537 -/ | bistRun (m : Mbx)
  /-- R541 -/ | bistComplete (failSkeins : BitVec 64) (failChannels : List (Fin 256)) (failIod : BitVec 2)
      (failVideo : List (Fin 24)) (repairs : Nat)
  /-- R539 -/ | bistQuery (m : Mbx)
  /-- R456 -/ | faultRead (m : Mbx)
  /-- R474 -/ | mirrorSet (m : Mbx)
  /-- R462 -/ | ckptQuery (m : Mbx)
  /-- R480 -/ | ckptRestore (m : Mbx)
  /-- R290 -/ | lostRead (m : Mbx)
  /-- R392 -/ | logRead (m : Mbx)
  /-- R390 -/ | logHead (m : Mbx)
  /-- R466 -/ | millFault (core : Fin 4)
  /-- R377 -/ | millRestartDone (digestMatches : Bool)
  /-- R419 -/ | portTrainingDone (p : Fin 8) (locked : Bool)
  /-- R416 -/ | portSignalLoss (p : Fin 8)
  /-- R560 -/ | cablePresentChange (p : Fin 8) (present : Bool)
  /-- R448 -/ | hello (p : Fin 8) (f : Frame)
  /-- R448 -/ | auth (p : Fin 8) (f : Frame)
  /-- R448 -/ | fin (p : Fin 8) (f : Frame)
  /-- R449 -/ | handshakeTimeout (p : Fin 8)
  /-- R451 -/ | rekey (p : Fin 8) (f : Frame)
  /-- R451 -/ | rekeyInterval (p : Fin 8)
  /-- R426 -/ | link (p : Fin 8) (f : Frame)
  /-- R428 -/ | linkErrorFrame (p : Fin 8) (e : LinkError)
  /-- R428 -/ | linkAckTimeout (p : Fin 8)
  /-- R429 -/ | creditTimeout (p : Fin 8) (vc : Fin 4)
  /-- R429 -/ | creditDeadTime (p : Fin 8)
  /-- R430 -/ | write (p : Fin 8) (f : Frame)
  /-- R430 -/ | signal (p : Fin 8) (f : Frame)
  /-- R475 -/ | mirror (p : Fin 8) (f : Frame)
  /-- R440 -/ | coll (p : Fin 8) (f : Frame)
  /-- R431 -/ | resp (p : Fin 8) (f : Frame)
  /-- R445 -/ | stop (p : Fin 8) (f : Frame)
  /-- R445 -/ | stopExpiry (dev : BitVec 12)
  /-- R431 -/ | respGatherExpiry (dev : BitVec 12)
  /-- R433 -/ | e2eTimeout (dev : BitVec 12) (tag : BitVec 16)
  /-- R439 -/ | collectiveStart (a : Access) (va : BitVec 64)
  /-- R440 -/ | collectiveTimeout (p : Fin 64)
  /-- R468 -/ | skeinFault (u : SkeinUnit)
  /-- R455 -/ | skeinProbe
  /-- R455 -/ | skeinProbeTimeout (k : Fin 64)
  /-- R470 -/ | t1Ue (dpa : BitVec 52) (rd : Reader)
  /-- R472 -/ | t2Ue (dpa : BitVec 52) (rd : Reader)
  /-- R472 -/ | videoParity (k : Fin 24)
  /-- R464 -/ | recoveryStopped (p : Fin 64)
  /-- R469 -/ | recoveryReplacementDone (p : Fin 64)
  /-- R464 -/ | recoveryRestoreDone (p : Fin 64) (micros : Nat)
  /-- R458 -/ | checkpointCopy (p : Fin 64)
  /-- R461 -/ | checkpointComplete (p : Fin 64)
  /-- R477 -/ | mirrorCommit (p : Fin 64)
  /-- R478 -/ | mirrorFail (p : Fin 64)
  /-- R475 -/ | mirrorHeartbeat (p : Fin 64)
  /-- R479 -/ | peerLost (p : Fin 64)
  /-- R490 -/ | blockReady
  /-- R492 -/ | pwrDrainTimeout
  /-- R492 -/ | powerRollbackDone
  /-- R495 -/ | wakeEvent (cause : WakeCause)
  /-- R496 -/ | wakeDone (digestMatches : Bool)
  /-- R498 -/ | powerSample (watts tenMillivolts : BitVec 16)
  /-- R500 -/ | pwrbrkAssert
  /-- R500 -/ | pwrbrkRelease
  /-- R501 -/ | dieTempChange (source : BitVec 8) (temp : BitVec 8)
  /-- R501 -/ | thermalTrip (source : BitVec 8)
  /-- R509 -/ | supplyLoss
  /-- R508 -/ | checkReturnExpiry
  /-- R510 -/ | inputQualified
  /-- R509 -/ | shutdownEnd
  /-- R562 -/ | inputOvercurrent
  /-- R506 -/ | coldStart (facts : StartFacts)
  /-- R512 -/ | glbReset (value : BitVec 32)
  /-- R566 -/ | perstAssert
  /-- R567 -/ | perstDeassert (refclkToggling : Bool)
  /-- R503 -/ | functionReset (f : Func)
  /-- R547 -/ | vfEnableClear
  /-- R556 -/ | linkReset
  /-- R506 -/ | configRequest (f : Func) (off : BitVec 12) (write : Option (BitVec 32))
  /-- R553 -/ | atsInvalidate (f : Func) (page : BitVec 52)
  /-- R554 -/ | pageRequestGroupResponse (f : Func) (prg : BitVec 9) (success : Bool)
  /-- R554 -/ | priTimeout (f : Func) (prg : BitVec 9)
  /-- R555 -/ | hostReadError (n : Nat) (e : HostError)
  /-- R555 -/ | hostWriteReject
  /-- R552 -/ | msixUnmask (f : Func) (vector : Fin 18)
  /-- R569 -/ | mctpMessage (type : BitVec 8) (body : List Byte)
  /-- R569 -/ | setEndpointId (eid : BitVec 8)
  /-- R569 -/ | getEndpointId
  /-- R569 -/ | getMessageTypeSupport
  /-- R569 -/ | mctpGetVersion
  /-- R568 -/ | setdasa (static dynamic : BitVec 7)
  /-- R568 -/ | entdaa (dynamic : BitVec 7)
  /-- R569 -/ | smbusReadByte (command : BitVec 8)
  /-- R525 -/ | doeDiscovery (index : BitVec 8)
  /-- R523 -/ | getVersion (t : Transport)
  /-- R523 -/ | getCapabilities (t : Transport) (version : BitVec 8)
  /-- R523 -/ | negotiateAlgorithms (t : Transport) (asym hash : BitVec 32)
  /-- R523 -/ | getDigests (t : Transport)
  /-- R523 -/ | getCertificate (t : Transport) (slot : BitVec 4) (offset length : BitVec 16)
  /-- R523 -/ | challenge (t : Transport) (slot : BitVec 8) (nonce : BitVec 256)
  /-- R524 -/ | getMeasurements (t : Transport) (index : BitVec 8) (sign : Bool) (nonce : BitVec 256)
  /-- R523 -/ | spdmUnsupportedRequest (t : Transport) (code : BitVec 8)
  /-- R528 -/ | debugApertureAccess (off : BitVec 28) (wide : Bool) (write : Option (BitVec 64))
  /-- R532 -/ | secHaltHalt (t : ThreadId)
  /-- R532 -/ | secHaltResume (t : ThreadId)
  /-- R530 -/ | bypass
  /-- R530 -/ | samplePreload (preload : List Bool)
  /-- R530 -/ | extest
  /-- R530 -/ | xident
  /-- R530 -/ | dbgAccess (value : BitVec 96)
  /-- R531 -/ | uartCommand (readOnlyStatus : Bool) (line : List Byte)
  /-- R299 -/ | flashPackageTempChange (ch : Fin 16) (temp : BitVec 8)
  /-- R565 -/ | inputBelow30V
  /-- R508 -/ | waitCommitTimeout
  /-- R508 -/ | powerGoodTimeout
  /-- R563 -/ | holdupStoreCharged (tenthJoules : BitVec 8)
  /-- R517 -/ | returnEraseDone
  /-- R471 -/ | commandAddressParityError (ch : Fin 256)
  /-- R504 -/ | pcieLinkUp (speed : BitVec 3) (width : BitVec 5) (flit : Bool)
  /-- R553 -/ | atsTranslationCompletion (n : Nat) (granted : Option (BitVec 52))
  /-- R460 -/ | bar2Write (off : BitVec 36) (data : List Byte)
  deriving DecidableEq, Repr

end Sys2Proof
end

