-- ==== Sys2Proof/Machine/SMap.lean ====
section
/-! DEFINITION. A finite map as plain data: a list of (key, value) pairs with strictly rising keys and no entry that equals
what an unlisted key reads as. Memory, the register file and every table of records of the state are such maps, so equal
contents are equal lists. -/

namespace Sys2Proof.Machine

/-- A map of natural keys held as a list. -/
abbrev SMap (α : Type) := List (Nat × α)

/-- The value at a key; `d` where the key is not listed. -/
def SMap.get {α : Type} (d : α) : SMap α → Nat → α
  | [], _ => d
  | (k, v) :: m, q => if q < k then d else if q = k then v else SMap.get d m q

/-- The map without a key. The entries behind the key that are not above it (a canonical map has none) go with it, so
that the key then reads as unlisted in every list. -/
def SMap.erase {α : Type} : SMap α → Nat → SMap α
  | [], _ => []
  | (k, v) :: m, q =>
    if q < k then (k, v) :: m
    else if q = k then m.dropWhile fun e => decide (e.1 ≤ q)
    else (k, v) :: SMap.erase m q

/-- The map with a key at a value, listed whatever the value. -/
def SMap.put {α : Type} : SMap α → Nat → α → SMap α
  | [], q, x => [(q, x)]
  | (k, v) :: m, q, x =>
    if q < k then (q, x) :: (k, v) :: m else if q = k then (q, x) :: m else (k, v) :: SMap.put m q x

/-- The map with a key at a value; a value equal to what an unlisted key reads as removes the entry. -/
def SMap.set {α : Type} [DecidableEq α] (d : α) (m : SMap α) (q : Nat) (x : α) : SMap α :=
  if x = d then SMap.erase m q else SMap.put m q x

/-- Every key of the list lies at or above a bound, strictly rising, and no value is the unlisted one. -/
def SMap.wfFrom {α : Type} [DecidableEq α] (d : Nat → α) : Nat → SMap α → Bool
  | _, [] => true
  | lo, (k, v) :: m => decide (lo ≤ k) && decide (v ≠ d k) && SMap.wfFrom d (k + 1) m

/-- The canonical form: strictly rising keys and no entry equal to what an unlisted key reads as. -/
def SMap.wf {α : Type} [DecidableEq α] (d : Nat → α) (m : SMap α) : Bool := SMap.wfFrom d 0 m

/-- The keys whose value meets a condition, in rising order. -/
def SMap.keysWhere {α : Type} (f : α → Bool) (m : SMap α) : List Nat := (m.filter fun e => f e.2).map (·.1)

/-- Every listed value mapped; values that become the unlisted one leave the list. -/
def SMap.mapVals {α : Type} [DecidableEq α] (d : α) (f : Nat → α → α) (m : SMap α) : SMap α :=
  (m.map fun e => (e.1, f e.1 e.2)).filter fun e => decide (e.2 ≠ d)

end Sys2Proof.Machine
end

