-- ==== Sys2Proof/Machine/RecordsCtl.lean ====
section
/-! DEFINITION. Records of the control plane: partitions, jobs, rings, graphs, mailboxes, tier objects, the change and fault
logs, translations that wait, and what leaves the module. -/

namespace Sys2Proof.Machine

/-- Contents of an SPDM answer (R523, R524). -/
inductive SpdmReply where
  /-- Versions offered. -/
  | version (l : List Nat)
  /-- CERT_CAP, CHAL_CAP and MEAS_CAP with signature, under the version asked for. -/
  | capabilities (version : Nat)
  /-- Asymmetric and hash algorithms selected. -/
  | algorithms (asym hash : Nat)
  /-- SHA-384 of the chain of each slot held. -/
  | digests (l : List (List Byte))
  /-- Part of the chain of a slot, and the bytes that remain. -/
  | certificate (slot : Nat) (part : List Byte) (left : Nat)
  | challengeAuth (slot : Nat) (chainHash nonce signature : List Byte)
  /-- Number of blocks, the blocks (index, value type, value), and the signature, empty for none. -/
  | measurements (count : Nat) (blocks : List (Nat × Nat × List Byte)) (signature : List Byte)
  /-- An ERROR message with this code of DMTF. -/
  | error (code : Nat)
  deriving DecidableEq, Repr

/-- What leaves the module at its boundary: bytes to host memory, interrupt messages, frames, sideband and debug answers.
The outside world is not part of the state; what the module sent to it is. -/
inductive Out where
  /-- Data returned for a read access of `size` bytes. -/
  | readData (size value : Nat)
  /-- An access ended without data: 0 Unsupported Request, 1 Configuration Request Retry Status. -/
  | readStatus (code : Nat)
  /-- A write to host memory by a function of the module. -/
  | hostWrite (part addr : Nat) (data : List Byte)
  /-- An MSI-X message: function number (0 PF0, 1 + p VF p) and vector (R552). -/
  | msix (func vector : Nat)
  /-- A PRI page request (R554): function, page address and page request group. -/
  | pageRequest (func page prg : Nat)
  /-- An ATS translation request (R553). -/
  | atsRequest (func page : Nat)
  /-- An ATS invalidation completion (R553). -/
  | atsInvalidated (func page : Nat)
  /-- A fabric frame sent on a port (R420): from the header to the CRC. -/
  | frame (port : Nat) (data : List Byte)
  /-- An MCTP message body with its type (R569). -/
  | mctp (type : Nat) (body : List Byte)
  /-- A DOE data object (R525). -/
  | doe (body : List Byte)
  /-- The answer to an SPDM request, by DOE or MCTP (R523, R525); its encoding is DMTF's. -/
  | spdm (doe : Bool) (r : SpdmReply)
  /-- The answer to an MCTP control command (R569): command code and data; its encoding is DMTF's. -/
  | mctpControl (cmd : Nat) (data : List Byte)
  /-- Bits that EXTEST drives on the pins (R530). -/
  | boundary (data : List Bool)
  /-- Bytes on the management bus outside MCTP (R568, R569). -/
  | bus (data : List Byte)
  /-- Bits shifted out of TDO (R530). -/
  | jtag (data : List Bool)
  /-- Console text (R531). -/
  | uart (data : List Byte)
  deriving DecidableEq, Repr

/-- Who waits for a translation or a host access (R230, R343, R350, R359, R362, R383). -/
inductive Requester where
  /-- Fetch of the next record of global ring g. -/
  | fetch (g : Nat)
  /-- Completion record of record `idx` of global ring g. -/
  | completion (g idx : Nat)
  /-- Completion record of a record that has left its ring: partition, CPL_VA and bytes (R350). -/
  | late (p va : Nat) (bytes : List Byte)
  /-- Node and list reads of a GRAPH, or reads of another record, before it starts. -/
  | record (g idx : Nat)
  /-- Indirect entry or dispatch read of a node. -/
  | node (g idx node : Nat)
  /-- Bytes for a stream status block: partition, address and bytes (R267). -/
  | ssb (p va : Nat) (bytes : List Byte)
  /-- Transfer unit of matrix core c. -/
  | matrix (c : Nat)
  /-- Carding thread 8n + t. -/
  | carding (t : Nat)
  /-- Stream context 136e + ctx. -/
  | stream (x : Nat)
  /-- Oldest command of a mailbox. -/
  | mailbox (m : Nat)
  /-- Video core k. -/
  | video (k : Nat)
  /-- Sort network of skein k. -/
  | sort (k : Nat)
  /-- Collective of a partition with the descriptor at this address. -/
  | collective (p dva : Nat)
  /-- A WRITE of the fabric: source device and TAG (R430). -/
  | fabric (src tag : Nat)
  deriving DecidableEq, Repr

/-- Why the translation waits (R230, R553, R554). -/
inductive WaitKind where
  /-- The tier manager makes the page's object resident. -/
  | demand
  /-- An ATS translation is asked for. -/
  | ats
  /-- ATS refused it, and 256 page requests of the function are outstanding (R554). -/
  | priQueued
  /-- A PRI page request with this group is outstanding. -/
  | pri (prg : Nat)
  /-- The uncorrectable granule is refilled (R470, R472). -/
  | refill (dpa : Nat)
  deriving DecidableEq, Repr

/-- A translation that waits, with its requester. -/
structure TransWait where
  req : Requester
  part : Nat
  va : Nat
  write : Bool
  kind : WaitKind
  deriving DecidableEq, Repr

/-- A mapping of partition pages onto a copy of an object (R230, R246). -/
structure PMap where
  va : Nat
  size : Nat
  obj : Nat
  tier : Nat
  /-- Copy number within the object that serves the mapping. -/
  copy : Nat
  deriving DecidableEq, Repr, Inhabited

/-- A partition (R384, R394). Settings that a register shows stand in the register file. -/
structure Partition where
  /-- Mask of logical skeins; 0 while not formed. -/
  mask : Nat := 0
  dcm : Nat := 0
  dsm : Nat := 0
  /-- Pending SUBN, SHADOW_ALLOW and RESIDENCY of PART_SET (R36, R385). -/
  subn : Nat := 0
  shadowAllow : Nat := 0
  residency : Nat := 0
  /-- MIRROR_SET (R474). -/
  mirrorOn : Nat := 0
  mirrorDev : Nat := 0
  mirrorPart : Nat := 0
  /-- The partner, device and partition, to which it mirrors since its last step checkpoint (R36, R474). -/
  mirrorNow : Option (Nat × Nat) := none
  /-- MIRROR_SET has named a partner (R474); MIRROR frames are refused since a takeover (R480). -/
  mirrorNamed : Bool := false
  mirrorShut : Bool := false
  /-- The partner has been told that a job runs (R475). -/
  mirrorTold : Bool := false
  /-- Skeins in rank order where a replacement took a rank (R469); empty for ascending order. -/
  order : List Nat := []
  /-- Whorl seed held: bytes, empty for none (R213). -/
  seed : List Byte := []
  /-- DPA of the root of the page-table tree; 0 for none (R228). -/
  root : Nat := 0
  /-- Mappings of the partition, and those that wait until a valid entry may change (R231), oldest first. -/
  maps : List PMap := []
  mapsLater : List PMap := []
  /-- Checkpoint area: T1 placement number + 1 of image 0 and 1, 0 for none, and the bytes charged (R461). -/
  image0 : Nat := 0
  image1 : Nat := 0
  imageBytes : Nat := 0
  /-- Parity of the image written next (R461). -/
  nextImage : Nat := 0
  /-- Checkpoint counters (R462). -/
  cgen : Nat := 0
  ckptSeq : Nat := 0
  /-- Grants of the dispatch arbitration, for the round robin of R364. -/
  dispStamp : Nat := 0
  /-- Grants of the fetch arbitration (R411) and of the video scheduler (R310). -/
  fetchStamp : Nat := 0
  vidStamp : Nat := 0
  /-- Consecutive windows above, and at or below, an imbalance of 4 (R238). -/
  imbHigh : Nat := 0
  imbLow : Nat := 0
  deriving DecidableEq, Repr, Inhabited

/-- One doff barrier (R273). EXP 0 stands for the default of 8 per skein. -/
structure Barrier where
  exp : Nat := 0
  step : Bool := false
  count : Nat := 0
  phase : Nat := 0
  /-- GLB times of its last releases, newest first (R270). -/
  released : List Nat := []
  deriving DecidableEq, Repr, Inhabited

/-- A job (R397), keyed by 16p + owning ring. -/
structure Job where
  isOpen : Bool := false
  /-- It ends once its started work has ended (R400). -/
  ending : Bool := false
  /-- Barriers whose waiting TDFs are released when the job becomes active again (R407 step 5). -/
  held : List Nat := []
  /-- Latched at opening (R399 step 1). -/
  subn : Nat := 0
  residency : Nat := 0
  barriers : SMap Barrier := []
  /-- Sticky flags of the job (R399 step 2), ORed over cores that other jobs used meanwhile. -/
  liveCm : Nat := 0
  liveLm : Nat := 0
  liveSm : Nat := 0
  /-- Save area: T1 placement number + 1, 0 for none (R403). -/
  save : Nat := 0
  /-- Its saved live state has been written and not restored yet. -/
  saved : Bool := false
  /-- Shadow decisions taken in the present step: slice and whether SHADOW (R276, R279). -/
  shadow : List (Nat × Bool) := []
  /-- Decisions of the present step: slice and state, 1 FULL, 2 SHADOW, 3 FAILED (R276 rule 2). -/
  decided : List (Nat × Nat) := []
  /-- Decisions recorded by a checkpoint, forced on replay (R276 rule 1). -/
  replay : List (Nat × Bool) := []
  /-- Those of the steps that the replay runs after this one. -/
  replayNext : List (List (Nat × Bool)) := []
  /-- A SHADOW decision marked the present step (R278). -/
  marked : Bool := false
  /-- Order in which the job was last active (R406). -/
  lastActive : Nat := 0
  /-- GLB time at which it became active (R406, R415). -/
  activeSince : Nat := 0
  /-- X7 regions placed in skein memory: object, byte offset in the partition's skein memories, bytes (R174). -/
  x7 : List (Nat × Nat × Nat) := []
  /-- Placement plan (R38, R174): objects of the regions that did not fit and stay in T1. -/
  x7out : List Nat := []
  /-- Acknowledgement words that its receives have written in other modules (R166), by device and address; unlisted 0xFFFF_FFFF. -/
  acks : SMap Nat := []
  deriving DecidableEq, Repr, Inhabited

/-- A record in flight (R343). -/
structure Rec where
  idx : Nat
  gen : Nat
  data : List Byte
  started : Bool := false
  /-- A GRAPH that has started and waits for room in its graph engine (R365) or for the open job to end (R398). -/
  parked : Bool := false
  /-- Outcome of a record that has ended and whose completion is not written yet: status and details (R350, R351). -/
  outcome : Option Nat := none
  d0 : Nat := 0
  d1 : Nat := 0
  d2 : Nat := 0
  /-- The record was taken from the log or the ring state of a checkpoint (R465). -/
  replay : Bool := false
  /-- Its completion, fence, interrupt and signals are suppressed (R465). -/
  reported : Bool := false
  /-- GRAPH joined or opened the job of this owner ring; 16 for none. -/
  job : Nat := 16
  deriving DecidableEq, Repr, Inhabited

/-- A ring (R339 to R345), keyed by 16p + r. What its registers show stands in the register file. -/
structure Ring where
  /-- One past the last published record (R342). -/
  tail : Nat := 0
  /-- Records in flight, in index order. -/
  recs : List Rec := []
  /-- A DISABLE waits for the last record in flight (R345). -/
  disabling : Bool := false
  /-- Doorbells recorded while HELD (R342). -/
  heldDb : List Nat := []
  /-- A guilt waits for GUILTY_RESET_DONE: cause (R367); 0 for none. -/
  cause : Nat := 0
  /-- Index of the record that the cause names (R368). -/
  causeIdx : Nat := 0
  /-- Node, task, fault code and kind of the faulting task (R371). -/
  gtask : Nat := 0
  /-- GLB time of the marking. -/
  gtime : Nat := 0
  /-- Grant order at fetch, at dispatch (R411); 0 for never. -/
  fetchStamp : Nat := 0
  dispStamp : Nat := 0
  /-- Age (R410). -/
  age : Nat := 0
  /-- Indices completed since the newest checkpoint (R465). -/
  reported : List Nat := []
  /-- Logged records of the newest image not replayed yet (R465): index and bytes. -/
  replay : List (Nat × List Byte) := []
  deriving DecidableEq, Repr, Inhabited

/-- A node of a running GRAPH (R359, R360). -/
structure Node where
  data : List Byte
  succ : List Nat := []
  pending : Nat := 0
  /-- It has become ready, and in which place among the nodes of the module (R364). -/
  ready : Bool := false
  readyAt : Nat := 0
  /-- Its indirect entries have been resolved (R361). -/
  resolved : Bool := false
  ntask : Nat := 0
  next : Nat := 0
  ended : Nat := 0
  /-- Completions received from predecessors. -/
  got : Nat := 0
  complete : Bool := false
  /-- Resolved indirect bytes: offset and byte (R361). -/
  patch : List (Nat × Byte) := []
  /-- Slice entries still to be decided at dispatch: SSB address, offset, 1 for SHADOW_LEN (R275). -/
  slices : List (Nat × Nat × Nat) := []
  deriving DecidableEq, Repr, Inhabited

/-- A running GRAPH, keyed by its place in State.graphs (R359, R365). -/
structure Graph where
  ring : Nat
  idx : Nat
  gen : Nat
  nodes : List Node
  /-- Tasks that ended DONE. -/
  done : Nat := 0
  /-- Tasks dispatched and not ended. -/
  running : Nat := 0
  /-- Highest-ranked bad outcome: 0 none, 1 ABORTED, 2 FAULT, 3 MALFORMED (R363). -/
  worst : Nat := 0
  d1 : Nat := 0
  /-- Order in which the GRAPH started. -/
  stamp : Nat := 0
  deriving DecidableEq, Repr, Inhabited

/-- A request accepted by a mailbox (R374, R377). -/
structure MbxReq where
  data : List Byte
  slot : Nat
  /-- Mailbox GEN at acceptance. -/
  gen : Nat
  /-- Order of acceptance across mailboxes. -/
  stamp : Nat
  /-- 0 waiting to be applied; 1 an L command running; 2 answered, its response not written yet; 3 an L command that has
  ended, its response not written yet; 4 held unchecked until the mill serves the mailbox. -/
  phase : Nat := 0
  /-- The answer, once known: status, payload from byte 16, change-log index, REPLAY flag. -/
  status : Nat := 0
  payload : List Byte := []
  logidx : Nat := 0xFFFFFFFF
  /-- The kept response that a repeated request is answered with; empty for none (R379). -/
  again : List Byte := []
  /-- The answer is kept under R379. -/
  keep : Bool := true
  deriving DecidableEq, Repr, Inhabited

/-- A mailbox (R372 to R380): 0 to 63 partitions, 64 PF0, 65 sideband. -/
structure Mailbox where
  /-- Requests accepted and not yet answered, oldest first. -/
  reqs : List MbxReq := []
  /-- The last 64 requests answered under the current GEN with their responses, newest first (R379). -/
  kept : List (List Byte × List Byte) := []
  /-- An event has been dropped since the last event written (R380). -/
  evLost : Bool := false
  /-- GEN of the sideband mailbox, which has no registers. -/
  sbGen : Nat := 0
  deriving DecidableEq, Repr, Inhabited

/-- A reference of a partition to a copy (R245, R249). -/
structure Ref where
  part : Nat
  pinned : Bool := false
  /-- Order of last use (R250). -/
  used : Nat := 0
  deriving DecidableEq, Repr, Inhabited

/-- A copy of an object in a tier (R246). -/
structure Copy where
  id : Nat
  tier : Nat
  version : Nat
  /-- First DPA (T1, T2) or first LBA (T3). -/
  base : Nat
  /-- T1 placement number + 1; 0 for none. -/
  placement : Nat := 0
  refs : List Ref := []
  /-- Partitions whose old mappings still reach the copy, and stream contexts that still read it (R246). -/
  mapped : List Nat := []
  streams : List Nat := []
  deriving DecidableEq, Repr, Inhabited

/-- A tier object, keyed by index (R245). -/
structure Obj where
  /-- The index has been used. -/
  used : Bool := false
  gen : Nat := 0
  retired : Bool := false
  kind : Nat := 0
  format : Nat := 0
  bytes : Nat := 0
  version : Nat := 0
  /-- Creator partition, 64 for PF0. -/
  creator : Nat := 64
  grants : List Nat := []
  copies : List Copy := []
  nextCopy : Nat := 0
  /-- Region base of an FMAP object (R169, R386). -/
  va : Nat := 0
  /-- Order of registration (R174). -/
  born : Nat := 0
  deriving DecidableEq, Repr, Inhabited

/-- A layer of a loaded model (R282). -/
structure Layer where
  part : Nat
  obj : Nat
  layer : Nat
  /-- T1 placement number + 1 of a pinned layer, 0 for one that streams. -/
  placement : Nat
  /-- First DPA of the T2 copy that LOAD_MODEL made for a streamed layer, 0 for none. -/
  t2 : Nat := 0
  bytes : Nat
  /-- SHDW of the layer: it has a shadow copy, and a format wider than INT2 (R278). -/
  shdw : Bool := false
  deriving DecidableEq, Repr, Inhabited

/-- A T1 placement (R234). -/
structure Placement where
  used : Bool := false
  base : Nat := 0
  size : Nat := 0
  /-- Mask of channels. -/
  chset : Nat := 0
  rowb : Nat := 0
  /-- Bytes that it was made for, at most its size. -/
  bytes : Nat := 0
  seed : Nat := 0
  /-- Partition that owns the allocation, and whether the set is NEAR. -/
  part : Nat := 64
  near : Bool := false
  deriving DecidableEq, Repr, Inhabited

end Sys2Proof.Machine
end

