-- ==== Sys2Proof/Machine/RecordsStream.lean ====
section
/-! DEFINITION. Records of tasks on cores, stream contexts, slice decisions and step checkpoints in progress. -/

namespace Sys2Proof.Machine

/-- The task that a matrix core or a carding thread runs (R76, R184, R363). -/
structure Task where
  active : Bool := false
  /-- Global ring, record index and ring generation of the GRAPH (R370). -/
  ring : Nat := 0
  idx : Nat := 0
  gen : Nat := 0
  node : Nat := 0
  task : Nat := 0
  /-- Set when the task has ended and TASK_COMPLETE is due: 0 DONE, 1 ABORTED, 2 FAULT, 3 MALFORMED (R363). -/
  outcome : Option Nat := none
  /-- Fault code of R98 or R205. -/
  code : Nat := 0
  deriving DecidableEq, Repr, Inhabited

/-- What started a chain (R253, R261, R347). -/
inductive ChainOf where
  | none
  /-- STREAM or COPY record: ring, index, generation. -/
  | record (ring idx gen : Nat)
  /-- STREAM node of a GRAPH. -/
  | node (ring idx gen node : Nat)
  /-- Transfer of the tier manager for a command of a mailbox: its acceptance stamp (R254). -/
  | command (m stamp : Nat)
  deriving DecidableEq, Repr, Inhabited

/-- A stream context (R254), keyed by 136 times the engine plus its number; 128 to 135 serve the tier manager. -/
structure Ctx where
  busy : Bool := false
  part : Nat := 0
  /-- Owner ring of the job the chain belongs to; 16 for none. -/
  job : Nat := 16
  of : ChainOf := .none
  /-- Address of the current descriptor, and its bytes once read. -/
  dva : Nat := 0
  desc : List Byte := []
  /-- First line not issued yet, as a line number in coordinate order. -/
  next : Nat := 0
  /-- Every line has been issued. -/
  issued : Bool := false
  /-- Barrier phases at the chain's start, for NWAIT (R270). -/
  phases : List (Nat × Nat) := []
  /-- GLB time at which the chain reached the current descriptor (R270). -/
  reached : Nat := 0
  /-- The current descriptor has been checked, so that its lines take part in the arbitration (R258, R271). -/
  go : Bool := false
  /-- Flash block that a slice has last brought into the deckle reserve (R269). -/
  block : Option Nat := none
  /-- Bytes delivered by the chain. -/
  bytes : Nat := 0
  /-- The chain was built by COPY: its descriptor is not in memory. -/
  own : Bool := false
  /-- First status other than DONE of an ended descriptor, its address and coordinate (R266). -/
  first : Option (Nat × Nat × Nat) := none
  /-- Status of the ended chain of a node (R266), until TASK_COMPLETE takes it. -/
  ended : Option Nat := none
  deriving DecidableEq, Repr, Inhabited

/-- A chain that waits for a context (R254). -/
structure ChainWait where
  engine : Nat
  part : Nat
  job : Nat
  of : ChainOf
  dva : Nat
  desc : List Byte := []
  deriving DecidableEq, Repr, Inhabited

/-- A slice decision that has been asked for and not given (R275, R276). -/
structure SliceReq where
  part : Nat
  ssb : Nat
  slice : Nat
  time : Nat
  /-- GRACE has run out: the dispatch is held until the slice completes (rule 7). -/
  held : Bool := false
  deriving DecidableEq, Repr, Inhabited

/-- Grants of an engine in the present window of 4,096 (R271): how many, those of each partition and of the tier manager, and the
partitions, and whether the tier manager, that had a ready descriptor at every one of them; the context granted last. -/
structure GrantWin where
  used : Nat := 0
  got : SMap Nat := []
  tier : Nat := 0
  parts : List Nat := []
  tierAll : Bool := false
  last : Nat := 0
  deriving DecidableEq, Repr, Inhabited

/-- A slice that has been seen late (R272). -/
abbrev LateSlice := Nat × Nat

end Sys2Proof.Machine
end

