-- ==== Sys2Proof/Machine/RecordsCore.lean ====
section
/-! DEFINITION. Records of the matrix core: decoded tile instructions, unit queues, banks, slots and sequencer state. -/

namespace Sys2Proof.Machine

/-- Scale fields of an operand (R81): 0 none, 1 E8, 2 FP8 E4M3; block code; direction; offset; register. -/
structure ScaleSpec where
  sc : Nat := 0
  blk : Nat := 0
  dir : Nat := 0
  sof : Nat := 0
  ar : Nat := 0
  deriving DecidableEq, Repr, Inhabited

/-- A tile instruction (R78 to R93). -/
inductive Tile where
  /-- TLD (`st = false`) and TST (R80). -/
  | xfer (st : Bool) (tag car mar fmap nrow rlen pitch : Nat)
  | tma (arr bank acc lfmt rfmt lar rar klen : Nat) (l r : ScaleSpec) (lps rps llay iar : Nat)
  | tch (sbank obank first last qfmt kfmt vfmt qar kar var dlen nkv rus : Nat) (kv : ScaleSpec) (vsar star lens qps kps : Nat)
      (q : ScaleSpec)
  | trw (op slot ar arr bank : Nat)
  | tpr (slot ar clr : Nat)
  | tep (arr bank eslot ofmt oar sar bvar keep nrows : Nat)
  | tlp (lvl csrc count lsel sh i0v i0ar i0base i0str i1v i1ar i1base i1str : Nat)
  | tle (lvl armask mamask : Nat)
  | tsk (lsel lvl act tsize ofs nskip : Nat)
  | twt (tags flags clrf ida idb ide : Nat)
  | tsg (set clr tgt core : Nat)
  | thx (dir nb car tag nrow rlen slot : Nat)
  | tdf (bar wait : Nat)
  | tend
  deriving DecidableEq, Repr, Inhabited

/-- A data instruction that has issued: its addresses are those of the address registers at issue (R94). -/
structure Issued where
  op : Tile
  /-- PC of the instruction. -/
  pc : Nat
  /-- AR0 to AR15 at issue. -/
  ars : List Nat
  /-- Memory address of a transfer (MAn). -/
  ma : Nat := 0
  /-- Key length of LENS at issue. -/
  len : Option Nat := none
  deriving DecidableEq, Repr, Inhabited

/-- A started instruction that has not retired, with the ranges it writes (R98): core-memory ranges, DPA ranges, banks. -/
structure Started where
  i : Issued
  /-- A transfer waits for a translation. -/
  paused : Bool := false
  /-- A halo transfer: 0 none or done, 1 waits for CSTEP or DSTEP, 2 waits for the answers to its data writes, 3 for that to its
  header or acknowledgement write (R166, R168). -/
  halo : Nat := 0
  core : List (Nat × Nat) := []
  reads : List (Nat × Nat) := []
  mem : List (Nat × Nat) := []
  banks : List Nat := []
  deriving DecidableEq, Repr, Inhabited

/-- An accumulator bank (R72, R73): state 0 FREE, 1 ACCUM, 2 HELD, 3 DRAIN; type 0 FP32, 1 INT32; 4,096 accumulators as
32-bit values at 64 times the row plus the column. -/
structure Bank where
  st : Nat := 0
  ty : Nat := 0
  acc : SMap Nat := []
  /-- It was HELD when the TEP that drains it began, and KEEP was given. -/
  back : Bool := false
  deriving DecidableEq, Repr, Inhabited

/-- An open loop (R86). -/
structure Loop where
  lvl : Nat
  /-- PC after the TLP. -/
  start : Nat
  count : Nat
  deriving DecidableEq, Repr, Inhabited

/-- Why the sequencer of a matrix core issues nothing. -/
inductive SeqWait where
  | none
  /-- A TWT whose condition did not hold (R89). -/
  | twt
  /-- A TDF that arrived with WAIT = 1 at this barrier (R92). -/
  | tdf (bar : Nat)
  deriving DecidableEq, Repr, Inhabited

/-- A matrix core beyond its MCR registers (R75, R76). -/
structure MCore where
  /-- Instruction buffer. -/
  prog : List Nat := []
  /-- AS at 4n + L, MA at n, MS at 4n + L. -/
  ars : SMap Nat := []
  mas : SMap Nat := []
  mss : SMap Nat := []
  /-- Halo table address of R165, 0 for none. -/
  halo : Nat := 0
  loops : List Loop := []
  /-- Prologue slots 0 to 3, epilogue slots 4 to 7, row-unit slots 8 to 11; empty is the identity configuration. -/
  slots : SMap (List Byte) := []
  /-- Running statistics: maximum at r, sum at 64 + r, FP32 values (R75). -/
  stats : SMap Nat := []
  /-- Banks at 2 times the array plus the bank. -/
  banks : SMap Bank := []
  /-- Issued and not started, in program order; started and not retired. -/
  queue : List Issued := []
  running : List Started := []
  wait : SeqWait := .none
  /-- Transform buffer of the epilogue (R160): FP32 word of output (oy, ox) of (m, n) at 16 (64 m + n) + oy r + ox; position counter
  XP, and OXV of the sequence. -/
  oxf : SMap Nat := []
  xp : Nat := 0
  oxv : Nat := 0
  deriving DecidableEq, Repr, Inhabited

/-- A tile hand-off (R190, R191) in order of issue; `done`: its lines are written and its flag waits for earlier ones of its
thread (R189). -/
structure Handoff where
  thread : Nat
  /-- Descriptor bytes. -/
  desc : List Byte
  done : Bool := false
  deriving DecidableEq, Repr, Inhabited

/-- Why a carding thread does not issue (R179). -/
inductive ThreadWait where
  | none
  /-- XC.FWAIT: matrix core, mask, destination register (R189). -/
  | flags (core mask rd : Nat)
  /-- A translation (R183). -/
  | translation
  /-- Stopped by EBREAK for the debugger (R185). -/
  | break
  deriving DecidableEq, Repr, Inhabited

/-- A statistics accumulator (R199): count, flags (bit 0 NAN, 1 PINF, 2 NINF, 3 OVF), sum in units of 2^-149, sum of squares in
units of 2^-298. -/
structure StatAcc where
  count : Nat := 0
  flags : Nat := 0
  sum : Int := 0
  sumsq : Nat := 0
  deriving DecidableEq, Repr, Inhabited

/-- A carding thread beyond its CRD registers (R179, R184), keyed by 8n + t. -/
structure Thread where
  x : SMap Nat := []
  f : SMap Nat := []
  /-- Vector registers as 1,024-bit numbers. -/
  v : SMap Nat := []
  fcsr : Nat := 0
  vtype : Nat := 2 ^ 63
  vl : Nat := 0
  vstart : Nat := 0
  vcsr : Nat := 0
  /-- CSR xceps (R204). -/
  xceps : Nat := 0
  /-- LR reservation: first DPA, bytes and the value read. -/
  resv : Option (Nat × Nat × Nat) := none
  wait : ThreadWait := .none
  /-- Halted through SEC_HALT (R532). -/
  halted : Bool := false
  instret : Nat := 0
  stats : SMap StatAcc := []
  deriving DecidableEq, Repr, Inhabited

/-- A request in a skein's sort network (R175, R193): its bytes, and where it stands in the view of the thread that sent it. -/
structure SortReq where
  skein : Nat
  thread : Nat
  va : Nat
  data : List Byte
  /-- Once it has been sorted: the writes it still has to do, STATUS last (R175). -/
  writes : Option (List (Nat × List Byte)) := none
  deriving DecidableEq, Repr, Inhabited

/-- A whorl lane (R210): its state and base state; T stands in SKN_WHORL_TICK. Keyed by 64 times the skein plus the lane. -/
structure Lane where
  s : Nat := 1
  base : Nat := 1
  deriving DecidableEq, Repr, Inhabited

/-- A consumer of a lane in arrival order (R192, R215): a pending SKN_WHORL_CMD, or a draw that waits behind one. -/
structure WhorlCmd where
  skein : Nat
  lane : Nat
  seek : Bool
  count : Nat
  /-- 0 for a command; 1 + t: the draw of carding thread t; 2^15 + c: that of an epilogue of matrix core c. -/
  draw : Nat := 0
  deriving DecidableEq, Repr, Inhabited

/-- Saved live state of a job, in rank order so that any physical units may take it (R405, R409, R458): memory keyed as if
rank r were logical unit r, core, task, thread and lane records by rank, and register fields by rank. -/
structure Snapshot where
  /-- It holds memory, cores and threads; a job that opened behind an active one has saved none yet (R399). -/
  full : Bool := false
  mem : List (Nat × BitVec 8) := []
  mcores : SMap MCore := []
  mtasks : SMap Task := []
  threads : SMap Thread := []
  ctasks : SMap Task := []
  lanes : SMap Lane := []
  regs : SMap Nat := []
  barriers : SMap Barrier := []
  /-- Hand-offs of the threads not completed (R191). -/
  handoffs : List Handoff := []
  /-- Bytes of live state (R405). -/
  bytes : Nat := 0
  deriving DecidableEq, Repr, Inhabited

/-- Ring state of an image (R459): STATE, GEN, PRIO, RESUME, indices beyond RESUME that completed, and the started records not
yet completed. -/
structure RingImage where
  state : Nat := 0
  gen : Nat := 0
  prio : Nat := 0
  resume : Nat := 0
  done : List Nat := []
  recs : List Rec := []
  deriving DecidableEq, Repr, Inhabited

/-- A checkpoint image (R459 to R462), keyed by 2 times the partition plus its parity. Protected pages are keyed by partition
virtual address. -/
structure Image where
  complete : Bool := false
  /-- Checkpoint number (R462): CGEN in bits 31:24, SEQ in bits 23:0. -/
  num : Nat := 0
  /-- Owner job of the image, and its record when the copy was made. -/
  job : Nat := 0
  jobRec : Job := {}
  snap : Snapshot := {}
  rings : List RingImage := []
  graphs : List Graph := []
  pages : List (Nat × BitVec 8) := []
  /-- Records fetched since: ring, index, bytes (R465). -/
  log : List (Nat × Nat × List Byte) := []
  /-- GLB time of the copy (R463). -/
  time : Nat := 0
  /-- It holds every protected granule (R461), or the next write must be a full one; an uncorrectable error lies in it (R470). -/
  whole : Bool := false
  bad : Bool := false
  /-- STEP, the barrier that was releasing, and the number of skeins. -/
  step : Nat := 0
  bar : Nat := 0
  skeins : Nat := 0
  /-- Copy map: first addresses of the granules copied by the last write. -/
  copied : List Nat := []
  /-- Mirror of the last write (R477, R478): 0 none, 1 being sent, 2 committed, 3 failed; the partner has every granule. -/
  mstate : Nat := 0
  /-- First addresses of the protected granules when it was written, in order, and of all that it holds. -/
  prot : List Nat := []
  held : List Nat := []
  /-- SHADOW_ALLOW, the order in which it completed, recoveries from it (R467), and the records whose completion was written after it
  and before the next image completed (R465): global ring and index. -/
  shadowAllow : Nat := 0
  /-- T1 hashing mode and seed (R36). -/
  hmode : Nat := 0
  hseed : Nat := 0
  stamp : Nat := 0
  uses : Nat := 0
  reps : List (Nat × Nat) := []
  /-- Place of the shadow record in the image. -/
  shadowOff : Nat := 0
  mwhole : Bool := false
  deriving DecidableEq, Repr, Inhabited

/-- The parts of an image other than its protected pages, as the bytes of R459 (it gives their contents and sizes, not their
layout): image and byte. -/
opaque Config.imagePart : Image → Nat → BitVec 8

/-- The image that the bytes of a mirror region hold for a parity (R475, R480): of the region from its first byte. -/
opaque Config.imageOf : Nat → List (BitVec 8) → Image

/-- A recovery in progress (R464): 0 stopping, 1 replacing the unit, 2 restoring. -/
structure Recovery where
  part : Nat
  phase : Nat := 0
  /-- Fault class and UNIT word (R455, R457), and the failed logical skeins to be replaced. -/
  cls : Nat := 0
  unit : Nat := 0
  skeins : List Nat := []
  /-- The image that will be restored (its key); every protected granule is rewritten (R471). -/
  image : Option Nat := none
  all : Bool := false
  /-- CKPT_RESTORE that waits for it: mailbox and acceptance stamp (R480). -/
  request : Option (Nat × Nat) := none
  /-- ACTION and PHYS found at the replacement (R456, R469). -/
  action : Nat := 0
  phys : Nat := 2 ^ 32 - 1
  detail : Nat := 0
  time : Nat := 0
  deriving DecidableEq, Repr, Inhabited

/-- A VIDEO record at the video scheduler (R316, R318). -/
structure VideoJob where
  ring : Nat
  idx : Nat
  gen : Nat
  /-- Index of its session, and its job descriptor. -/
  sess : Nat := 0
  desc : List Byte := []
  /-- Video cores that hold a frame of the job. -/
  cores : List Nat := []
  /-- It is being stopped (R336), and with what status of R325. -/
  stopping : Bool := false
  stop : Nat := 5
  /-- Its record completes HWFAULT (R472). -/
  hard : Bool := false
  /-- Frames started, bytes of the bitstream taken or written, slots used, frames decoded and not written, frames written. -/
  next : Nat := 0
  off : Nat := 0
  slots : Nat := 0
  unwritten : Nat := 0
  written : Nat := 0
  /-- Output-order index of the first slot that counts, and that slot (R325): a reset of the session in mid-job begins again at 0. -/
  order : Nat := 0
  from' : Nat := 0
  /-- Statuses of its frames so far. -/
  seen : List Nat := []
  deriving DecidableEq, Repr, Inhabited

/-- A decoded picture that is held for reordering (R316): its place in the reference store, its frame, blocks concealed, codes of other
blocks that are not CLEAN, coded bytes, flags, status, and what its bytes spell. -/
structure HeldPic where
  pos : Nat
  info : FrameInfo
  concealed : List Nat := []
  marks : List (Nat × Nat) := []
  bytes : Nat := 0
  flags : Nat := 0
  status : Nat := 0
  codec : Nat := 0
  deriving DecidableEq, Repr, Inhabited

/-- A video session (R313 to R315), keyed by index. -/
structure VSess where
  used : Bool := false
  isOpen : Bool := false
  gen : Nat := 0
  part : Nat := 0
  block : List Byte := []
  /-- T1 placement number + 1 of the reference store, and its bytes. -/
  store : Nat := 0
  bytes : Nat := 0
  /-- Frames completed, and frames output since it opened or was reset (R325). -/
  frames : Nat := 0
  order : Nat := 0
  /-- Codec state; place of the latest picture in decode order in the store. -/
  codec : Nat := 0
  latest : Option Nat := none
  /-- Pictures held for reordering, in output order; blocks of the pictures of the store that are not CLEAN and their codes, latest
  picture first (R330); parameter sets discarded as damaged (R328); decoding started at the last IRAP picture, so that its RASL pictures
  are left out (R335). -/
  held : List HeldPic := []
  pics : List (List (Nat × Nat)) := []
  lostSets : List Nat := []
  skipRasl : Bool := false
  /-- Encode: frames since the key frame, place in the refresh sweep (R333). -/
  gop : Nat := 0
  sweep : Nat := 0
  /-- A key frame is due (first frame, or the reference state was cleared). -/
  fresh : Bool := true
  /-- VSESS_RESET waits for the frame boundary; VSESS_CLOSE waits for the cores. -/
  resetDue : Bool := false
  closing : Bool := false
  /-- Order of service (R310). -/
  stamp : Nat := 0
  deriving DecidableEq, Repr, Inhabited

/-- A running frame (R310), keyed by its first video core. -/
structure VFrame where
  core : Nat
  cores : List Nat
  ring : Nat
  idx : Nat
  sess : Nat
  part : Nat
  info : FrameInfo
  /-- Coded bytes and their offset; place of the picture in the store; slot written, none for a frame not written. -/
  coded : List Byte := []
  off : Nat := 0
  pos : Nat := 0
  slot : Option Nat := none
  rows : Nat := 0
  /-- What its bytes spell; of an encode frame, the codec state after it. -/
  codec : Nat := 0
  /-- Status so far (R325): UNSUPPORTED, WATCHDOG or OVERFLOW; 0 for none. -/
  status : Nat := 0
  flags : Nat := 0
  /-- Blocks concealed; codes of other blocks that are not CLEAN (R330). -/
  concealed : List Nat := []
  marks : List (Nat × Nat) := []
  key : Bool := false
  /-- 0: pictures held are put out and the input is read; 1: it is decoded or encoded; 2: it has committed, and what the job's end puts out
  remains. -/
  phase : Nat := 0
  /-- Slots that held pictures are still to take. -/
  outs : List Nat := []
  deriving DecidableEq, Repr, Inhabited

end Sys2Proof.Machine
end

