-- ==== Sys2Proof/Machine/RecordsFab.lean ====
section
/-! DEFINITION. Records of the Foltos fabric (R416 to R454): ports, requests, receivers' windows, collectives. -/

namespace Sys2Proof.Machine

/-- A frame before the hop fields are set: header and payload (R420, R421). -/
structure FabFrame where
  header : List Byte
  payload : List Byte := []
  deriving DecidableEq, Repr, Inhabited

/-- A frame that waits for its link acknowledgement (R428): its LSEQ and how often it has been replayed. -/
structure KeptFrame where
  seq : Nat
  f : FabFrame
  replays : Nat := 0
  deriving DecidableEq, Repr, Inhabited

/-- A port (R416 to R428, R448 to R451) beyond its registers. -/
structure Port where
  /-- Partner that FAB_PORT expects; 0xFFFF for any. -/
  expect : Nat := 0xFFFF
  /-- Cable present: FPRS# is low (R560). -/
  present : Bool := false
  /-- Failed attempts of bring-up, by GLB time, and whether the port stays DOWN until FAB_PORT (R419). -/
  fails : List Nat := []
  held : Bool := false
  /-- Stopped by a power state (R418). -/
  stopped : Bool := false
  /-- Credits in use at the partner, in 64 B units, by 2 * VC + LANE (R425, R426). -/
  used : SMap Nat := []
  /-- Credits to return, by VC. -/
  ret : SMap Nat := []
  /-- Next LSEQ to send; next LSEQ expected (R428). -/
  txSeq : Nat := 0
  rxSeq : Nat := 0
  kept : List KeptFrame := []
  /-- Frames that wait for credits, oldest first. -/
  queue : List FabFrame := []
  /-- VCs that have reached the credit timeout (R429), one bit each. -/
  late : Nat := 0
  /-- Handshake (R448): 0 not begun, 1 HELLO sent, 2 AUTH sent, 3 FIN sent, 4 done. -/
  hs : Nat := 0
  /-- It is a handshake of an UP port without retraining (R451). -/
  again : Bool := false
  /-- Encryption as the HELLOs agreed it (R450). -/
  encNext : Bool := false
  /-- Own and partner's HELLO bodies; parts of the partner's AUTH. -/
  mine : List Byte := []
  theirs : List Byte := []
  parts : List Byte := []
  nparts : Nat := 0
  /-- Keys of each direction (opaque numbers), KEYID bits, whether the partner's new key has not been used yet, NCTR counter. -/
  keyTx : Nat := 0
  keyRx : Nat := 0
  newRx : Bool := false
  idTx : Nat := 0
  idRx : Nat := 0
  nctrTx : Nat := 0
  /-- A REKEY of our sending direction awaits the partner's key. -/
  rekeying : Bool := false
  /-- GLB times of malformed frames and of replays within the last second (R447, R454). -/
  malTimes : List Nat := []
  replayTimes : List Nat := []
  deriving DecidableEq, Repr, Inhabited

/-- Who made a fabric request. -/
inductive FabOwner where
  /-- THX of matrix core c under a tag (R168). -/
  | halo (c tag : Nat)
  /-- SIGNAL_PEER of record `idx` of global ring g under the ring's generation (R357, R370). -/
  | signal (g idx gen : Nat)
  /-- Mirror traffic of partition p (R475). -/
  | mirror (p : Nat)
  /-- The record-log entry of record `idx` of global ring g (R465, R477). -/
  | mirrorLog (g idx : Nat)
  /-- The shadow-record bit of a decision (R279). -/
  | mirrorBit (p ssb : Nat)
  /-- Collective of partition p with the descriptor at this address (R440). -/
  | coll (p dva : Nat)
  deriving DecidableEq, Repr

/-- A request to another device (R432, R433). -/
structure FabReq where
  owner : FabOwner
  dst : Nat
  /-- TYPE of R422. -/
  ty : Nat
  /-- Global ring + 1 of the record whose task made the request; 0 for none (R357). -/
  ring : Nat := 0
  spart : Nat := 0
  dpart : Nat := 0
  addr : Nat := 0
  opf : Nat := 0
  xinfo : Nat := 0
  payload : List Byte := []
  /-- Its TAG and TGEN once it has been sent; resends so far. -/
  tag : Option Nat := none
  tgen : Nat := 0
  /-- It has its TAG and its timer runs, but a STOP has kept it from being sent (R445). -/
  unsent : Bool := false
  resends : Nat := 0
  /-- The answer: STATUS of R431, or 5 UNREACHABLE. -/
  answer : Option Nat := none
  deriving DecidableEq, Repr

/-- What a receiver keeps of one source (R432). -/
structure RxSrc where
  /-- A TGEN has been accepted. -/
  known : Bool := false
  tgen : Nat := 0
  base : Nat := 0
  /-- Status of each recorded tag from the base upward. -/
  done : List (Nat × Nat) := []
  /-- Answers that wait for the RESP (R431): TAG, TGEN, STATUS. -/
  answers : List (Nat × Nat × Nat) := []
  /-- Rate limit (R444): start of the window, bytes delivered in it, whether its STOP has been sent. -/
  winStart : Nat := 0
  winBytes : Nat := 0
  stopped : Bool := false
  deriving DecidableEq, Repr, Inhabited

/-- A mirror region that this module holds for a partition of another (R475, R476), keyed by the partner partition here. -/
structure Mirror where
  used : Bool := false
  /-- T1 placement number + 1, first DPA, and bytes. -/
  placement : Nat := 0
  base : Nat := 0
  size : Nat := 0
  /-- GLB time of the last frame accepted, and whether PEER_LOST has been raised (R479). -/
  last : Nat := 0
  lost : Bool := false
  /-- Newest CGEN held (R462). -/
  cgen : Option Nat := none
  deriving DecidableEq, Repr, Inhabited

/-- A WRITE that waits for a translation (R430). -/
structure FabPend where
  src : Nat
  tag : Nat
  tgen : Nat
  part : Nat
  window : Nat
  addr : Nat
  data : List Byte
  deriving DecidableEq, Repr, Inhabited

/-- Requests to a device are stopped (R445): for one partition, or all (64). -/
structure FabStop where
  dev : Nat
  part : Nat
  deriving DecidableEq, Repr, Inhabited

/-- A chunk of a collective that waits to be sent: to the rank above or below, its number, its bytes. -/
structure CollOut where
  up : Bool
  chunk : Nat
  data : List Byte
  deriving DecidableEq, Repr, Inhabited

/-- A collective that is queued or running (R439 to R441). -/
structure Coll where
  part : Nat
  dva : Nat
  /-- Its descriptor, group table (DEV, PART) by rank and own input are read: it takes chunks. -/
  running : Bool := false
  desc : List Byte := []
  group : List (Nat × Nat) := []
  input : List Byte := []
  /-- Chunks that have come from the rank below. -/
  ups : List Nat := []
  /-- Final chunks by number. -/
  result : SMap (List Byte) := []
  /-- Chunks to send, oldest first. -/
  outbox : List CollOut := []
  /-- The STATUS with which it ends, while the page of STATUS waits for its translation. -/
  closing : Option Nat := none
  deriving DecidableEq, Repr, Inhabited

end Sys2Proof.Machine
end

