-- ==== Sys2Proof/Machine/RecordsSys.lean ====
section
/-! DEFINITION. Records of the power controller, the self-test, the debug port and the management transports. -/

namespace Sys2Proof.Machine

/-- A PWR_SET sequence or a wake (R490 to R496). -/
structure PwrSeq where
  /-- Mailbox and acceptance stamp of the PWR_SET; none for a wake from P4. -/
  request : Option (Nat × Nat) := none
  target : Nat
  /-- Codes of the block being prepared and of those after it (R490), and of those that have answered READY, newest first. -/
  todo : List Nat := []
  ready : List Nat := []
  /-- The block that refused, and its REASON (R492). -/
  refused : Option (Nat × Nat) := none
  /-- It goes to a shallower state (R493). -/
  wake : Bool := false
  deriving DecidableEq, Repr, Inhabited

/-- What the power controller keeps between samples (R498 to R502). -/
structure PwrCtl where
  /-- Input power of the last 100 samples, newest first. -/
  samples : List Nat := []
  /-- Samples for which each rule of R498 has held without a break: FAST, above the cap, 50 W below it. -/
  fast : Nat := 0
  above : Nat := 0
  below : Nat := 0
  /-- MCLK of each quadrant as the controller sets it, MHz. -/
  mclk : SMap Nat := []
  /-- CCLK is at 1.0 GHz, and video is held, by the controller. -/
  slow : Bool := false
  videoHeld : Bool := false
  /-- Sources of R501 at 100 C or above and not back at 95 C; sources of the module thermal response: one bit each. -/
  hot : Nat := 0
  alert : Nat := 0
  /-- Samples since a hot die was last slowed. -/
  hotTick : Nat := 0
  /-- Samples for which MCLK is still held after the brake was released. -/
  hold : Nat := 0
  deriving DecidableEq, Repr, Inhabited

/-- A running BIST_RUN (R537 to R541). -/
structure BistRun where
  mbx : Nat
  stamp : Nat
  kind : Nat
  scope : Nat
  mask : Nat
  deriving DecidableEq, Repr, Inhabited

/-- Connection state of an SPDM transport (R525): 0 none, 1 versions given, 2 capabilities given, 3 algorithms negotiated; the version in
use. -/
structure SpdmConn where
  phase : Nat := 0
  version : Nat := 0x13
  deriving DecidableEq, Repr, Inhabited

/-- What the FTL keeps of its map and media (R287, R298): where each written block lies, as 16 times its stripe plus its channel plus 1
(unlisted: never written, or trimmed); the next stripe; the first stripe written after the newest loss of a channel. -/
structure FtlMap where
  map : SMap Nat := []
  next : Nat := 0
  fresh : Nat := 0
  deriving DecidableEq, Repr, Inhabited

/-- Instructions of the TAP (R530). -/
inductive TapInstr where
  | bypass | samplePreload | extest | xident | dbgAccess
  deriving DecidableEq, Repr, Inhabited

end Sys2Proof.Machine
end

