-- ==== Sys2Proof/Config.lean ====
section
/-! DEFINITION. What an implementation fixes and what the spec leaves open: opaque constants with no body. A claim about the
model holds whatever they are. -/

namespace Sys2Proof

/-- Fuse-loaded silicon revision REV (R99, R206, R512, R547). -/
opaque Config.fuseRev : BitVec 8

/-- The polynomial constants P_i of lane i (R210); published outside the spec (R542). -/
opaque Config.whorlPoly : Nat → BitVec 128

/-- The fabric epoch held in non-volatile storage when the part is first powered (R432). -/
opaque Config.nvEpoch : Nat

/-- Fuses: the lifecycle in force (R514, R536). -/
opaque Config.fuseLifecycle : BitVec 2

/-- Fuses: the lifecycle pending (R515, R536). -/
opaque Config.fuseLcPending : BitVec 2

/-- Fuses: the module is provisioned (R536). -/
opaque Config.fuseProvisioned : BitVec 1

/-- Fuses: the debug level granted (R526, R536). -/
opaque Config.fuseDebugGrant : BitVec 2

/-- Mill firmware release (R3) and serial number as DEV_INFO reports them. -/
opaque Config.firmware : BitVec 32
opaque Config.serial : BitVec 64

/-- Boot ROM revision (R536). -/
opaque Config.romRevision : BitVec 32

/-- Boot ROM entry i of the power sequencer table (R508, R511), from entry 3 on: the spec prints what the first three hold, and
not how one entry turns several rails off. -/
opaque Config.bootRomSeq : Nat → BitVec 64

/-- The debug challenge drawn at a reset (R528, R536), word i. -/
opaque Config.resetChallenge : Nat → BitVec 32

/-- The byte that a read of host memory returns: read number and host address. Host memory lies outside the module. -/
opaque Config.hostByte : Nat → Nat → Byte

/-- The host page that an ATS request not seen by the model would return is never assumed; a translation that the host
grants comes with the completion. Conditioned random bits (R208), by draw number. -/
opaque Config.noise : Nat → BitVec 256

/-- What a byte or an accumulator named by a started instruction holds after a fault (R98), by draw number and place. -/
opaque Config.unknownByte : Nat → Nat → Byte
opaque Config.unknownAcc : Nat → Nat → BitVec 32

/-- The decoding and encoding processes of the standards of R311, which the spec refers to and does not hold. Decoding: what a frame
spells, from the codec state before it, the session block without SPLIT (R326) and the coded bytes; a sample of it (plane, x, y), which the
concealed blocks change in the filtering of their edges (R329); the codec state after it, which carries the pictures in the reference
store, concealed samples included; and film grain on a sample (R325). -/
opaque Config.videoFrame : Nat → List Byte → List Byte → Nat
opaque Config.videoSample : Nat → List Nat → Nat → Nat → Nat → BitVec 16
opaque Config.videoNext : Nat → List Nat → Nat
opaque Config.videoGrain : Nat → Nat → Nat → Nat → BitVec 16
/-- Encoding: coded bytes and the codec state after a frame, from the state before, the session block without SPLIT (R327), what the
refresh sweep asks of the frame (R333, R334), and the input samples. -/
opaque Config.videoCode : Nat → List Byte → List Nat → List Nat → List Byte
opaque Config.videoCoded : Nat → List Byte → List Nat → List Nat → Nat
/-- A 16 x 16 block at the end of an entropy segment that missing bytes damage (R319, R328), by the frame and the block of bytes. -/
opaque Config.videoSegment : Nat → Nat → Nat

/-- VCLK cycles of a frame in units of 1,024 (R325), and a core's share of the samples of a frame that several cores decode (R326,
R338): timing, by draw number. -/
opaque Config.videoCycles : Nat → BitVec 32
opaque Config.videoShare : Nat → Nat → BitVec 32

/-- First 16 x 16 block that an expired budget leaves undecoded (R331), by draw number. -/
opaque Config.videoLeft : Nat → Nat

/-- The FP32 special functions (R194): which of the two FP32 neighbours of the exact value the silicon revision returns, by function
and input word; and which value within 2 ulp a Gaussian draw takes (R217), by its two words. -/
opaque Config.sfuUp : Nat → Nat → Bool
opaque Config.gaussUlp : Nat → Nat → Nat

/-- Outer index of the parameters that DEQ and NORM use for a strip line under WIN: R116 states none. -/
opaque Config.stripOuter : Nat → Nat

/-- Maximum of two FP32 words in a chain (R126 states neither case): whether a NaN beside a number gives NaN, and whether of two zeros of
unlike signs the first is taken. -/
opaque Config.nanMax : Nat → Nat → Bool
opaque Config.zeroMax : Nat → Nat → Bool

/-- PFMT of the identity row-unit configuration (R76), which R125 does not give. -/
opaque Config.idPfmt : Nat

/-- Calender codec (R171): whether a zero, by its sign, takes the upper of the two nearest levels, which have equal magnitude. -/
opaque Config.calZero : Bool → Bool

/-- AES-256-GCM of a frame (R450): key, salt with NCTR, header, payload; the ciphertext and the 16 B tag. -/
opaque Config.gcm : Nat → Nat → List Byte → List Byte → List Byte

/-- The 4 bytes that travel beside DSTEP in the 8 B WRITE of a halo header (R165, R168 and R422 give no contents), by step and address. -/
opaque Config.haloPad : Nat → Nat → BitVec 32

/-- Whether an agnostic element of a vector destination is overwritten with ones (RISC-V vector tail and mask policies, R180), by the
instruction word and the element: R61 and R203 let it depend on nothing that another run of the same program changes. -/
opaque Config.agnostic : Nat → Nat → Bool

/-- CSR cycle of a carding thread (R178): timing, by draw number. -/
opaque Config.cardCycles : Nat → BitVec 64

/-- How many 64 B lines of a hand-off had been written when its thread's fault stopped it (R205), by draw number. -/
opaque Config.handoffLines : Nat → Nat

/-- The address that CRD_FAULT_VA shows for a PUT into the deckle window (R191, R206 give none), by draw number. -/
opaque Config.putFaultVa : Nat → Nat

/-- Link authentication (R448, R449): the body of our AUTH message (certificate chain, ephemeral key, signature) from a draw number and
both HELLOs; whether the partner's AUTH verifies; the FIN body of a side (`own`: ours) from both HELLOs and the partner's AUTH; the key
and salt of a direction (`tx`: ours); the ephemeral key of a REKEY from a draw number; the key that a REKEY of a direction derives. -/
opaque Config.authBody : Nat → List Byte → List Byte → List Byte
opaque Config.authOk : List Byte → List Byte → List Byte → Bool
/-- Lifecycle in the alias certificate that a partner's AUTH carries (R535). -/
opaque Config.partnerLc : List Byte → Nat
opaque Config.finMac : Bool → List Byte → List Byte → List Byte → List Byte
opaque Config.linkKey : Bool → List Byte → List Byte → List Byte → Nat
opaque Config.rekeyBody : Nat → List Byte
opaque Config.rekeyKey : Bool → Nat → List Byte → Nat

/-- MAX or MIN of two zeros of unlike signs in a collective (R441 does not say which): whether the first is taken. -/
opaque Config.collZero : Nat → Nat → Bool

/-- The 128 B entry that a record log holds for a record (R459, R465 give no layout): ring, index, record. -/
opaque Config.imageLogEntry : Nat → Nat → List Byte → List Byte

/-- What the FTL finds or decides by rules the spec does not give: health figures (R307, R308) by draw number and figure, bytes moved by
background work (R296) by draw number, the channel that holds a NAND block, the two channels of the metadata (R298), and whether a
stripe had not been rebuilt when a second channel was lost (R298) by draw number. -/
opaque Config.flashHealth : Nat → Nat → Nat
opaque Config.flashMoved : Nat → Nat
opaque Config.blockChannel : Nat → Fin 16
opaque Config.metaChannel : Bool → Fin 16
opaque Config.stripeLost : Nat → Nat → Bool

/-- Media (R290, R296): which step returns a block that is read, 0 hard decode, 1 soft decode, 2 the stripe, 3 none, by draw number and
LBA; and the blocks of a channel marked bad at manufacture. -/
opaque Config.flashStep : Nat → Nat → Fin 4
opaque Config.factoryBad : Fin 16 → Nat

/-- Reads that an engine merges (R268): which reads wait together is timing, by draw number. -/
opaque Config.merged : Nat → Nat

/-- Recovery time of a takeover in us, as the RECOVERED event gives it (R389): timing, by draw number. -/
opaque Config.takeoverMicros : Nat → BitVec 32

/-- UNIT word of the fault-log entry of a thermal response (R501): R457 names no kind for a die or a stack; by source. -/
opaque Config.thermalUnit : Nat → BitVec 32

/-- CLASS and UNIT of the fault that a failed wait for power good logs (R508): R455 lists no class for it. -/
opaque Config.powerFault : BitVec 8 × BitVec 32

/-- SHA-384 of a boot image as measured at a start (R518): 0 to 3 in the order of R518, 4 the boot ROM. -/
opaque Config.imageDigest : Nat → BitVec 384

/-- Speed, width and flit mode that link training settles at a cold start (R506, R557), by draw number. -/
opaque Config.linkTrained : Nat → BitVec 3 × BitVec 5 × Bool

/-- Identity (R516, R520 to R522): whether an AUTH field is the lifecycle authority's signature of a message; certificate 0 to 3 under a
lifecycle; SHA-384 of the alias public key under a lifecycle; a signature by the alias key, by draw number and signed bytes. -/
opaque Config.lifecycleSig : List Byte → List Byte → Bool
opaque Config.certificate : Nat → Nat → List Byte
opaque Config.aliasHash : Nat → BitVec 384
opaque Config.aliasSign : Nat → List Byte → BitVec 768

/-- What a debugger reads at an unlisted offset of the whorl range at FULL, where lane states appear (R224, R528 give no layout): offset
and the states of the skein's lanes. -/
opaque Config.laneView : Nat → List Nat → BitVec 64

/-- Levels of the boundary cells that SAMPLE/PRELOAD captures (R530), and console text (R531), by draw number. -/
opaque Config.boundary : Nat → List Bool
opaque Config.consoleText : Nat → List Byte

/-- MCTP versions that Get Version returns (R569 names none). -/
opaque Config.mctpVersions : List Byte

/-- Place of a PCI Express capability in the configuration space of a function, by function number and capability ID (R546 and R547 give no
offsets), and the words of configuration space that the spec leaves open, by function, offset and draw number. -/
opaque Config.capPlace : Nat → Nat → Nat
opaque Config.configWord : Nat → Nat → Nat → BitVec 32

/-- Self-test (R541 to R543): the published signature of a unit kind (0 skein, 1 stack, 2 IOD-N, 3 IOD-S) for KIND; the signature of a
faulty unit, by draw number; UNIT word of a fault of other logic of an I/O die, for which R457 names no kind, by die. -/
opaque Config.bistSignature : Nat → Nat → BitVec 128
opaque Config.bistFaulty : Nat → BitVec 128
opaque Config.iodUnit : Nat → BitVec 32

/-- The 3 address straps SB_ADDR (R559, R568). -/
opaque Config.straps : BitVec 3

/-- Single-bit errors that the reads of one access meet and that SECDED or another code corrects in place (R69, R182, R233, R471, R428,
R290): physical, by draw number. -/
opaque Config.corrected : Nat → Nat
/-- Errors corrected so far on a T1 channel after a number of T1 reads (R252, R471). -/
opaque Config.channelCorrected : Nat → Nat → Nat

end Sys2Proof
end

