-- ==== Sys2Proof/Machine/Regs.lean ====
section
/-! DEFINITION. The registers of the module: one name for every field of every register table of the spec, its width and its
reset value (the Reset column, R13), and for every block the list of its registers with the place of each field (R6, R9).
A field that exists many times (once per core, ring, partition, port ...) is one name with an index. -/

namespace Sys2Proof.Machine

/-- The register blocks: the prefixes of spec/00_scope.md. -/
inductive Blk where
  | glb | pwr | sec | mbx | ring | skn | mcr | crd | tier | strm | ftl | vid | flk | pci | bist
  deriving DecidableEq, Repr

/-- Access codes of R10. -/
inductive Acc where
  | ro | rw | w1c | wo | rwl
  deriving DecidableEq, Repr

/-- Every field of every register table. -/
inductive Fld where
  /-- R99 MCR+0x0 bits 8:0, RO, reset c: Logical core number -/
  | mcrIdCore
  /-- R99 MCR+0x0 bits 14:9, RO, reset c ÷ 8: Logical skein -/
  | mcrIdSkein
  /-- R99 MCR+0x0 bits 16:15, RO, reset c ÷ 128: Quadrant -/
  | mcrIdQuad
  /-- R99 MCR+0x0 bits 31:24, RO, reset F: Silicon revision, as in the device-information response -/
  | mcrIdRev
  /-- R99 MCR+0x4 bits 0:0, RO, reset 0: A task is running -/
  | mcrStatusBusy
  /-- R99 MCR+0x4 bits 1:1, RO, reset 0: Array A has queued or running work -/
  | mcrStatusArra
  /-- R99 MCR+0x4 bits 2:2, RO, reset 0: Array B has queued or running work -/
  | mcrStatusArrb
  /-- R99 MCR+0x4 bits 3:3, RO, reset 0: The epilogue has queued or running work -/
  | mcrStatusEpi
  /-- R99 MCR+0x4 bits 4:4, RO, reset 0: A tag is outstanding -/
  | mcrStatusXfer
  /-- R99 MCR+0x4 bits 8:8, W1C, reset 0: Sticky flush flag under R60 -/
  | mcrStatusSnflush
  /-- R99 MCR+0x4 bits 9:9, W1C, reset 0: Sticky INT32 saturation flag under R52 -/
  | mcrStatusIsat
  /-- R99 MCR+0x8 bits 3:0, RO, reset 0x0: Fault code under R98 -/
  | mcrFaultCode
  /-- R99 MCR+0x8 bits 14:4, RO, reset 0: PC of the faulting instruction -/
  | mcrFaultPc
  /-- R99 MCR+0xc bits 10:0, RO, reset 0: PC of the next instruction to issue -/
  | mcrPc
  /-- R99 MCR+0x10 bits 15:0, RW, reset 0: At 0x0010: the flags. Cleared at task start. A write coinciding with a hardware set follows R11, since TSG updates this field -/
  | mcrFlags
  /-- R99 MCR+0x14 bits 15:0, WO, reset 0: At 0x0014: writing 1 sets the flag -/
  | mcrFlagSet
  /-- R99 MCR+0x18 bits 15:0, WO, reset 0: At 0x0018: writing 1 clears the flag; a set in the same MCLK wins under R90 -/
  | mcrFlagClr
  /-- R99 MCR+0x1c bits 31:0, RO, reset 0: Step number from the parameter block -/
  | mcrStep
  /-- R99 MCR+0x20 + 0x4*i bits 31:0, RO, reset 0: Run-time length n, in elements -/
  | mcrLen
  /-- R99 MCR+0x40 bits 0:0, RO, reset 0: 0 FLUSH; 1 KEEP; from the partition context at job start -/
  | mcrModeSubn
  /-- R99 MCR+0x40 bits 6:1, RO, reset 0: Owning partition -/
  | mcrModePart
  /-- R99 MCR+0x40 bits 7:7, RO, reset 0: 1: the core belongs to a partition -/
  | mcrModeOwned
  /-- R99 MCR+0x48 bits 7:0, RO, reset 0: Window base in units of 16 KiB, that is 256 − DCM (R395); 0 when SIZE is 0 -/
  | mcrDeckleBase
  /-- R99 MCR+0x48 bits 23:16, RO, reset 0: Window size in units of 16 KiB; 0 means no window -/
  | mcrDeckleSize
  /-- R99 MCR+0x80 bits 63:0, RO, reset 0: Rank-1 steps on array A; one MCLK of rank-4 counts 4 -/
  | mcrStepsA
  /-- R99 MCR+0x88 bits 63:0, RO, reset 0: As STEPS_A, for array B -/
  | mcrStepsB
  /-- R99 MCR+0x90 bits 63:0, RO, reset 0: MCLK cycles with BUSY = 1 -/
  | mcrCycTask
  /-- R99 MCR+0x98 bits 63:0, RO, reset 0: MCLK cycles in which issue waited on R95 -/
  | mcrStallHaz
  /-- R99 MCR+0xa0 bits 63:0, RO, reset 0: MCLK cycles in which an array waited on a core-memory read -/
  | mcrStallMem
  /-- R99 MCR+0xa8 bits 63:0, RO, reset 0: Corrected core-memory errors -/
  | mcrEccCe
  /-- R99 MCR+0xb0 bits 63:0, RO, reset 0: TSK actions taken -/
  | mcrSkips
  /-- R99 MCR+0x100 + 0x4*i bits 15:0, RO, reset 0: Address register n, in 64 B units; bits [31:16] reserved -/
  | mcrAr
  /-- R99 MCR+0x140 + 0x4*i bits 23:0, RO, reset 0: Loop counter n; bits [31:24] reserved -/
  | mcrLc
  /-- R206 CRD+0x0 bits 10:0, RO, reset n: Logical carding core number -/
  | crdIdCore
  /-- R206 CRD+0x0 bits 16:11, RO, reset n ÷ 32: Logical skein -/
  | crdIdSkein
  /-- R206 CRD+0x0 bits 18:17, RO, reset n ÷ 512: Quadrant -/
  | crdIdQuad
  /-- R206 CRD+0x0 bits 31:24, RO, reset F: Silicon revision, as in the device-information response -/
  | crdIdRev
  /-- R206 CRD+0x4 bits 7:0, RO, reset 0: Bit t set: thread t runs a task -/
  | crdStatusTbusy
  /-- R206 CRD+0x4 bits 8:8, W1C, reset 0: Sticky flush flag under R196 -/
  | crdStatusSnflush
  /-- R206 CRD+0x4 bits 9:9, RO, reset 0: A hand-off is outstanding -/
  | crdStatusHobusy
  /-- R206 CRD+0x4 bits 10:10, W1C, reset 0: Sticky: an accumulator of the core set OVF under R199 -/
  | crdStatusStovf
  /-- R206 CRD+0x8 bits 3:0, RO, reset 0x0: Fault code under R205 -/
  | crdFaultCode
  /-- R206 CRD+0x8 bits 6:4, RO, reset 0: Faulting thread -/
  | crdFaultThread
  /-- R206 CRD+0x10 bits 63:0, RO, reset 0: At 0x0010, 64 bits: pc of the faulting instruction; bits [63:48] zero -/
  | crdFaultPc
  /-- R206 CRD+0x18 bits 63:0, RO, reset 0: At 0x0018, 64 bits: faulting address for MEMFAULT, ALIGN and ACCESS, otherwise 0; bits [63:48] zero -/
  | crdFaultVa
  /-- R206 CRD+0x20 bits 31:0, RO, reset 0: At 0x0020: low 32 bits of a0 at the last ECALL with a0 ≠ 0 -/
  | crdExit
  /-- R206 CRD+0x40 bits 0:0, RO, reset 0: 0 FLUSH; 1 KEEP; from the partition context at job start -/
  | crdModeSubn
  /-- R206 CRD+0x40 bits 6:1, RO, reset 0: Owning partition -/
  | crdModePart
  /-- R206 CRD+0x40 bits 7:7, RO, reset 0: 1: the core belongs to a partition -/
  | crdModeOwned
  /-- R206 CRD+0x80 bits 63:0, RO, reset 0: Instructions retired, all threads -/
  | crdInstr
  /-- R206 CRD+0x88 bits 63:0, RO, reset 0: Floating-point operations; an FMA element counts 2 -/
  | crdFlops
  /-- R206 CRD+0x90 bits 63:0, RO, reset 0: Elements through XC.VSF, XC.VFBA, XC.VCVT and XC.VSTAT -/
  | crdSfuElem
  /-- R206 CRD+0x98 bits 63:0, RO, reset 0: Bytes moved by hand-offs -/
  | crdHoBytes
  /-- R206 CRD+0xa0 bits 63:0, RO, reset 0: Corrected local-memory errors -/
  | crdEccCe
  /-- R206 CRD+0xa8 bits 63:0, RO, reset 0: CCLK cycles in which no thread was ready because all waited on memory -/
  | crdStallMem
  /-- R206 CRD+0x100 + 0x8*i bits 47:0, RO, reset 0: pc of the next instruction of thread t -/
  | crdPc
  /-- R224 SKN+0x8000 bits 5:0, WO, reset 0: Lane 0–63 -/
  | sknWhorlCmdLane
  /-- R224 SKN+0x8000 bits 6:6, WO, reset 0: 0 JUMP; 1 SEEK, under R215 -/
  | sknWhorlCmdOp
  /-- R224 SKN+0x8000 bits 63:8, WO, reset 0: Ticks, 0 to 2⁵⁶ − 1 -/
  | sknWhorlCmdCount
  /-- R576 SKN+0x8008 bits 4:0, RO, reset 0: Commands pending, 0–16 -/
  | sknWhorlStatusPend
  /-- R576 SKN+0x8008 bits 5:5, RO, reset 0: 1: lanes seeded for the current job -/
  | sknWhorlStatusSeeded
  /-- R576 SKN+0x8008 bits 6:6, RO, reset 0: 1: the noise source is FAILED under R209 -/
  | sknWhorlStatusSrcfail
  /-- R576 SKN+0x8010 bits 63:0, RO, reset 0: Words drawn from all lanes of the skein -/
  | sknWhorlWords
  /-- R576 SKN+0x8100 + 0x8*i bits 63:0, RO, reset 0: Tick counter of lane i under R210 -/
  | sknWhorlTick
  /-- R576 SKN+0x8400 + 0x10*i bits 63:0, RO, reset F: At 0x8400 + 16i: bits [63:0] of P_i -/
  | sknWhorlPolyLo
  /-- R576 SKN+0x8408 + 0x10*i bits 63:0, RO, reset F: At 0x8408 + 16i: bits [127:64] of P_i -/
  | sknWhorlPolyHi
  /-- R252 TIER+0x0 bits 8:0, RO, reset 256: Live T1 channels -/
  | tierCapLive
  /-- R252 TIER+0x0 bits 15:9, RO, reset 4: System region, in units of 512 MiB -/
  | tierCapSysres
  /-- R252 TIER+0x0 bits 31:16, RO, reset 768: Backed T1 capacity, in units of 512 MiB; 3 less per lost channel -/
  | tierCapT1cap
  /-- R252 TIER+0x8 bits 63:0, RO, reset 0: Accesses to unbacked DPA or refused T0 windows under R226 -/
  | tierUnbacked
  /-- R252 TIER+0x10 bits 63:0, RO, reset 0: Entries found malformed under R229 -/
  | tierPteBad
  /-- R252 TIER+0x20 + 0x4*i bits 31:0, RO, reset 0xFFFF_FFFF: Bit b set: channel 32i + b is live -/
  | tierLive
  /-- R252 TIER+0x80 bits 8:0, RW, reset 0: T1 DPA of BAR2 offset 0, in GiB. Offset o reaches DPA BASE × 2³⁰ + o; beyond the backed range, R226 applies -/
  | tierBar2Base
  /-- R252 TIER+0x80 bits 31:31, RW, reset 0: 1: BAR2 reaches T1; 0: BAR2 reads all ones and discards writes -/
  | tierBar2En
  /-- R252 TIER+0x100 + 0x4*i bits 7:0, RO, reset 0: Stack temperature, °C -/
  | tierStackTemp
  /-- R252 TIER+0x100 + 0x4*i bits 8:8, RO, reset 0: Doubled refresh in force under R241 -/
  | tierStackHotref
  /-- R252 TIER+0x100 + 0x4*i bits 9:9, RO, reset 0: Activation limit in force under R241 -/
  | tierStackThrot
  /-- R252 TIER+0x100 + 0x4*i bits 10:10, W1C, reset 0: Sticky: THROT has been set -/
  | tierStackWashot
  /-- R252 TIER+0x400 + 0x4*i bits 0:0, RO, reset 1: Channel c is live -/
  | tierChLive
  /-- R252 TIER+0x400 + 0x4*i bits 3:1, RO, reset 0: 0 none; 1 uncorrectable errors; 2 training; 3 self-test; 4 command, under R242 -/
  | tierChCause
  /-- R252 TIER+0x400 + 0x4*i bits 31:16, RO, reset 0: Corrected errors, saturating at 0xFFFF -/
  | tierChCe
  /-- R252 TIER+0x1000 + 0x40*i bits 0:0, RO, reset 1: Mode of the next placement: 0 NEAR; 1 SPREAD -/
  | tierPHashHmode
  /-- R252 TIER+0x1000 + 0x40*i bits 31:16, RO, reset 0: Seed of the next placement -/
  | tierPHashSeed
  /-- R252 TIER+0x1008 + 0x40*i bits 63:0, RO, reset 0: Use in bytes under R249 -/
  | tierPT1use
  /-- R252 TIER+0x1010 + 0x40*i bits 63:0, RO, reset 0: Quota in bytes -/
  | tierPT1quota
  /-- R252 TIER+0x1018 + 0x40*i bits 63:0, RO, reset 0: As T1USE -/
  | tierPT2use
  /-- R252 TIER+0x1020 + 0x40*i bits 63:0, RO, reset 0: As T1QUOTA -/
  | tierPT2quota
  /-- R252 TIER+0x1028 + 0x40*i bits 63:0, RO, reset 0: As T1USE -/
  | tierPT3use
  /-- R252 TIER+0x1030 + 0x40*i bits 63:0, RO, reset 0: As T1QUOTA -/
  | tierPT3quota
  /-- R252 TIER+0x1038 + 0x40*i bits 0:0, W1C, reset 0: Sticky imbalance event under R238 -/
  | tierPImbImb
  /-- R252 TIER+0x1038 + 0x40*i bits 1:1, RO, reset 0: Imbalance above 4 in force -/
  | tierPImbImbNow
  /-- R252 TIER+0x1038 + 0x40*i bits 9:2, RO, reset 0: Busiest channel at the last event -/
  | tierPImbHotch
  /-- R252 TIER+0x1038 + 0x40*i bits 31:16, RO, reset 0: Last imbalance ratio, in units of 1/16 -/
  | tierPImbRatio
  /-- R252 TIER+0x1038 + 0x40*i bits 63:32, RO, reset 0: Imbalance events since the partition was formed -/
  | tierPImbEvents
  /-- R284 STRM+0x0 bits 2:0, RO, reset 4: Stream engines -/
  | strmCapEngines
  /-- R284 STRM+0x0 bits 15:8, RO, reset 128: Contexts per engine under R254 -/
  | strmCapCtx
  /-- R284 STRM+0x4 bits 15:0, RW, reset 1,000: Drain time of R280, in µs; 0 aborts at once -/
  | strmDrainTo
  /-- R284 STRM+0x100 + 0x40*i bits 7:0, RO, reset 0: Contexts running -/
  | strmEStatusActive
  /-- R284 STRM+0x100 + 0x40*i bits 8:8, RO, reset 0: A drain under R280 is in force -/
  | strmEStatusDrain
  /-- R284 STRM+0x108 + 0x40*i bits 63:0, RO, reset 0: Bytes delivered -/
  | strmEBytes
  /-- R284 STRM+0x110 + 0x40*i bits 63:0, RO, reset 0: Reads merged under R268 -/
  | strmEMerged
  /-- R284 STRM+0x118 + 0x40*i bits 63:0, RO, reset 0: Translation faults served -/
  | strmEFaults
  /-- R284 STRM+0x1000 + 0x80*i bits 0:0, RO, reset 0: SHADOW_ALLOW sampled at the last release -/
  | strmPModeSa
  /-- R284 STRM+0x1000 + 0x80*i bits 1:1, RO, reset 0: 0 training; 1 serving -/
  | strmPModeClass
  /-- R284 STRM+0x1000 + 0x80*i bits 2:2, RO, reset 0: Replay in force under R276 -/
  | strmPModeReplay
  /-- R284 STRM+0x1000 + 0x80*i bits 15:8, RO, reset 0: Contexts held, all engines -/
  | strmPModeCtx
  /-- R284 STRM+0x1004 + 0x80*i bits 7:0, WO, reset 0: Writing BAR arrives at that barrier under R273; bits [31:8] reserved -/
  | strmPArrive
  /-- R284 STRM+0x1008 + 0x80*i bits 7:0, RW, reset 0: Barrier shown at +0x0C and +0x10; bits [31:8] reserved. The barriers shown are those of the active job. When no job is active, they are those of the job last active, as that job left them. Before the first job since the partition's formation, EXP, COUNT and PHASE read 0 -/
  | strmPBarsel
  /-- R284 STRM+0x100c + 0x80*i bits 15:0, RO, reset 0: EXP of the selected barrier -/
  | strmPBarExp
  /-- R284 STRM+0x100c + 0x80*i bits 31:16, RO, reset 0: COUNT of the selected barrier -/
  | strmPBarCount
  /-- R284 STRM+0x1010 + 0x80*i bits 31:0, RO, reset 0: PHASE of the selected barrier -/
  | strmPPhase
  /-- R284 STRM+0x1014 + 0x80*i bits 7:0, RO, reset 0: Skein-memory deckle base, in units of 256 KiB, that is 128 − DSM (R395); 0 when SSIZE is 0 -/
  | strmPWinSbase
  /-- R284 STRM+0x1014 + 0x80*i bits 15:8, RO, reset 0: Skein-memory deckle size, in units of 256 KiB; 0 for none -/
  | strmPWinSsize
  /-- R284 STRM+0x1014 + 0x80*i bits 31:16, RW, reset 0: GRACE of R276, in µs -/
  | strmPWinGrace
  /-- R284 STRM+0x1018 + 0x80*i bits 63:0, RO, reset 0: Slices decided -/
  | strmPSlices
  /-- R284 STRM+0x1020 + 0x80*i bits 63:0, RO, reset 0: Late slices under R272 -/
  | strmPLate
  /-- R284 STRM+0x1028 + 0x80*i bits 63:0, RO, reset 0: SHADOW decisions -/
  | strmPShadow
  /-- R284 STRM+0x1030 + 0x80*i bits 63:0, RO, reset 0: Shadow-unavailable stalls -/
  | strmPUnavail
  /-- R284 STRM+0x1038 + 0x80*i bits 63:0, RO, reset 0: FULL decisions under rule 7 -/
  | strmPStalled
  /-- R284 STRM+0x1040 + 0x80*i bits 63:0, RO, reset 0: Stall time, in ns -/
  | strmPStallNs
  /-- R284 STRM+0x1048 + 0x80*i bits 63:0, RO, reset 0: Marked steps -/
  | strmPShadowSteps
  /-- R284 STRM+0x1050 + 0x80*i bits 63:0, RO, reset 0: Bytes delivered for the partition -/
  | strmPBytes
  /-- R284 STRM+0x1058 + 0x80*i bits 63:0, RO, reset 0: Reads merged for the partition -/
  | strmPMerged
  /-- R284 STRM+0x1060 + 0x80*i bits 63:0, RO, reset 0: Descriptors ended with POWER_ABORT -/
  | strmPAborts
  /-- R308 FTL+0x0 bits 31:0, RO, reset 2,929,687,500: User blocks of 4 KiB under R286 -/
  | ftlCapUserblk
  /-- R308 FTL+0x0 bits 47:32, RO, reset 16,000: Raw capacity, in GB -/
  | ftlCapRawgb
  /-- R308 FTL+0x8 bits 2:0, RO, reset 0: 0 INIT; 1 READY; 2 DEGRADED; 3 READONLY; 4 FAILED -/
  | ftlStatusState
  /-- R308 FTL+0x8 bits 3:3, RO, reset 0: The last start found no completed commit (R304) -/
  | ftlStatusDirtystart
  /-- R308 FTL+0x8 bits 4:4, RO, reset 0: Journal entries were lost at the last start -/
  | ftlStatusJlost
  /-- R308 FTL+0x8 bits 5:5, RO, reset 0: Rebuild under R298 in progress -/
  | ftlStatusRebuild
  /-- R308 FTL+0x8 bits 15:8, RO, reset 0: Percent of rated cycles, saturating at 255 -/
  | ftlStatusLifeUsed
  /-- R308 FTL+0xc bits 15:0, RO, reset 0: Bit c set: channel c lost under R298 -/
  | ftlChstatus
  /-- R308 FTL+0x10 bits 15:0, RO, reset 0: Remaining spare blocks, per mille of original, whole store -/
  | ftlSpareSparePm
  /-- R308 FTL+0x10 bits 31:16, RO, reset 0: As SPARE_PM, for the lowest channel -/
  | ftlSpareMinChPm
  /-- R308 FTL+0x14 bits 4:0, RW, reset 5: Background share under R297, in percent; 0 is taken as 1 -/
  | ftlBglimit
  /-- R308 FTL+0x18 bits 7:0, RO, reset 0: Hottest package, °C -/
  | ftlTemp
  /-- R308 FTL+0x18 bits 11:8, RO, reset 0: Hottest package number -/
  | ftlTempPkg
  /-- R308 FTL+0x18 bits 12:12, RO, reset 0: A package is at 80 °C or above -/
  | ftlTempThrot
  /-- R308 FTL+0x18 bits 13:13, W1C, reset 0: Sticky: THROT has been set -/
  | ftlTempWashot
  /-- R308 FTL+0x80 bits 63:0, RO, reset 0: Bytes delivered to readers -/
  | ftlReadBytes
  /-- R308 FTL+0x88 bits 63:0, RO, reset 0: Bytes of completed staging writes -/
  | ftlStageBytes
  /-- R308 FTL+0x90 bits 63:0, RO, reset 0: Bytes programmed to NAND, parity and relocation included -/
  | ftlProgBytes
  /-- R308 FTL+0x98 bits 63:0, RO, reset 0: Block erases -/
  | ftlErases
  /-- R308 FTL+0xa0 bits 63:0, RO, reset 0: Read-disturb relocations -/
  | ftlRdReloc
  /-- R308 FTL+0xa8 bits 63:0, RO, reset 0: Retention relocations -/
  | ftlRetReloc
  /-- R308 FTL+0xb0 bits 63:0, RO, reset 0: Urgent refreshes under R297 -/
  | ftlUrgent
  /-- R308 FTL+0xb8 bits 63:0, RO, reset 0: Blocks recovered by soft decode -/
  | ftlSoft
  /-- R308 FTL+0xc0 bits 63:0, RO, reset 0: Blocks reconstructed from parity -/
  | ftlParrec
  /-- R308 FTL+0xc8 bits 63:0, RO, reset 0: Entries in the lost-block log -/
  | ftlLost
  /-- R308 FTL+0xd0 bits 63:0, RO, reset 0: Blocks retired as grown bad -/
  | ftlGrownBad
  /-- R308 FTL+0xd8 bits 63:0, RO, reset 0: Power-loss commits completed -/
  | ftlCommits
  /-- R308 FTL+0x100 + 0x8*i bits 15:0, RO, reset 0: Average erase count of the channel -/
  | ftlChAvgPe
  /-- R308 FTL+0x100 + 0x8*i bits 31:16, RO, reset 0: Highest erase count of the channel -/
  | ftlChMaxPe
  /-- R308 FTL+0x100 + 0x8*i bits 47:32, RO, reset 0: Retired blocks, factory and grown -/
  | ftlChBad
  /-- R308 FTL+0x100 + 0x8*i bits 48:48, RO, reset 0: Channel lost under R298 -/
  | ftlChLost
  /-- R338 VID+0x0 bits 4:0, RO, reset 24: Video cores -/
  | vidCapCores
  /-- R338 VID+0x0 bits 15:8, RO, reset 64: Sessions per partition -/
  | vidCapSpp
  /-- R338 VID+0x0 bits 31:16, RO, reset 1,024: Sessions per module -/
  | vidCapSess
  /-- R338 VID+0x4 bits 15:0, RW, reset 1,000: Drain time of R336, in µs; 0 aborts at once -/
  | vidDrainTo
  /-- R338 VID+0x8 bits 23:0, RW, reset 0xFF_FFFF: Bit k clear: core k takes no new frame; its running frame ends normally -/
  | vidCoreEn
  /-- R338 VID+0x100 + 0x20*i bits 1:0, RO, reset 0: 0 IDLE; 1 DECODE; 2 ENCODE; 3 OFF -/
  | vidCStatusState
  /-- R338 VID+0x100 + 0x20*i bits 7:2, RO, reset 0: Partition of the running frame -/
  | vidCStatusPart
  /-- R338 VID+0x108 + 0x20*i bits 63:0, RO, reset 0: Frames committed -/
  | vidCFrames
  /-- R338 VID+0x110 + 0x20*i bits 63:0, RO, reset 0: Luma samples decoded or encoded -/
  | vidCPixels
  /-- R338 VID+0x118 + 0x20*i bits 63:0, RO, reset 0: Watchdog expiries under R331 -/
  | vidCWdog
  /-- R338 VID+0x1000 + 0x40*i bits 15:0, RO, reset 0: Sessions open -/
  | vidPSessSessions
  /-- R338 VID+0x1000 + 0x40*i bits 31:16, RO, reset 0: Jobs queued, saturating at 0xFFFF -/
  | vidPSessQueued
  /-- R338 VID+0x1008 + 0x40*i bits 63:0, RO, reset 0: Decode frames committed -/
  | vidPDecFrames
  /-- R338 VID+0x1010 + 0x40*i bits 63:0, RO, reset 0: Encode frames committed -/
  | vidPEncFrames
  /-- R338 VID+0x1018 + 0x40*i bits 63:0, RO, reset 0: Frames committed DAMAGED -/
  | vidPDamaged
  /-- R338 VID+0x1020 + 0x40*i bits 63:0, RO, reset 0: Frames committed WATCHDOG -/
  | vidPWatchdog
  /-- R338 VID+0x1028 + 0x40*i bits 63:0, RO, reset 0: Frames committed UNSUPPORTED -/
  | vidPUnsupp
  /-- R338 VID+0x1030 + 0x40*i bits 63:0, RO, reset 0: Bitstream bytes read or written -/
  | vidPBsBytes
  /-- R341 RING+0x0 + 0x40*i bits 31:0, WO, reset 0: Index one past the last published record, under R342 -/
  | ringDb
  /-- R341 RING+0x4 + 0x40*i bits 2:0, WO, reset 0: 1 ENABLE; 2 DISABLE; 3 FLUSH; 4 REARM; 5 CLRERR; other codes are ignored -/
  | ringCtl
  /-- R341 RING+0x8 + 0x40*i bits 31:0, RO, reset 0: Index of the next record to fetch; every slot before it is free under R344 -/
  | ringHead
  /-- R341 RING+0xc + 0x40*i bits 2:0, RO, reset 0: Under R339 -/
  | ringState
  /-- R341 RING+0xc + 0x40*i bits 3:3, RO, reset 0: Sticky: a record of the ring failed under R352 -/
  | ringStateErr
  /-- R341 RING+0xc + 0x40*i bits 4:4, RO, reset 0: A WAIT record is holding the ring -/
  | ringStateWaiting
  /-- R341 RING+0xc + 0x40*i bits 15:8, RO, reset 0: Ring generation under R370 -/
  | ringStateGen
  /-- R341 RING+0xc + 0x40*i bits 22:16, RO, reset 0: Records in flight, fetched and not yet completed, started or not, 0 to 64 (R343) -/
  | ringStateInflight
  /-- R341 RING+0x10 + 0x40*i bits 47:12, RW, reset 0: Ring base, 4 KiB-aligned; writes are ignored unless STATE is DISABLED -/
  | ringBase
  /-- R341 RING+0x18 + 0x40*i bits 4:0, RW, reset 4: 4 to 16; other values are taken as 4. Writes are ignored unless STATE is DISABLED -/
  | ringCfgLog2n
  /-- R341 RING+0x18 + 0x40*i bits 7:5, RW, reset 0: Priority level 0 to 7, with the effect of a change given in Partitions, scheduling and context switches -/
  | ringCfgPrio
  /-- R341 RING+0x18 + 0x40*i bits 8:8, RW, reset 0: 1: records with IRQ raise MSI-X vector r of the VF -/
  | ringCfgIrqen
  /-- R341 RING+0x1c + 0x40*i bits 31:0, RW, reset 1,000,000: Watchdog time under R366, in µs; values below 1,000 are taken as 1,000 -/
  | ringWdog
  /-- R341 RING+0x20 + 0x40*i bits 31:0, RW, reset 0: Index at which ENABLE and REARM restart the ring -/
  | ringStart
  /-- R341 RING+0x28 + 0x40*i bits 63:0, RO, reset 0: Doorbells ignored while DISABLED or GUILTY -/
  | ringDbign
  /-- R341 RING+0x30 + 0x40*i bits 63:0, RO, reset 0: Records completed -/
  | ringRecs
  /-- R341 RING+0x38 + 0x40*i bits 63:0, RO, reset 0: Late completions discarded under R370 -/
  | ringStale
  /-- R354 RING+0x10000 + 0x8*i bits 47:0, RO, reset 0: VALUE of the last FENCE completed -/
  | ringFenceValue
  /-- R354 RING+0x10000 + 0x8*i bits 63:56, RO, reset 0: Ring generation, under R370 -/
  | ringFenceGen
  /-- R355 RING+0x40000 + 0x10*i bits 55:0, RW, reset 0: Slot value -/
  | ringSlotValue
  /-- R355 RING+0x40000 + 0x10*i bits 63:56, RW, reset 0: Slot generation. Only a host write changes it -/
  | ringSlotGen
  /-- R355 RING+0x40008 + 0x10*i bits 11:0, RW, reset 0: Device number allowed to write the slot through SIGNAL_PEER -/
  | ringSlotaclSrc
  /-- R355 RING+0x40008 + 0x10*i bits 12:12, RW, reset 0: 1: any device may write it -/
  | ringSlotaclAny
  /-- R355 RING+0x40008 + 0x10*i bits 13:13, RW, reset 0: 1: peer writes are accepted -/
  | ringSlotaclEn
  /-- R355 RING+0x4000c + 0x10*i bits 31:0, RO, reset 0: Writes discarded for their generation or their source, saturating -/
  | ringSlotstale
  /-- R371 RING+0x30000 bits 0:0, RO, reset 0: The partition is formed -/
  | ringPstatusFormed
  /-- R371 RING+0x30000 bits 1:1, RO, reset 0: A job is running -/
  | ringPstatusJob
  /-- R371 RING+0x30000 bits 2:2, RO, reset 0: OR of SNFLUSH over the partition's matrix and carding cores (R60, R196) -/
  | ringPstatusSnflush
  /-- R371 RING+0x30000 bits 3:3, RO, reset 0: OR of ISAT over its matrix cores (R52) -/
  | ringPstatusIsat
  /-- R371 RING+0x30000 bits 4:4, RO, reset 0: OR of STOVF over its carding cores (R199) -/
  | ringPstatusStovf
  /-- R371 RING+0x30000 bits 5:5, RO, reset 0: Sticky, under R350; clears at job start -/
  | ringPstatusCpllost
  /-- R371 RING+0x30000 bits 23:8, RO, reset 0: Bit 8 + r set: ring r is GUILTY -/
  | ringPstatusGuilty
  /-- R371 RING+0x30008 bits 63:0, RO, reset 0: Calender-codec bypasses (R169) -/
  | ringBypass
  /-- R371 RING+0x30010 bits 63:0, RO, reset 0: Stale completions, all rings -/
  | ringPstale
  /-- R371 RING+0x30020 bits 3:0, RO, reset 0: Ring of the last guilt -/
  | ringGuilty0Gring
  /-- R371 RING+0x30020 bits 7:4, RO, reset 0: Cause under R367 -/
  | ringGuilty0Gcause
  /-- R371 RING+0x30020 bits 15:8, RO, reset 0: New GEN -/
  | ringGuilty0Ggen
  /-- R371 RING+0x30020 bits 63:32, RO, reset 0: Index of the record named in R368 step 4; for causes 5 and 6, which name no record, HEAD at the marking -/
  | ringGuilty0Gindex
  /-- R371 RING+0x30028 bits 15:0, RO, reset 0: Node of the faulting task, when one exists -/
  | ringGuilty1Gnode
  /-- R371 RING+0x30028 bits 39:16, RO, reset 0: Task index -/
  | ringGuilty1Gtask
  /-- R371 RING+0x30028 bits 43:40, RO, reset 0: Fault code of R98 or R205 -/
  | ringGuilty1Gcode
  /-- R371 RING+0x30028 bits 44:44, RO, reset 0: 0 matrix; 1 carding -/
  | ringGuilty1Gkind
  /-- R371 RING+0x30030 bits 63:0, RO, reset 0: ACLK cycles since the reset of IOD-N at the marking -/
  | ringGtime
  /-- R373 MBX+0x0 bits 0:0, RO, reset 0: The mill serves the mailbox -/
  | mbxStatusReady
  /-- R373 MBX+0x0 bits 1:1, RO, reset 0: Mill firmware is restarting; doorbells are held under R377 -/
  | mbxStatusRestarting
  /-- R373 MBX+0x0 bits 15:8, RO, reset 0: Mailbox generation -/
  | mbxStatusGen
  /-- R373 MBX+0x0 bits 20:16, RO, reset 0: Requests accepted and not yet answered, 0 to 16 -/
  | mbxStatusInflight
  /-- R373 MBX+0x4 bits 3:0, WO, reset 0: Submit the request in slot SLOT, under R374 -/
  | mbxReqdb
  /-- R373 MBX+0x8 bits 31:0, RO, reset 0: Responses written; response n lies in response slot n mod 16 -/
  | mbxRsptail
  /-- R373 MBX+0xc bits 31:0, RW, reset 0: Responses the host has consumed -/
  | mbxRspack
  /-- R373 MBX+0x10 bits 31:0, RO, reset 0: Events written; event n lies in event slot n mod 16 -/
  | mbxEvtail
  /-- R373 MBX+0x14 bits 31:0, RW, reset 0: Events the host has consumed -/
  | mbxEvack
  /-- R373 MBX+0x18 bits 0:0, RW, reset 0: Raise the response vector at each response -/
  | mbxCtlIrqrsp
  /-- R373 MBX+0x18 bits 1:1, RW, reset 0: Raise the event vector at each event -/
  | mbxCtlIrqevt
  /-- R373 MBX+0x18 bits 2:2, WO, reset 0: Raise GEN under R378 -/
  | mbxCtlReset
  /-- R373 MBX+0x20 bits 63:0, RO, reset 0: Responses discarded under R378 -/
  | mbxStale
  /-- R373 MBX+0x28 bits 63:0, RO, reset 0: Doorbells ignored under R374 -/
  | mbxDbign
  /-- R373 MBX+0x30 bits 63:0, RO, reset 0: Events dropped under R380 -/
  | mbxEvdrop
  /-- R415 RING+0x50000 bits 23:0, RW, reset 1,000: Ageing interval of R412, in µs; 0 disables ageing -/
  | ringSched
  /-- R415 RING+0x50004 bits 23:0, RW, reset 200: Least time of R406 that an active job holds the cores before an equal-priority switch, in µs -/
  | ringSwmin
  /-- R415 RING+0x50008 bits 3:0, RO, reset 0: Owning ring of the active job -/
  | ringActiveRing
  /-- R415 RING+0x50008 bits 4:4, RO, reset 0: 1: a job is active -/
  | ringActiveValid
  /-- R415 RING+0x50008 bits 5:5, RO, reset 0: A switch under R407 is in progress -/
  | ringActiveSwitching
  /-- R415 RING+0x50008 bits 31:16, RO, reset 0: Bit 16 + r set: ring r owns an open job -/
  | ringActiveResident
  /-- R415 RING+0x50010 bits 2:0, RO, reset 0: Effective priority of ring r (R412) -/
  | ringEprioE
  /-- R415 RING+0x50010 bits 3:3, RO, reset 0: Ring r waits for the partition (R412) -/
  | ringEprioW
  /-- R415 RING+0x50020 bits 63:0, RO, reset 0: Switches completed -/
  | ringSwitches
  /-- R415 RING+0x50028 bits 63:0, RO, reset 0: Total switch time from step 1 to step 5 of R407, in ns -/
  | ringSwNs
  /-- R415 RING+0x50030 bits 63:0, RO, reset 0: Longest such switch, in ns -/
  | ringSwmaxNs
  /-- R415 RING+0x50038 bits 63:0, RO, reset 0: Bytes saved and restored -/
  | ringSwBytes
  /-- R415 RING+0x50100 + 0x10*i bits 10:0, RW, reset 0: Core memory per matrix core, in 4 KiB; values above 1,024 are taken as 1,024 -/
  | ringLiveCm
  /-- R415 RING+0x50100 + 0x10*i bits 22:16, RW, reset 0: Local memory per carding core, in 4 KiB; values above 64 are taken as 64 -/
  | ringLiveLm
  /-- R415 RING+0x50100 + 0x10*i bits 45:32, RW, reset 0: Skein memory per skein, in 4 KiB; values above 8,192 are taken as 8,192 -/
  | ringLiveSm
  /-- R415 RING+0x50108 + 0x10*i bits 39:0, RO, reset 0: Save area of ring r's job under R403, in bytes; 0 with no open job or in a training-class partition -/
  | ringSave
  /-- R452 FLK+0x0 bits 3:0, RO, reset 8: Ports -/
  | flkCapPorts
  /-- R452 FLK+0x0 bits 7:4, RO, reset 4: Virtual channels -/
  | flkCapVcs
  /-- R452 FLK+0x0 bits 20:8, RO, reset 4,096: Devices per fabric -/
  | flkCapMaxdev
  /-- R452 FLK+0x4 bits 11:0, RO, reset 0: Device number (R435) -/
  | flkIdDevnum
  /-- R452 FLK+0x4 bits 12:12, RO, reset 0: 1: DEVNUM set since the cold start -/
  | flkIdSet
  /-- R452 FLK+0x4 bits 23:16, RO, reset F: Current TGEN (R432); loaded from non-volatile storage at start-up -/
  | flkIdTgen
  /-- R452 FLK+0x8 bits 7:0, RW, reset 32: Initial HOPS; 0 is taken as 1 -/
  | flkRoutingHopmax
  /-- R452 FLK+0x8 bits 11:8, RW, reset 3: Resends under R433 -/
  | flkRoutingE2eRetry
  /-- R452 FLK+0xc bits 15:0, RW, reset 1,000: End-to-end timeout, µs; 0 is taken as 1 -/
  | flkE2eTo
  /-- R452 FLK+0x10 bits 15:0, RW, reset 100: Credit timeout, µs -/
  | flkCreditToUs
  /-- R452 FLK+0x10 bits 31:16, RW, reset 10: Credit dead time, ms; 0 is taken as 1 -/
  | flkCreditToDeadMs
  /-- R452 FLK+0x14 bits 15:0, RW, reset 100: Per-source limit of R444, GB/s; 0 disables -/
  | flkRateGbps
  /-- R452 FLK+0x14 bits 31:16, RW, reset 100: STOP duration, µs -/
  | flkRateStopUs
  /-- R452 FLK+0x18 bits 15:0, RW, reset 100: Collective timeout, ms; 0 is taken as 1 -/
  | flkCollTo
  /-- R452 FLK+0x1c bits 15:0, RW, reset 64: Malformed frames per second that quarantine a port; 0 disables -/
  | flkMalThresh
  /-- R452 FLK+0x80 bits 63:0, RO, reset 0: Discarded under R432 -/
  | flkStale
  /-- R452 FLK+0x88 bits 63:0, RO, reset 0: Duplicates under R432 -/
  | flkDup
  /-- R452 FLK+0x90 bits 63:0, RO, reset 0: Discarded under R437 row 1 -/
  | flkFiltered
  /-- R452 FLK+0x98 bits 63:0, RO, reset 0: Discarded under R437 row 3 -/
  | flkHopdrop
  /-- R452 FLK+0xa0 bits 63:0, RO, reset 0: Under R437 row 6 -/
  | flkNoroute
  /-- R452 FLK+0xa8 bits 63:0, RO, reset 0: Under R444 -/
  | flkRatedrop
  /-- R452 FLK+0xb0 bits 63:0, RO, reset 0: Requests ended UNREACHABLE -/
  | flkUnreach
  /-- R452 FLK+0x100 + 0x40*i bits 2:0, RO, reset 0: Under R418 -/
  | flkPortState
  /-- R452 FLK+0x100 + 0x40*i bits 3:3, RO, reset 0: Link encrypted -/
  | flkPortEnc
  /-- R452 FLK+0x100 + 0x40*i bits 4:4, RO, reset 0: ENCRYPT set by FAB_PORT -/
  | flkPortEncreq
  /-- R452 FLK+0x100 + 0x40*i bits 11:8, RO, reset 0: Under R418 -/
  | flkPortCause
  /-- R452 FLK+0x100 + 0x40*i bits 27:12, RO, reset 0xFFFF: Partner's device number from HELLO -/
  | flkPortPartner
  /-- R452 FLK+0x108 + 0x40*i bits 63:0, RO, reset 0: Payload bytes sent -/
  | flkPTxbytes
  /-- R452 FLK+0x110 + 0x40*i bits 63:0, RO, reset 0: Payload bytes received -/
  | flkPRxbytes
  /-- R452 FLK+0x118 + 0x40*i bits 63:0, RO, reset 0: Codewords corrected -/
  | flkPFecCorr
  /-- R452 FLK+0x120 + 0x40*i bits 63:0, RO, reset 0: Codewords uncorrectable -/
  | flkPFecUncorr
  /-- R452 FLK+0x128 + 0x40*i bits 63:0, RO, reset 0: Replays under R428 -/
  | flkPRetries
  /-- R452 FLK+0x130 + 0x40*i bits 63:0, RO, reset 0: Under R423 -/
  | flkPMalformed
  /-- R452 FLK+0x138 + 0x40*i bits 31:0, RO, reset 0: Under R450 -/
  | flkPErrAuthfail
  /-- R452 FLK+0x138 + 0x40*i bits 63:32, RO, reset 0: Credit timeouts under R429 -/
  | flkPErrCredto
  /-- R452 FLK+0x800 + 0x4*i bits 31:0, RO, reset 0: Bit b set: device 32i + b is quarantined (R447) -/
  | flkQuar
  /-- R452 FLK+0x2000 + 0x40*i bits 63:0, WO, reset 0: FLK_P_COLL: collective descriptor address under R439; bits [5:0] and [63:48] must be 0 -/
  | flkQColl
  /-- R452 FLK+0x2008 + 0x40*i bits 4:0, RO, reset 0: Collectives queued or running -/
  | flkQPend
  /-- R452 FLK+0x2010 + 0x40*i bits 63:0, RO, reset 0: Payload bytes originated for the partition -/
  | flkQTxbytes
  /-- R452 FLK+0x2018 + 0x40*i bits 63:0, RO, reset 0: Payload bytes applied to the partition -/
  | flkQRxbytes
  /-- R452 FLK+0x2020 + 0x40*i bits 63:0, RO, reset 0: Requests to the partition answered REFUSED -/
  | flkQRefused
  /-- R452 FLK+0x2028 + 0x40*i bits 63:0, RO, reset 0: Collectives ended DONE -/
  | flkQColls
  /-- R453 RING+0x60000 + 0x20*i bits 47:16, RW, reset 0: Window base, 64 KiB-aligned, a partition virtual address -/
  | ringImpBase
  /-- R453 RING+0x60008 + 0x20*i bits 47:16, RW, reset 0: Window size in units of 64 KiB; 0 for none; other bits reserved -/
  | ringImpSize
  /-- R453 RING+0x60010 + 0x20*i bits 11:0, RW, reset 0: Device allowed -/
  | ringImpCtlSrc
  /-- R453 RING+0x60010 + 0x20*i bits 17:12, RW, reset 0: Partition allowed -/
  | ringImpCtlSpart
  /-- R453 RING+0x60010 + 0x20*i bits 18:18, RW, reset 0: Any device -/
  | ringImpCtlAnydev
  /-- R453 RING+0x60010 + 0x20*i bits 19:19, RW, reset 0: Any partition -/
  | ringImpCtlAnypart
  /-- R453 RING+0x60010 + 0x20*i bits 20:20, RW, reset 0: Window enabled -/
  | ringImpCtlEn
  /-- R453 RING+0x60018 + 0x20*i bits 63:0, RO, reset 0: Writes applied through the window -/
  | ringImpAccepted
  /-- R511 PWR+0x0 bits 2:0, RO, reset 0: Power state in force -/
  | pwrState
  /-- R511 PWR+0x0 bits 5:3, RO, reset 0: Target of the PWR_SET being run; equal to STATE when none runs -/
  | pwrStateTarget
  /-- R511 PWR+0x0 bits 6:6, RO, reset 0: A prepare, commit or wake is running -/
  | pwrStateBusy
  /-- R511 PWR+0x0 bits 10:8, RO, reset 0: Shutdown stage, 0 when none -/
  | pwrStateStage
  /-- R511 PWR+0x4 bits 2:0, RO, reset 0: 0 COLD; 1 PWR_SET; 2 PF0 mailbox; 3 partition mailbox; 4 sideband; 5 RESET -/
  | pwrWakeSourceSrc
  /-- R511 PWR+0x4 bits 5:3, RO, reset 0: State left -/
  | pwrWakeSourceFrom
  /-- R511 PWR+0x8 bits 7:0, RO, reset 0: Code of R490 -/
  | pwrRefuseBlock
  /-- R511 PWR+0x8 bits 10:8, RO, reset 0: Target refused -/
  | pwrRefuseTarget
  /-- R511 PWR+0x8 bits 19:16, RO, reset 0: Under R490 -/
  | pwrRefuseReason
  /-- R511 PWR+0xc bits 15:0, RW, reset 10: ms; 0 refuses at once anything still running -/
  | pwrDrainTo
  /-- R511 PWR+0x10 bits 10:0, RW, reset 1,500: MHz; rounded down to 25 MHz and limited to 600–1,800 -/
  | pwrMclkMax
  /-- R511 PWR+0x14 bits 10:0, RW, reset 600: MHz; as MCLK_MAX -/
  | pwrBrakeMclk
  /-- R511 PWR+0x18 bits 11:0, RO, reset 2,000: W, from PWR_CAP -/
  | pwrCap
  /-- R511 PWR+0x1c bits 5:0, RO, reset 0: Causes in force, under R502 -/
  | pwrThrotNow
  /-- R511 PWR+0x1c bits 13:8, W1C, reset 0: Sticky; hardware sets win under R11 -/
  | pwrThrotSeen
  /-- R511 PWR+0x20 + 0x4*i bits 10:0, RO, reset 0: At 0x0020 + 4q: MCLK now; 0 when stopped; bits [31:11] reserved -/
  | pwrMclk
  /-- R511 PWR+0x30 bits 15:0, RO, reset 0: At 0x0030: input power, W -/
  | pwrInputW
  /-- R511 PWR+0x30 bits 31:16, RO, reset 0: At 0x0030: input voltage, 10 mV -/
  | pwrInputV
  /-- R511 PWR+0x80 bits 63:0, RO, reset 0: Supply losses aborted before stage 2 -/
  | pwrDips
  /-- R511 PWR+0x88 bits 63:0, RO, reset 0: Sequences past stage 2 -/
  | pwrLosses
  /-- R511 PWR+0x90 bits 63:0, RO, reset 0: Entries refused under R492 -/
  | pwrRefusals
  /-- R511 PWR+0x98 bits 63:0, RO, reset 0: Host accesses refused under R489 -/
  | pwrBlocked
  /-- R511 PWR+0xa0 bits 63:0, RO, reset 0: µs with any throttle cause -/
  | pwrThrotUs
  /-- R511 PWR+0xa8 bits 63:0, RO, reset 0: Thermal trips -/
  | pwrTrips
  /-- R511 PWR+0x800 + 0x8*i bits 63:0, RO, reset Boot ROM entry i: Shutdown table at entries 0–127, start table at 128–255, in the format of R508 -/
  | pwrSeq
  /-- R512 GLB+0x0 bits 15:0, RO, reset 0x0940: Part number -/
  | glbIdPart
  /-- R512 GLB+0x0 bits 23:16, RO, reset F: Silicon revision -/
  | glbIdRev
  /-- R512 GLB+0x4 bits 31:0, RO, reset 0: Under R504 -/
  | glbReadyStatus
  /-- R512 GLB+0x8 bits 2:0, RO, reset 0: Last start: 0 power applied; 1 PERST#; 2 GLB_RESET; 3 after thermal trip; 4 after supply loss -/
  | glbResetCause
  /-- R512 GLB+0xc bits 15:0, WO, reset 0: The write acts only when KEY is 0x5A17 -/
  | glbResetKey
  /-- R512 GLB+0xc bits 16:16, WO, reset 0: 1: module reset under R503 -/
  | glbResetModule
  /-- R512 GLB+0x10 bits 63:0, RO, reset 0: 64 bits: ACLK cycles since the reset of IOD-N -/
  | glbTime
  /-- R536 SEC+0x0 bits 1:0, RO, reset F: Lifecycle in force (R513) -/
  | secLc
  /-- R536 SEC+0x0 bits 3:2, RO, reset F: Pending lifecycle; equal to LC when none is pending -/
  | secLcPending
  /-- R536 SEC+0x0 bits 4:4, RO, reset F: UDS fused -/
  | secLcProvisioned
  /-- R536 SEC+0x4 bits 1:0, RO, reset 0: Requested level: 0 NONE, 1 MILL, 2 FULL; kept across a module reset (R526) -/
  | secDbgReq
  /-- R536 SEC+0x4 bits 3:2, RO, reset 0: Applied level (R533) -/
  | secDbgApplied
  /-- R536 SEC+0x4 bits 5:4, RO, reset F: Highest level the lifecycle grants -/
  | secDbgGrant
  /-- R536 SEC+0x4 bits 6:6, RO, reset 0: DBG_ACCESS selected (R530) -/
  | secDbgJtag
  /-- R536 SEC+0x4 bits 7:7, RW, reset 0: Trace enable (R529); writes are ignored while APPLIED is NONE, and the bit clears when APPLIED falls to NONE -/
  | secDbgTrace
  /-- R536 SEC+0x8 bits 31:0, RO, reset F: Boot ROM revision -/
  | secRomrev
  /-- R536 SEC+0x10 + 0x4*i bits 31:0, RO, reset Drawn at reset: SEC_LC_CHAL word i (R516) -/
  | secChal
  /-- R536 SEC+0x40 bits 3:0, RO, reset Set at start: Image i carries a valid Ardetus signature (R518); bits [31:4] reserved -/
  | secSigok
  /-- R536 SEC+0x44 bits 0:0, RO, reset Set at start: DeviceID key present -/
  | secIdIdkey
  /-- R536 SEC+0x44 bits 1:1, RO, reset Set at start: Alias key and certificate ready -/
  | secIdAlias
  /-- R536 SEC+0x80 bits 63:0, RO, reset 0: AUTH answers under R515 -/
  | secAuthfail
  /-- R536 SEC+0x88 bits 63:0, RO, reset 0: Accesses refused under R528, R530 and R534 -/
  | secDbgdeny
  /-- R536 SEC+0x90 bits 63:0, RO, reset 0: Key-store signatures (R520) -/
  | secSigns
  /-- R536 SEC+0x100 + 0x40*i + 0x4*i bits 31:0, RO, reset Measured at start: Word w of measurement i, in the order of R518 -/
  | secMeas
  /-- R536 SEC+0x200 bits 63:0, RW, reset 0: 64 bits: aperture base DPA (R528); bits [25:0] and [63:52] reserved -/
  | secAper
  /-- R536 SEC+0x210 bits 10:0, WO, reset 0: Carding core for SEC_HALT (R532) -/
  | secHaltCore
  /-- R536 SEC+0x210 bits 13:11, WO, reset 0: Thread -/
  | secHaltThread
  /-- R536 SEC+0x210 bits 14:14, WO, reset 0: 1: halt -/
  | secHalt
  /-- R536 SEC+0x210 bits 15:15, WO, reset 0: 1: resume; with HALT also set, the write does nothing -/
  | secHaltResume
  /-- R536 SEC+0x220 bits 63:0, RO, reset 0: Trace records written (R529) -/
  | secTraceHead
  /-- R545 BIST+0x0 bits 0:0, RO, reset 0: A test is running -/
  | bistStatusRunning
  /-- R545 BIST+0x0 bits 3:1, RO, reset 0: SCOPE of the current or last run -/
  | bistStatusScope
  /-- R545 BIST+0x0 bits 5:4, RO, reset 0: KIND of the current or last run -/
  | bistStatusKind
  /-- R545 BIST+0x0 bits 6:6, RO, reset 0: The last run matched the expected S under R542 -/
  | bistStatusPass
  /-- R545 BIST+0x0 bits 7:7, W1C, reset 0: Sticky: a run was abandoned under R539 -/
  | bistStatusAbandoned
  /-- R545 BIST+0x0 bits 31:16, RO, reset 0: Repairs made by the last run -/
  | bistStatusRepairs
  /-- R545 BIST+0x8 bits 63:0, RO, reset 0: Skeins of the current or last run -/
  | bistMask
  /-- R545 BIST+0x10 bits 63:0, RO, reset 0: Bit k set: skein k failed in the last run -/
  | bistFail
  /-- R545 BIST+0x18 bits 7:0, RO, reset 0: Bit s set: stack s failed in the last run -/
  | bistResSfail
  /-- R545 BIST+0x18 bits 8:8, RO, reset 0: IOD-N failed -/
  | bistResNfail
  /-- R545 BIST+0x18 bits 9:9, RO, reset 0: IOD-S failed -/
  | bistResSdfail
  /-- R545 BIST+0x20 bits 63:0, RO, reset 0: Bits [63:0] of S of the last run -/
  | bistSigLo
  /-- R545 BIST+0x28 bits 63:0, RO, reset 0: Bits [127:64] of S -/
  | bistSigHi
  /-- R545 BIST+0x80 bits 63:0, RO, reset 0: Runs completed -/
  | bistRuns
  /-- R545 BIST+0x88 bits 63:0, RO, reset 0: Units failed -/
  | bistFails
  /-- R545 BIST+0x90 bits 63:0, RO, reset 0: Repairs made -/
  | bistRepairsAll
  /-- R545 BIST+0x100 + 0x10*i bits 63:0, RO, reset 0: Bits [63:0] of S_u of unit u, last tested: u = 0–63 skeins, 64–71 stacks, 72 IOD-N, 73 IOD-S -/
  | bistUsigLo
  /-- R545 BIST+0x108 + 0x10*i bits 63:0, RO, reset 0: Bits [127:64] of S_u -/
  | bistUsigHi
  /-- R545 BIST+0x800 + 0x4*i bits 16:0, RO, reset 0: Bit i set: physical position i of quadrant q failed the start-up self-test -/
  | bistPhysFailpos
  /-- R545 BIST+0x800 + 0x4*i bits 21:17, RO, reset 0: Physical position held as the quadrant's spare (R23) -/
  | bistPhysSpare
  /-- R557 PCI+0x0 bits 2:0, RO, reset 0: 0 down; 1 to 6 for 2.5, 5.0, 8.0, 16.0, 32.0 and 64.0 GT/s -/
  | pciLinkSpeed
  /-- R557 PCI+0x0 bits 7:3, RO, reset 0: Negotiated lanes, 8 or 16 -/
  | pciLinkWidth
  /-- R557 PCI+0x0 bits 8:8, RO, reset 0: Flit mode in force -/
  | pciLinkFlit
  /-- R557 PCI+0x0 bits 9:9, RO, reset 0: Separate reference clock in use (R567) -/
  | pciLinkSris
  /-- R557 PCI+0x0 bits 12:10, RO, reset 0: 0 detect; 1 polling; 2 configuration; 3 L0; 4 L0p; 5 L1; 6 recovery; 7 disabled -/
  | pciLinkLstate
  /-- R557 PCI+0x4 bits 0:0, RO, reset 0: The hold-up store is charged and holds at least 4.0 J (R563) -/
  | pciBoardHoldupOk
  /-- R557 PCI+0x4 bits 1:1, RO, reset 0: Its capacity measured below 4.0 J at the last start -/
  | pciBoardHoldupLow
  /-- R557 PCI+0x4 bits 2:2, RO, reset 0: PWRBRK# asserted -/
  | pciBoardBrake
  /-- R557 PCI+0x4 bits 3:3, RO, reset 0: THERM_ALERT# driven -/
  | pciBoardAlert
  /-- R557 PCI+0x4 bits 4:4, RO, reset 0: The input switch opened under R562 since the last cold start -/
  | pciBoardSwopen
  /-- R557 PCI+0x4 bits 15:8, RO, reset 0: Energy deliverable, measured at the last start, in units of 0.1 J -/
  | pciBoardHoldupE
  /-- R557 PCI+0x8 bits 0:0, RW, reset 0: Enables vector 2 of PF0 (R552) -/
  | pciCtl
  /-- R557 PCI+0x80 bits 63:0, RO, reset 0: Accesses of the wrong size or alignment (R9) -/
  | pciBadsize
  /-- R557 PCI+0x88 bits 63:0, RO, reset 0: Accesses under R551 -/
  | pciUnmapped
  /-- R557 PCI+0x90 bits 63:0, RO, reset 0: Completion timeouts -/
  | pciCto
  /-- R557 PCI+0x98 bits 63:0, RO, reset 0: Unsupported Request or Completer Abort completions received -/
  | pciUrca
  /-- R557 PCI+0xa0 bits 63:0, RO, reset 0: Poisoned completions received -/
  | pciPoison
  /-- R557 PCI+0xa8 bits 63:0, RO, reset 0: Host-memory writes rejected (R555) -/
  | pciWrej
  /-- R557 PCI+0xb0 bits 63:0, RO, reset 0: Page requests ended unserved (R554) -/
  | pciPriFail
  /-- R557 PCI+0xb8 bits 63:0, RO, reset 0: Late page responses discarded -/
  | pciPriLate
  /-- R557 PCI+0xc0 bits 63:0, RO, reset 0: Correctable errors, including flit replays -/
  | pciCorr
  /-- R557 PCI+0xc8 bits 63:0, RO, reset 0: Page requests sent -/
  | pciPriReq
  /-- R557 PCI+0xd0 bits 63:0, RO, reset 0: Invalidations completed -/
  | pciAtsInv
  /-- R557 PCI+0xd8 bits 63:0, RO, reset 0: Function resets of any function -/
  | pciFlr
  deriving DecidableEq, Repr

/-- The number of bits of a field. -/
def Fld.width : Fld → Nat
  | .mcrStatusBusy | .mcrStatusArra | .mcrStatusArrb | .mcrStatusEpi | .mcrStatusXfer => 1
  | .mcrStatusSnflush | .mcrStatusIsat | .mcrModeSubn | .mcrModeOwned | .crdStatusSnflush => 1
  | .crdStatusHobusy | .crdStatusStovf | .crdModeSubn | .crdModeOwned | .sknWhorlCmdOp => 1
  | .sknWhorlStatusSeeded | .sknWhorlStatusSrcfail | .tierBar2En | .tierStackHotref | .tierStackThrot => 1
  | .tierStackWashot | .tierChLive | .tierPHashHmode | .tierPImbImb | .tierPImbImbNow => 1
  | .strmEStatusDrain | .strmPModeSa | .strmPModeClass | .strmPModeReplay | .ftlStatusDirtystart => 1
  | .ftlStatusJlost | .ftlStatusRebuild | .ftlTempThrot | .ftlTempWashot | .ftlChLost => 1
  | .ringStateErr | .ringStateWaiting | .ringCfgIrqen | .ringSlotaclAny | .ringSlotaclEn => 1
  | .ringPstatusFormed | .ringPstatusJob | .ringPstatusSnflush | .ringPstatusIsat | .ringPstatusStovf => 1
  | .ringPstatusCpllost | .ringGuilty1Gkind | .mbxStatusReady | .mbxStatusRestarting | .mbxCtlIrqrsp => 1
  | .mbxCtlIrqevt | .mbxCtlReset | .ringActiveValid | .ringActiveSwitching | .ringEprioW => 1
  | .flkIdSet | .flkPortEnc | .flkPortEncreq | .ringImpCtlAnydev | .ringImpCtlAnypart => 1
  | .ringImpCtlEn | .pwrStateBusy | .glbResetModule | .secLcProvisioned | .secDbgJtag => 1
  | .secDbgTrace | .secIdIdkey | .secIdAlias | .secHalt | .secHaltResume => 1
  | .bistStatusRunning | .bistStatusPass | .bistStatusAbandoned | .bistResNfail | .bistResSdfail => 1
  | .pciLinkFlit | .pciLinkSris | .pciBoardHoldupOk | .pciBoardHoldupLow | .pciBoardBrake => 1
  | .pciBoardAlert | .pciBoardSwopen | .pciCtl => 1
  | .mcrIdQuad | .crdIdQuad | .vidCStatusState | .secLc | .secLcPending => 2
  | .secDbgReq | .secDbgApplied | .secDbgGrant | .bistStatusKind => 2
  | .crdFaultThread | .tierChCause | .strmCapEngines | .ftlStatusState | .ringCtl => 3
  | .ringState | .ringCfgPrio | .ringEprioE | .flkPortState | .pwrState => 3
  | .pwrStateTarget | .pwrStateStage | .pwrWakeSourceSrc | .pwrWakeSourceFrom | .pwrRefuseTarget => 3
  | .glbResetCause | .secHaltThread | .bistStatusScope | .pciLinkSpeed | .pciLinkLstate => 3
  | .mcrFaultCode | .crdFaultCode | .ftlTempPkg | .ringGuilty0Gring | .ringGuilty0Gcause => 4
  | .ringGuilty1Gcode | .mbxReqdb | .ringActiveRing | .flkCapPorts | .flkCapVcs => 4
  | .flkRoutingE2eRetry | .flkPortCause | .pwrRefuseReason | .secSigok => 4
  | .sknWhorlStatusPend | .ftlBglimit | .vidCapCores | .ringCfgLog2n | .mbxStatusInflight => 5
  | .flkQPend | .bistPhysSpare | .pciLinkWidth => 5
  | .mcrIdSkein | .mcrModePart | .crdIdSkein | .crdModePart | .sknWhorlCmdLane => 6
  | .vidCStatusPart | .ringImpCtlSpart | .pwrThrotNow | .pwrThrotSeen => 6
  | .tierCapSysres | .ringStateInflight | .ringLiveLm => 7
  | .mcrIdRev | .mcrDeckleBase | .mcrDeckleSize | .crdIdRev | .crdStatusTbusy => 8
  | .tierStackTemp | .tierPImbHotch | .strmCapCtx | .strmEStatusActive | .strmPModeCtx => 8
  | .strmPArrive | .strmPBarsel | .strmPWinSbase | .strmPWinSsize | .ftlStatusLifeUsed => 8
  | .ftlTemp | .vidCapSpp | .ringStateGen | .ringFenceGen | .ringSlotGen => 8
  | .ringGuilty0Ggen | .mbxStatusGen | .flkIdTgen | .flkRoutingHopmax | .pwrRefuseBlock => 8
  | .glbIdRev | .bistResSfail | .pciBoardHoldupE => 8
  | .mcrIdCore | .tierCapLive | .tierBar2Base => 9
  | .mcrFaultPc | .mcrPc | .crdIdCore | .ringLiveCm | .pwrMclkMax => 11
  | .pwrBrakeMclk | .pwrMclk | .secHaltCore => 11
  | .ringSlotaclSrc | .flkIdDevnum | .ringImpCtlSrc | .pwrCap => 12
  | .flkCapMaxdev => 13
  | .ringLiveSm => 14
  | .mcrFlags | .mcrFlagSet | .mcrFlagClr | .mcrAr | .tierCapT1cap => 16
  | .tierChCe | .tierPHashSeed | .tierPImbRatio | .strmDrainTo | .strmPBarExp => 16
  | .strmPBarCount | .strmPWinGrace | .ftlCapRawgb | .ftlChstatus | .ftlSpareSparePm => 16
  | .ftlSpareMinChPm | .ftlChAvgPe | .ftlChMaxPe | .ftlChBad | .vidCapSess => 16
  | .vidDrainTo | .vidPSessSessions | .vidPSessQueued | .ringPstatusGuilty | .ringGuilty1Gnode => 16
  | .ringActiveResident | .flkE2eTo | .flkCreditToUs | .flkCreditToDeadMs | .flkRateGbps => 16
  | .flkRateStopUs | .flkCollTo | .flkMalThresh | .flkPortPartner | .pwrDrainTo => 16
  | .pwrInputW | .pwrInputV | .glbIdPart | .glbResetKey | .bistStatusRepairs => 16
  | .bistPhysFailpos => 17
  | .mcrLc | .vidCoreEn | .ringGuilty1Gtask | .ringSched | .ringSwmin => 24
  | .mcrStep | .mcrLen | .crdExit | .tierLive | .tierPImbEvents => 32
  | .strmPPhase | .ftlCapUserblk | .ringDb | .ringHead | .ringWdog => 32
  | .ringStart | .ringSlotstale | .ringGuilty0Gindex | .mbxRsptail | .mbxRspack => 32
  | .mbxEvtail | .mbxEvack | .flkPErrAuthfail | .flkPErrCredto | .flkQuar => 32
  | .ringImpBase | .ringImpSize | .glbReadyStatus | .secRomrev | .secChal => 32
  | .secMeas => 32
  | .ringBase => 36
  | .ringSave => 40
  | .crdPc | .ringFenceValue => 48
  | .sknWhorlCmdCount | .ringSlotValue => 56
  | _ => 64

/-- The value of field instance `i` after the reset that covers its block (the Reset column; R13). -/
def Fld.reset : Fld → Nat → Nat
  | .mcrIdCore, i => i
  | .mcrIdSkein, i => i / 8
  | .mcrIdQuad, i => i / 128
  | .mcrIdRev, _ => Config.fuseRev.toNat
  | .crdIdCore, i => i
  | .crdIdSkein, i => i / 32
  | .crdIdQuad, i => i / 512
  | .crdIdRev, _ => Config.fuseRev.toNat
  | .sknWhorlPolyLo, i => (Config.whorlPoly (i % 64)).toNat % 2 ^ 64
  | .sknWhorlPolyHi, i => (Config.whorlPoly (i % 64)).toNat / 2 ^ 64
  | .tierCapLive, _ => 256
  | .tierCapSysres, _ => 4
  | .tierCapT1cap, _ => 768
  | .tierLive, _ => 4294967295
  | .tierChLive, _ => 1
  | .tierPHashHmode, _ => 1
  | .strmCapEngines, _ => 4
  | .strmCapCtx, _ => 128
  | .strmDrainTo, _ => 1000
  | .ftlCapUserblk, _ => 2929687500
  | .ftlCapRawgb, _ => 16000
  | .ftlBglimit, _ => 5
  | .vidCapCores, _ => 24
  | .vidCapSpp, _ => 64
  | .vidCapSess, _ => 1024
  | .vidDrainTo, _ => 1000
  | .vidCoreEn, _ => 16777215
  | .ringCfgLog2n, _ => 4
  | .ringWdog, _ => 1000000
  | .ringSched, _ => 1000
  | .ringSwmin, _ => 200
  | .flkCapPorts, _ => 8
  | .flkCapVcs, _ => 4
  | .flkCapMaxdev, _ => 4096
  | .flkIdTgen, _ => Config.nvEpoch % 256
  | .flkRoutingHopmax, _ => 32
  | .flkRoutingE2eRetry, _ => 3
  | .flkE2eTo, _ => 1000
  | .flkCreditToUs, _ => 100
  | .flkCreditToDeadMs, _ => 10
  | .flkRateGbps, _ => 100
  | .flkRateStopUs, _ => 100
  | .flkCollTo, _ => 100
  | .flkMalThresh, _ => 64
  | .flkPortPartner, _ => 65535
  | .pwrDrainTo, _ => 10
  | .pwrMclkMax, _ => 1500
  | .pwrBrakeMclk, _ => 600
  | .pwrCap, _ => 2000
  | .pwrSeq, 0 => 0x100000005
  | .pwrSeq, 1 => 2000 * 2 ^ 16 + 6
  | .pwrSeq, 2 => 0x200000005
  | .pwrSeq, i => (Config.bootRomSeq i).toNat
  | .glbIdPart, _ => 2368
  | .glbIdRev, _ => Config.fuseRev.toNat
  | .secLc, _ => Config.fuseLifecycle.toNat
  | .secLcPending, _ => Config.fuseLcPending.toNat
  | .secLcProvisioned, _ => Config.fuseProvisioned.toNat
  | .secDbgGrant, _ => Config.fuseDebugGrant.toNat
  | .secRomrev, _ => Config.romRevision.toNat
  | .secChal, i => (Config.resetChallenge i).toNat
  | _, _ => 0

/-- Where a field lies in its register: its lowest bit, its access code and, where one register holds several instances
of a field, which instance. -/
structure FieldAt where
  fld : Fld
  lo : Nat
  acc : Acc
  sub : Nat := 0
  deriving DecidableEq, Repr

/-- A register or an array of registers of a block: offset of the first, strides and counts of up to two index
dimensions, whether it is 64 bits wide, how many instances of its fields one register holds, and its fields. -/
structure RegRow where
  off : Nat
  wide : Bool
  s1 : Nat := 0
  n1 : Nat := 1
  s2 : Nat := 0
  n2 : Nat := 1
  subs : Nat := 1
  fields : List FieldAt
  deriving DecidableEq, Repr

/-- Registers of the GLB block. -/
def glbRows : List RegRow :=
  [
    { off := 0x0, wide := false,
      fields := [⟨.glbIdPart, 0, .ro, 0⟩, ⟨.glbIdRev, 16, .ro, 0⟩] },
    { off := 0x4, wide := false,
      fields := [⟨.glbReadyStatus, 0, .ro, 0⟩] },
    { off := 0x8, wide := false,
      fields := [⟨.glbResetCause, 0, .ro, 0⟩] },
    { off := 0xc, wide := false,
      fields := [⟨.glbResetKey, 0, .wo, 0⟩, ⟨.glbResetModule, 16, .wo, 0⟩] },
    { off := 0x10, wide := true,
      fields := [⟨.glbTime, 0, .ro, 0⟩] } ]

/-- Registers of the PWR block. -/
def pwrRows : List RegRow :=
  [
    { off := 0x0, wide := false,
      fields := [⟨.pwrState, 0, .ro, 0⟩, ⟨.pwrStateTarget, 3, .ro, 0⟩, ⟨.pwrStateBusy, 6, .ro, 0⟩, ⟨.pwrStateStage, 8, .ro, 0⟩] },
    { off := 0x4, wide := false,
      fields := [⟨.pwrWakeSourceSrc, 0, .ro, 0⟩, ⟨.pwrWakeSourceFrom, 3, .ro, 0⟩] },
    { off := 0x8, wide := false,
      fields := [⟨.pwrRefuseBlock, 0, .ro, 0⟩, ⟨.pwrRefuseTarget, 8, .ro, 0⟩, ⟨.pwrRefuseReason, 16, .ro, 0⟩] },
    { off := 0xc, wide := false,
      fields := [⟨.pwrDrainTo, 0, .rw, 0⟩] },
    { off := 0x10, wide := false,
      fields := [⟨.pwrMclkMax, 0, .rw, 0⟩] },
    { off := 0x14, wide := false,
      fields := [⟨.pwrBrakeMclk, 0, .rw, 0⟩] },
    { off := 0x18, wide := false,
      fields := [⟨.pwrCap, 0, .ro, 0⟩] },
    { off := 0x1c, wide := false,
      fields := [⟨.pwrThrotNow, 0, .ro, 0⟩, ⟨.pwrThrotSeen, 8, .w1c, 0⟩] },
    { off := 0x20, wide := false, s1 := 0x4, n1 := 4,
      fields := [⟨.pwrMclk, 0, .ro, 0⟩] },
    { off := 0x30, wide := false,
      fields := [⟨.pwrInputW, 0, .ro, 0⟩, ⟨.pwrInputV, 16, .ro, 0⟩] },
    { off := 0x80, wide := true,
      fields := [⟨.pwrDips, 0, .ro, 0⟩] },
    { off := 0x88, wide := true,
      fields := [⟨.pwrLosses, 0, .ro, 0⟩] },
    { off := 0x90, wide := true,
      fields := [⟨.pwrRefusals, 0, .ro, 0⟩] },
    { off := 0x98, wide := true,
      fields := [⟨.pwrBlocked, 0, .ro, 0⟩] },
    { off := 0xa0, wide := true,
      fields := [⟨.pwrThrotUs, 0, .ro, 0⟩] },
    { off := 0xa8, wide := true,
      fields := [⟨.pwrTrips, 0, .ro, 0⟩] },
    { off := 0x800, wide := true, s1 := 0x8, n1 := 256,
      fields := [⟨.pwrSeq, 0, .ro, 0⟩] } ]

/-- Registers of the SEC block. -/
def secRows : List RegRow :=
  [
    { off := 0x0, wide := false,
      fields := [⟨.secLc, 0, .ro, 0⟩, ⟨.secLcPending, 2, .ro, 0⟩, ⟨.secLcProvisioned, 4, .ro, 0⟩] },
    { off := 0x4, wide := false,
      fields := [⟨.secDbgReq, 0, .ro, 0⟩, ⟨.secDbgApplied, 2, .ro, 0⟩, ⟨.secDbgGrant, 4, .ro, 0⟩, ⟨.secDbgJtag, 6, .ro, 0⟩, ⟨.secDbgTrace, 7, .rw, 0⟩] },
    { off := 0x8, wide := false,
      fields := [⟨.secRomrev, 0, .ro, 0⟩] },
    { off := 0x10, wide := false, s1 := 0x4, n1 := 8,
      fields := [⟨.secChal, 0, .ro, 0⟩] },
    { off := 0x40, wide := false,
      fields := [⟨.secSigok, 0, .ro, 0⟩] },
    { off := 0x44, wide := false,
      fields := [⟨.secIdIdkey, 0, .ro, 0⟩, ⟨.secIdAlias, 1, .ro, 0⟩] },
    { off := 0x80, wide := true,
      fields := [⟨.secAuthfail, 0, .ro, 0⟩] },
    { off := 0x88, wide := true,
      fields := [⟨.secDbgdeny, 0, .ro, 0⟩] },
    { off := 0x90, wide := true,
      fields := [⟨.secSigns, 0, .ro, 0⟩] },
    { off := 0x100, wide := false, s1 := 0x40, n1 := 4, s2 := 0x4, n2 := 12,
      fields := [⟨.secMeas, 0, .ro, 0⟩] },
    { off := 0x200, wide := true,
      fields := [⟨.secAper, 0, .rw, 0⟩] },
    { off := 0x210, wide := false,
      fields := [⟨.secHaltCore, 0, .wo, 0⟩, ⟨.secHaltThread, 11, .wo, 0⟩, ⟨.secHalt, 14, .wo, 0⟩, ⟨.secHaltResume, 15, .wo, 0⟩] },
    { off := 0x220, wide := true,
      fields := [⟨.secTraceHead, 0, .ro, 0⟩] } ]

/-- Registers of the MBX block. -/
def mbxRows : List RegRow :=
  [
    { off := 0x0, wide := false,
      fields := [⟨.mbxStatusReady, 0, .ro, 0⟩, ⟨.mbxStatusRestarting, 1, .ro, 0⟩, ⟨.mbxStatusGen, 8, .ro, 0⟩, ⟨.mbxStatusInflight, 16, .ro, 0⟩] },
    { off := 0x4, wide := false,
      fields := [⟨.mbxReqdb, 0, .wo, 0⟩] },
    { off := 0x8, wide := false,
      fields := [⟨.mbxRsptail, 0, .ro, 0⟩] },
    { off := 0xc, wide := false,
      fields := [⟨.mbxRspack, 0, .rw, 0⟩] },
    { off := 0x10, wide := false,
      fields := [⟨.mbxEvtail, 0, .ro, 0⟩] },
    { off := 0x14, wide := false,
      fields := [⟨.mbxEvack, 0, .rw, 0⟩] },
    { off := 0x18, wide := false,
      fields := [⟨.mbxCtlIrqrsp, 0, .rw, 0⟩, ⟨.mbxCtlIrqevt, 1, .rw, 0⟩, ⟨.mbxCtlReset, 2, .wo, 0⟩] },
    { off := 0x20, wide := true,
      fields := [⟨.mbxStale, 0, .ro, 0⟩] },
    { off := 0x28, wide := true,
      fields := [⟨.mbxDbign, 0, .ro, 0⟩] },
    { off := 0x30, wide := true,
      fields := [⟨.mbxEvdrop, 0, .ro, 0⟩] } ]

/-- Registers of the RING block. -/
def ringRows : List RegRow :=
  [
    { off := 0x0, wide := false, s1 := 0x40, n1 := 16,
      fields := [⟨.ringDb, 0, .wo, 0⟩] },
    { off := 0x4, wide := false, s1 := 0x40, n1 := 16,
      fields := [⟨.ringCtl, 0, .wo, 0⟩] },
    { off := 0x8, wide := false, s1 := 0x40, n1 := 16,
      fields := [⟨.ringHead, 0, .ro, 0⟩] },
    { off := 0xc, wide := false, s1 := 0x40, n1 := 16,
      fields := [⟨.ringState, 0, .ro, 0⟩, ⟨.ringStateErr, 3, .ro, 0⟩, ⟨.ringStateWaiting, 4, .ro, 0⟩, ⟨.ringStateGen, 8, .ro, 0⟩, ⟨.ringStateInflight, 16, .ro, 0⟩] },
    { off := 0x10, wide := true, s1 := 0x40, n1 := 16,
      fields := [⟨.ringBase, 12, .rw, 0⟩] },
    { off := 0x18, wide := false, s1 := 0x40, n1 := 16,
      fields := [⟨.ringCfgLog2n, 0, .rw, 0⟩, ⟨.ringCfgPrio, 5, .rw, 0⟩, ⟨.ringCfgIrqen, 8, .rw, 0⟩] },
    { off := 0x1c, wide := false, s1 := 0x40, n1 := 16,
      fields := [⟨.ringWdog, 0, .rw, 0⟩] },
    { off := 0x20, wide := false, s1 := 0x40, n1 := 16,
      fields := [⟨.ringStart, 0, .rw, 0⟩] },
    { off := 0x28, wide := true, s1 := 0x40, n1 := 16,
      fields := [⟨.ringDbign, 0, .ro, 0⟩] },
    { off := 0x30, wide := true, s1 := 0x40, n1 := 16,
      fields := [⟨.ringRecs, 0, .ro, 0⟩] },
    { off := 0x38, wide := true, s1 := 0x40, n1 := 16,
      fields := [⟨.ringStale, 0, .ro, 0⟩] },
    { off := 0x10000, wide := true, s1 := 0x8, n1 := 16,
      fields := [⟨.ringFenceValue, 0, .ro, 0⟩, ⟨.ringFenceGen, 56, .ro, 0⟩] },
    { off := 0x30000, wide := false,
      fields := [⟨.ringPstatusFormed, 0, .ro, 0⟩, ⟨.ringPstatusJob, 1, .ro, 0⟩, ⟨.ringPstatusSnflush, 2, .ro, 0⟩, ⟨.ringPstatusIsat, 3, .ro, 0⟩, ⟨.ringPstatusStovf, 4, .ro, 0⟩, ⟨.ringPstatusCpllost, 5, .ro, 0⟩, ⟨.ringPstatusGuilty, 8, .ro, 0⟩] },
    { off := 0x30008, wide := true,
      fields := [⟨.ringBypass, 0, .ro, 0⟩] },
    { off := 0x30010, wide := true,
      fields := [⟨.ringPstale, 0, .ro, 0⟩] },
    { off := 0x30020, wide := true,
      fields := [⟨.ringGuilty0Gring, 0, .ro, 0⟩, ⟨.ringGuilty0Gcause, 4, .ro, 0⟩, ⟨.ringGuilty0Ggen, 8, .ro, 0⟩, ⟨.ringGuilty0Gindex, 32, .ro, 0⟩] },
    { off := 0x30028, wide := true,
      fields := [⟨.ringGuilty1Gnode, 0, .ro, 0⟩, ⟨.ringGuilty1Gtask, 16, .ro, 0⟩, ⟨.ringGuilty1Gcode, 40, .ro, 0⟩, ⟨.ringGuilty1Gkind, 44, .ro, 0⟩] },
    { off := 0x30030, wide := true,
      fields := [⟨.ringGtime, 0, .ro, 0⟩] },
    { off := 0x40000, wide := true, s1 := 0x10, n1 := 256,
      fields := [⟨.ringSlotValue, 0, .rw, 0⟩, ⟨.ringSlotGen, 56, .rw, 0⟩] },
    { off := 0x40008, wide := false, s1 := 0x10, n1 := 256,
      fields := [⟨.ringSlotaclSrc, 0, .rw, 0⟩, ⟨.ringSlotaclAny, 12, .rw, 0⟩, ⟨.ringSlotaclEn, 13, .rw, 0⟩] } ]
  ++ [
    { off := 0x4000c, wide := false, s1 := 0x10, n1 := 256,
      fields := [⟨.ringSlotstale, 0, .ro, 0⟩] },
    { off := 0x50000, wide := false,
      fields := [⟨.ringSched, 0, .rw, 0⟩] },
    { off := 0x50004, wide := false,
      fields := [⟨.ringSwmin, 0, .rw, 0⟩] },
    { off := 0x50008, wide := false,
      fields := [⟨.ringActiveRing, 0, .ro, 0⟩, ⟨.ringActiveValid, 4, .ro, 0⟩, ⟨.ringActiveSwitching, 5, .ro, 0⟩, ⟨.ringActiveResident, 16, .ro, 0⟩] },
    { off := 0x50010, wide := true, subs := 16,
      fields := [⟨.ringEprioE, 0, .ro, 0⟩, ⟨.ringEprioW, 3, .ro, 0⟩, ⟨.ringEprioE, 4, .ro, 1⟩, ⟨.ringEprioW, 7, .ro, 1⟩, ⟨.ringEprioE, 8, .ro, 2⟩, ⟨.ringEprioW, 11, .ro, 2⟩, ⟨.ringEprioE, 12, .ro, 3⟩, ⟨.ringEprioW, 15, .ro, 3⟩, ⟨.ringEprioE, 16, .ro, 4⟩, ⟨.ringEprioW, 19, .ro, 4⟩, ⟨.ringEprioE, 20, .ro, 5⟩, ⟨.ringEprioW, 23, .ro, 5⟩, ⟨.ringEprioE, 24, .ro, 6⟩, ⟨.ringEprioW, 27, .ro, 6⟩, ⟨.ringEprioE, 28, .ro, 7⟩, ⟨.ringEprioW, 31, .ro, 7⟩, ⟨.ringEprioE, 32, .ro, 8⟩, ⟨.ringEprioW, 35, .ro, 8⟩, ⟨.ringEprioE, 36, .ro, 9⟩, ⟨.ringEprioW, 39, .ro, 9⟩, ⟨.ringEprioE, 40, .ro, 10⟩, ⟨.ringEprioW, 43, .ro, 10⟩, ⟨.ringEprioE, 44, .ro, 11⟩, ⟨.ringEprioW, 47, .ro, 11⟩, ⟨.ringEprioE, 48, .ro, 12⟩, ⟨.ringEprioW, 51, .ro, 12⟩, ⟨.ringEprioE, 52, .ro, 13⟩, ⟨.ringEprioW, 55, .ro, 13⟩, ⟨.ringEprioE, 56, .ro, 14⟩, ⟨.ringEprioW, 59, .ro, 14⟩, ⟨.ringEprioE, 60, .ro, 15⟩, ⟨.ringEprioW, 63, .ro, 15⟩] },
    { off := 0x50020, wide := true,
      fields := [⟨.ringSwitches, 0, .ro, 0⟩] },
    { off := 0x50028, wide := true,
      fields := [⟨.ringSwNs, 0, .ro, 0⟩] },
    { off := 0x50030, wide := true,
      fields := [⟨.ringSwmaxNs, 0, .ro, 0⟩] },
    { off := 0x50038, wide := true,
      fields := [⟨.ringSwBytes, 0, .ro, 0⟩] },
    { off := 0x50100, wide := true, s1 := 0x10, n1 := 16,
      fields := [⟨.ringLiveCm, 0, .rw, 0⟩, ⟨.ringLiveLm, 16, .rw, 0⟩, ⟨.ringLiveSm, 32, .rw, 0⟩] },
    { off := 0x50108, wide := true, s1 := 0x10, n1 := 16,
      fields := [⟨.ringSave, 0, .ro, 0⟩] },
    { off := 0x60000, wide := true, s1 := 0x20, n1 := 16,
      fields := [⟨.ringImpBase, 16, .rw, 0⟩] },
    { off := 0x60008, wide := true, s1 := 0x20, n1 := 16,
      fields := [⟨.ringImpSize, 16, .rw, 0⟩] },
    { off := 0x60010, wide := true, s1 := 0x20, n1 := 16,
      fields := [⟨.ringImpCtlSrc, 0, .rw, 0⟩, ⟨.ringImpCtlSpart, 12, .rw, 0⟩, ⟨.ringImpCtlAnydev, 18, .rw, 0⟩, ⟨.ringImpCtlAnypart, 19, .rw, 0⟩, ⟨.ringImpCtlEn, 20, .rw, 0⟩] },
    { off := 0x60018, wide := true, s1 := 0x20, n1 := 16,
      fields := [⟨.ringImpAccepted, 0, .ro, 0⟩] } ]

/-- Registers of the SKN block. -/
def sknRows : List RegRow :=
  [
    { off := 0x8000, wide := true,
      fields := [⟨.sknWhorlCmdLane, 0, .wo, 0⟩, ⟨.sknWhorlCmdOp, 6, .wo, 0⟩, ⟨.sknWhorlCmdCount, 8, .wo, 0⟩] },
    { off := 0x8008, wide := false,
      fields := [⟨.sknWhorlStatusPend, 0, .ro, 0⟩, ⟨.sknWhorlStatusSeeded, 5, .ro, 0⟩, ⟨.sknWhorlStatusSrcfail, 6, .ro, 0⟩] },
    { off := 0x8010, wide := true,
      fields := [⟨.sknWhorlWords, 0, .ro, 0⟩] },
    { off := 0x8100, wide := true, s1 := 0x8, n1 := 64,
      fields := [⟨.sknWhorlTick, 0, .ro, 0⟩] },
    { off := 0x8400, wide := true, s1 := 0x10, n1 := 64,
      fields := [⟨.sknWhorlPolyLo, 0, .ro, 0⟩] },
    { off := 0x8408, wide := true, s1 := 0x10, n1 := 64,
      fields := [⟨.sknWhorlPolyHi, 0, .ro, 0⟩] } ]

/-- Registers of the MCR block. -/
def mcrRows : List RegRow :=
  [
    { off := 0x0, wide := false,
      fields := [⟨.mcrIdCore, 0, .ro, 0⟩, ⟨.mcrIdSkein, 9, .ro, 0⟩, ⟨.mcrIdQuad, 15, .ro, 0⟩, ⟨.mcrIdRev, 24, .ro, 0⟩] },
    { off := 0x4, wide := false,
      fields := [⟨.mcrStatusBusy, 0, .ro, 0⟩, ⟨.mcrStatusArra, 1, .ro, 0⟩, ⟨.mcrStatusArrb, 2, .ro, 0⟩, ⟨.mcrStatusEpi, 3, .ro, 0⟩, ⟨.mcrStatusXfer, 4, .ro, 0⟩, ⟨.mcrStatusSnflush, 8, .w1c, 0⟩, ⟨.mcrStatusIsat, 9, .w1c, 0⟩] },
    { off := 0x8, wide := false,
      fields := [⟨.mcrFaultCode, 0, .ro, 0⟩, ⟨.mcrFaultPc, 4, .ro, 0⟩] },
    { off := 0xc, wide := false,
      fields := [⟨.mcrPc, 0, .ro, 0⟩] },
    { off := 0x10, wide := false,
      fields := [⟨.mcrFlags, 0, .rw, 0⟩] },
    { off := 0x14, wide := false,
      fields := [⟨.mcrFlagSet, 0, .wo, 0⟩] },
    { off := 0x18, wide := false,
      fields := [⟨.mcrFlagClr, 0, .wo, 0⟩] },
    { off := 0x1c, wide := false,
      fields := [⟨.mcrStep, 0, .ro, 0⟩] },
    { off := 0x20, wide := false, s1 := 0x4, n1 := 4,
      fields := [⟨.mcrLen, 0, .ro, 0⟩] },
    { off := 0x40, wide := false,
      fields := [⟨.mcrModeSubn, 0, .ro, 0⟩, ⟨.mcrModePart, 1, .ro, 0⟩, ⟨.mcrModeOwned, 7, .ro, 0⟩] },
    { off := 0x48, wide := false,
      fields := [⟨.mcrDeckleBase, 0, .ro, 0⟩, ⟨.mcrDeckleSize, 16, .ro, 0⟩] },
    { off := 0x80, wide := true,
      fields := [⟨.mcrStepsA, 0, .ro, 0⟩] },
    { off := 0x88, wide := true,
      fields := [⟨.mcrStepsB, 0, .ro, 0⟩] },
    { off := 0x90, wide := true,
      fields := [⟨.mcrCycTask, 0, .ro, 0⟩] },
    { off := 0x98, wide := true,
      fields := [⟨.mcrStallHaz, 0, .ro, 0⟩] },
    { off := 0xa0, wide := true,
      fields := [⟨.mcrStallMem, 0, .ro, 0⟩] },
    { off := 0xa8, wide := true,
      fields := [⟨.mcrEccCe, 0, .ro, 0⟩] },
    { off := 0xb0, wide := true,
      fields := [⟨.mcrSkips, 0, .ro, 0⟩] },
    { off := 0x100, wide := false, s1 := 0x4, n1 := 16,
      fields := [⟨.mcrAr, 0, .ro, 0⟩] },
    { off := 0x140, wide := false, s1 := 0x4, n1 := 4,
      fields := [⟨.mcrLc, 0, .ro, 0⟩] } ]

/-- Registers of the CRD block. -/
def crdRows : List RegRow :=
  [
    { off := 0x0, wide := false,
      fields := [⟨.crdIdCore, 0, .ro, 0⟩, ⟨.crdIdSkein, 11, .ro, 0⟩, ⟨.crdIdQuad, 17, .ro, 0⟩, ⟨.crdIdRev, 24, .ro, 0⟩] },
    { off := 0x4, wide := false,
      fields := [⟨.crdStatusTbusy, 0, .ro, 0⟩, ⟨.crdStatusSnflush, 8, .w1c, 0⟩, ⟨.crdStatusHobusy, 9, .ro, 0⟩, ⟨.crdStatusStovf, 10, .w1c, 0⟩] },
    { off := 0x8, wide := false,
      fields := [⟨.crdFaultCode, 0, .ro, 0⟩, ⟨.crdFaultThread, 4, .ro, 0⟩] },
    { off := 0x10, wide := true,
      fields := [⟨.crdFaultPc, 0, .ro, 0⟩] },
    { off := 0x18, wide := true,
      fields := [⟨.crdFaultVa, 0, .ro, 0⟩] },
    { off := 0x20, wide := false,
      fields := [⟨.crdExit, 0, .ro, 0⟩] },
    { off := 0x40, wide := false,
      fields := [⟨.crdModeSubn, 0, .ro, 0⟩, ⟨.crdModePart, 1, .ro, 0⟩, ⟨.crdModeOwned, 7, .ro, 0⟩] },
    { off := 0x80, wide := true,
      fields := [⟨.crdInstr, 0, .ro, 0⟩] },
    { off := 0x88, wide := true,
      fields := [⟨.crdFlops, 0, .ro, 0⟩] },
    { off := 0x90, wide := true,
      fields := [⟨.crdSfuElem, 0, .ro, 0⟩] },
    { off := 0x98, wide := true,
      fields := [⟨.crdHoBytes, 0, .ro, 0⟩] },
    { off := 0xa0, wide := true,
      fields := [⟨.crdEccCe, 0, .ro, 0⟩] },
    { off := 0xa8, wide := true,
      fields := [⟨.crdStallMem, 0, .ro, 0⟩] },
    { off := 0x100, wide := true, s1 := 0x8, n1 := 8,
      fields := [⟨.crdPc, 0, .ro, 0⟩] } ]

/-- Registers of the TIER block. -/
def tierRows : List RegRow :=
  [
    { off := 0x0, wide := false,
      fields := [⟨.tierCapLive, 0, .ro, 0⟩, ⟨.tierCapSysres, 9, .ro, 0⟩, ⟨.tierCapT1cap, 16, .ro, 0⟩] },
    { off := 0x8, wide := true,
      fields := [⟨.tierUnbacked, 0, .ro, 0⟩] },
    { off := 0x10, wide := true,
      fields := [⟨.tierPteBad, 0, .ro, 0⟩] },
    { off := 0x20, wide := false, s1 := 0x4, n1 := 8,
      fields := [⟨.tierLive, 0, .ro, 0⟩] },
    { off := 0x80, wide := false,
      fields := [⟨.tierBar2Base, 0, .rw, 0⟩, ⟨.tierBar2En, 31, .rw, 0⟩] },
    { off := 0x100, wide := false, s1 := 0x4, n1 := 8,
      fields := [⟨.tierStackTemp, 0, .ro, 0⟩, ⟨.tierStackHotref, 8, .ro, 0⟩, ⟨.tierStackThrot, 9, .ro, 0⟩, ⟨.tierStackWashot, 10, .w1c, 0⟩] },
    { off := 0x400, wide := false, s1 := 0x4, n1 := 256,
      fields := [⟨.tierChLive, 0, .ro, 0⟩, ⟨.tierChCause, 1, .ro, 0⟩, ⟨.tierChCe, 16, .ro, 0⟩] },
    { off := 0x1000, wide := true, s1 := 0x40, n1 := 64,
      fields := [⟨.tierPHashHmode, 0, .ro, 0⟩, ⟨.tierPHashSeed, 16, .ro, 0⟩] },
    { off := 0x1008, wide := true, s1 := 0x40, n1 := 64,
      fields := [⟨.tierPT1use, 0, .ro, 0⟩] },
    { off := 0x1010, wide := true, s1 := 0x40, n1 := 64,
      fields := [⟨.tierPT1quota, 0, .ro, 0⟩] },
    { off := 0x1018, wide := true, s1 := 0x40, n1 := 64,
      fields := [⟨.tierPT2use, 0, .ro, 0⟩] },
    { off := 0x1020, wide := true, s1 := 0x40, n1 := 64,
      fields := [⟨.tierPT2quota, 0, .ro, 0⟩] },
    { off := 0x1028, wide := true, s1 := 0x40, n1 := 64,
      fields := [⟨.tierPT3use, 0, .ro, 0⟩] },
    { off := 0x1030, wide := true, s1 := 0x40, n1 := 64,
      fields := [⟨.tierPT3quota, 0, .ro, 0⟩] },
    { off := 0x1038, wide := true, s1 := 0x40, n1 := 64,
      fields := [⟨.tierPImbImb, 0, .w1c, 0⟩, ⟨.tierPImbImbNow, 1, .ro, 0⟩, ⟨.tierPImbHotch, 2, .ro, 0⟩, ⟨.tierPImbRatio, 16, .ro, 0⟩, ⟨.tierPImbEvents, 32, .ro, 0⟩] } ]

/-- Registers of the STRM block. -/
def strmRows : List RegRow :=
  [
    { off := 0x0, wide := false,
      fields := [⟨.strmCapEngines, 0, .ro, 0⟩, ⟨.strmCapCtx, 8, .ro, 0⟩] },
    { off := 0x4, wide := false,
      fields := [⟨.strmDrainTo, 0, .rw, 0⟩] },
    { off := 0x100, wide := false, s1 := 0x40, n1 := 4,
      fields := [⟨.strmEStatusActive, 0, .ro, 0⟩, ⟨.strmEStatusDrain, 8, .ro, 0⟩] },
    { off := 0x108, wide := true, s1 := 0x40, n1 := 4,
      fields := [⟨.strmEBytes, 0, .ro, 0⟩] },
    { off := 0x110, wide := true, s1 := 0x40, n1 := 4,
      fields := [⟨.strmEMerged, 0, .ro, 0⟩] },
    { off := 0x118, wide := true, s1 := 0x40, n1 := 4,
      fields := [⟨.strmEFaults, 0, .ro, 0⟩] },
    { off := 0x1000, wide := false, s1 := 0x80, n1 := 64,
      fields := [⟨.strmPModeSa, 0, .ro, 0⟩, ⟨.strmPModeClass, 1, .ro, 0⟩, ⟨.strmPModeReplay, 2, .ro, 0⟩, ⟨.strmPModeCtx, 8, .ro, 0⟩] },
    { off := 0x1004, wide := false, s1 := 0x80, n1 := 64,
      fields := [⟨.strmPArrive, 0, .wo, 0⟩] },
    { off := 0x1008, wide := false, s1 := 0x80, n1 := 64,
      fields := [⟨.strmPBarsel, 0, .rw, 0⟩] },
    { off := 0x100c, wide := false, s1 := 0x80, n1 := 64,
      fields := [⟨.strmPBarExp, 0, .ro, 0⟩, ⟨.strmPBarCount, 16, .ro, 0⟩] },
    { off := 0x1010, wide := false, s1 := 0x80, n1 := 64,
      fields := [⟨.strmPPhase, 0, .ro, 0⟩] },
    { off := 0x1014, wide := false, s1 := 0x80, n1 := 64,
      fields := [⟨.strmPWinSbase, 0, .ro, 0⟩, ⟨.strmPWinSsize, 8, .ro, 0⟩, ⟨.strmPWinGrace, 16, .rw, 0⟩] },
    { off := 0x1018, wide := true, s1 := 0x80, n1 := 64,
      fields := [⟨.strmPSlices, 0, .ro, 0⟩] },
    { off := 0x1020, wide := true, s1 := 0x80, n1 := 64,
      fields := [⟨.strmPLate, 0, .ro, 0⟩] },
    { off := 0x1028, wide := true, s1 := 0x80, n1 := 64,
      fields := [⟨.strmPShadow, 0, .ro, 0⟩] },
    { off := 0x1030, wide := true, s1 := 0x80, n1 := 64,
      fields := [⟨.strmPUnavail, 0, .ro, 0⟩] },
    { off := 0x1038, wide := true, s1 := 0x80, n1 := 64,
      fields := [⟨.strmPStalled, 0, .ro, 0⟩] },
    { off := 0x1040, wide := true, s1 := 0x80, n1 := 64,
      fields := [⟨.strmPStallNs, 0, .ro, 0⟩] },
    { off := 0x1048, wide := true, s1 := 0x80, n1 := 64,
      fields := [⟨.strmPShadowSteps, 0, .ro, 0⟩] },
    { off := 0x1050, wide := true, s1 := 0x80, n1 := 64,
      fields := [⟨.strmPBytes, 0, .ro, 0⟩] } ]
  ++ [
    { off := 0x1058, wide := true, s1 := 0x80, n1 := 64,
      fields := [⟨.strmPMerged, 0, .ro, 0⟩] },
    { off := 0x1060, wide := true, s1 := 0x80, n1 := 64,
      fields := [⟨.strmPAborts, 0, .ro, 0⟩] } ]

/-- Registers of the FTL block. -/
def ftlRows : List RegRow :=
  [
    { off := 0x0, wide := true,
      fields := [⟨.ftlCapUserblk, 0, .ro, 0⟩, ⟨.ftlCapRawgb, 32, .ro, 0⟩] },
    { off := 0x8, wide := false,
      fields := [⟨.ftlStatusState, 0, .ro, 0⟩, ⟨.ftlStatusDirtystart, 3, .ro, 0⟩, ⟨.ftlStatusJlost, 4, .ro, 0⟩, ⟨.ftlStatusRebuild, 5, .ro, 0⟩, ⟨.ftlStatusLifeUsed, 8, .ro, 0⟩] },
    { off := 0xc, wide := false,
      fields := [⟨.ftlChstatus, 0, .ro, 0⟩] },
    { off := 0x10, wide := false,
      fields := [⟨.ftlSpareSparePm, 0, .ro, 0⟩, ⟨.ftlSpareMinChPm, 16, .ro, 0⟩] },
    { off := 0x14, wide := false,
      fields := [⟨.ftlBglimit, 0, .rw, 0⟩] },
    { off := 0x18, wide := false,
      fields := [⟨.ftlTemp, 0, .ro, 0⟩, ⟨.ftlTempPkg, 8, .ro, 0⟩, ⟨.ftlTempThrot, 12, .ro, 0⟩, ⟨.ftlTempWashot, 13, .w1c, 0⟩] },
    { off := 0x80, wide := true,
      fields := [⟨.ftlReadBytes, 0, .ro, 0⟩] },
    { off := 0x88, wide := true,
      fields := [⟨.ftlStageBytes, 0, .ro, 0⟩] },
    { off := 0x90, wide := true,
      fields := [⟨.ftlProgBytes, 0, .ro, 0⟩] },
    { off := 0x98, wide := true,
      fields := [⟨.ftlErases, 0, .ro, 0⟩] },
    { off := 0xa0, wide := true,
      fields := [⟨.ftlRdReloc, 0, .ro, 0⟩] },
    { off := 0xa8, wide := true,
      fields := [⟨.ftlRetReloc, 0, .ro, 0⟩] },
    { off := 0xb0, wide := true,
      fields := [⟨.ftlUrgent, 0, .ro, 0⟩] },
    { off := 0xb8, wide := true,
      fields := [⟨.ftlSoft, 0, .ro, 0⟩] },
    { off := 0xc0, wide := true,
      fields := [⟨.ftlParrec, 0, .ro, 0⟩] },
    { off := 0xc8, wide := true,
      fields := [⟨.ftlLost, 0, .ro, 0⟩] },
    { off := 0xd0, wide := true,
      fields := [⟨.ftlGrownBad, 0, .ro, 0⟩] },
    { off := 0xd8, wide := true,
      fields := [⟨.ftlCommits, 0, .ro, 0⟩] },
    { off := 0x100, wide := true, s1 := 0x8, n1 := 16,
      fields := [⟨.ftlChAvgPe, 0, .ro, 0⟩, ⟨.ftlChMaxPe, 16, .ro, 0⟩, ⟨.ftlChBad, 32, .ro, 0⟩, ⟨.ftlChLost, 48, .ro, 0⟩] } ]

/-- Registers of the VID block. -/
def vidRows : List RegRow :=
  [
    { off := 0x0, wide := false,
      fields := [⟨.vidCapCores, 0, .ro, 0⟩, ⟨.vidCapSpp, 8, .ro, 0⟩, ⟨.vidCapSess, 16, .ro, 0⟩] },
    { off := 0x4, wide := false,
      fields := [⟨.vidDrainTo, 0, .rw, 0⟩] },
    { off := 0x8, wide := false,
      fields := [⟨.vidCoreEn, 0, .rw, 0⟩] },
    { off := 0x100, wide := false, s1 := 0x20, n1 := 24,
      fields := [⟨.vidCStatusState, 0, .ro, 0⟩, ⟨.vidCStatusPart, 2, .ro, 0⟩] },
    { off := 0x108, wide := true, s1 := 0x20, n1 := 24,
      fields := [⟨.vidCFrames, 0, .ro, 0⟩] },
    { off := 0x110, wide := true, s1 := 0x20, n1 := 24,
      fields := [⟨.vidCPixels, 0, .ro, 0⟩] },
    { off := 0x118, wide := true, s1 := 0x20, n1 := 24,
      fields := [⟨.vidCWdog, 0, .ro, 0⟩] },
    { off := 0x1000, wide := false, s1 := 0x40, n1 := 64,
      fields := [⟨.vidPSessSessions, 0, .ro, 0⟩, ⟨.vidPSessQueued, 16, .ro, 0⟩] },
    { off := 0x1008, wide := true, s1 := 0x40, n1 := 64,
      fields := [⟨.vidPDecFrames, 0, .ro, 0⟩] },
    { off := 0x1010, wide := true, s1 := 0x40, n1 := 64,
      fields := [⟨.vidPEncFrames, 0, .ro, 0⟩] },
    { off := 0x1018, wide := true, s1 := 0x40, n1 := 64,
      fields := [⟨.vidPDamaged, 0, .ro, 0⟩] },
    { off := 0x1020, wide := true, s1 := 0x40, n1 := 64,
      fields := [⟨.vidPWatchdog, 0, .ro, 0⟩] },
    { off := 0x1028, wide := true, s1 := 0x40, n1 := 64,
      fields := [⟨.vidPUnsupp, 0, .ro, 0⟩] },
    { off := 0x1030, wide := true, s1 := 0x40, n1 := 64,
      fields := [⟨.vidPBsBytes, 0, .ro, 0⟩] } ]

/-- Registers of the FLK block. -/
def flkRows : List RegRow :=
  [
    { off := 0x0, wide := false,
      fields := [⟨.flkCapPorts, 0, .ro, 0⟩, ⟨.flkCapVcs, 4, .ro, 0⟩, ⟨.flkCapMaxdev, 8, .ro, 0⟩] },
    { off := 0x4, wide := false,
      fields := [⟨.flkIdDevnum, 0, .ro, 0⟩, ⟨.flkIdSet, 12, .ro, 0⟩, ⟨.flkIdTgen, 16, .ro, 0⟩] },
    { off := 0x8, wide := false,
      fields := [⟨.flkRoutingHopmax, 0, .rw, 0⟩, ⟨.flkRoutingE2eRetry, 8, .rw, 0⟩] },
    { off := 0xc, wide := false,
      fields := [⟨.flkE2eTo, 0, .rw, 0⟩] },
    { off := 0x10, wide := false,
      fields := [⟨.flkCreditToUs, 0, .rw, 0⟩, ⟨.flkCreditToDeadMs, 16, .rw, 0⟩] },
    { off := 0x14, wide := false,
      fields := [⟨.flkRateGbps, 0, .rw, 0⟩, ⟨.flkRateStopUs, 16, .rw, 0⟩] },
    { off := 0x18, wide := false,
      fields := [⟨.flkCollTo, 0, .rw, 0⟩] },
    { off := 0x1c, wide := false,
      fields := [⟨.flkMalThresh, 0, .rw, 0⟩] },
    { off := 0x80, wide := true,
      fields := [⟨.flkStale, 0, .ro, 0⟩] },
    { off := 0x88, wide := true,
      fields := [⟨.flkDup, 0, .ro, 0⟩] },
    { off := 0x90, wide := true,
      fields := [⟨.flkFiltered, 0, .ro, 0⟩] },
    { off := 0x98, wide := true,
      fields := [⟨.flkHopdrop, 0, .ro, 0⟩] },
    { off := 0xa0, wide := true,
      fields := [⟨.flkNoroute, 0, .ro, 0⟩] },
    { off := 0xa8, wide := true,
      fields := [⟨.flkRatedrop, 0, .ro, 0⟩] },
    { off := 0xb0, wide := true,
      fields := [⟨.flkUnreach, 0, .ro, 0⟩] },
    { off := 0x100, wide := false, s1 := 0x40, n1 := 8,
      fields := [⟨.flkPortState, 0, .ro, 0⟩, ⟨.flkPortEnc, 3, .ro, 0⟩, ⟨.flkPortEncreq, 4, .ro, 0⟩, ⟨.flkPortCause, 8, .ro, 0⟩, ⟨.flkPortPartner, 12, .ro, 0⟩] },
    { off := 0x108, wide := true, s1 := 0x40, n1 := 8,
      fields := [⟨.flkPTxbytes, 0, .ro, 0⟩] },
    { off := 0x110, wide := true, s1 := 0x40, n1 := 8,
      fields := [⟨.flkPRxbytes, 0, .ro, 0⟩] },
    { off := 0x118, wide := true, s1 := 0x40, n1 := 8,
      fields := [⟨.flkPFecCorr, 0, .ro, 0⟩] },
    { off := 0x120, wide := true, s1 := 0x40, n1 := 8,
      fields := [⟨.flkPFecUncorr, 0, .ro, 0⟩] } ]
  ++ [
    { off := 0x128, wide := true, s1 := 0x40, n1 := 8,
      fields := [⟨.flkPRetries, 0, .ro, 0⟩] },
    { off := 0x130, wide := true, s1 := 0x40, n1 := 8,
      fields := [⟨.flkPMalformed, 0, .ro, 0⟩] },
    { off := 0x138, wide := true, s1 := 0x40, n1 := 8,
      fields := [⟨.flkPErrAuthfail, 0, .ro, 0⟩, ⟨.flkPErrCredto, 32, .ro, 0⟩] },
    { off := 0x800, wide := false, s1 := 0x4, n1 := 128,
      fields := [⟨.flkQuar, 0, .ro, 0⟩] },
    { off := 0x2000, wide := true, s1 := 0x40, n1 := 64,
      fields := [⟨.flkQColl, 0, .wo, 0⟩] },
    { off := 0x2008, wide := true, s1 := 0x40, n1 := 64,
      fields := [⟨.flkQPend, 0, .ro, 0⟩] },
    { off := 0x2010, wide := true, s1 := 0x40, n1 := 64,
      fields := [⟨.flkQTxbytes, 0, .ro, 0⟩] },
    { off := 0x2018, wide := true, s1 := 0x40, n1 := 64,
      fields := [⟨.flkQRxbytes, 0, .ro, 0⟩] },
    { off := 0x2020, wide := true, s1 := 0x40, n1 := 64,
      fields := [⟨.flkQRefused, 0, .ro, 0⟩] },
    { off := 0x2028, wide := true, s1 := 0x40, n1 := 64,
      fields := [⟨.flkQColls, 0, .ro, 0⟩] } ]

/-- Registers of the PCI block. -/
def pciRows : List RegRow :=
  [
    { off := 0x0, wide := false,
      fields := [⟨.pciLinkSpeed, 0, .ro, 0⟩, ⟨.pciLinkWidth, 3, .ro, 0⟩, ⟨.pciLinkFlit, 8, .ro, 0⟩, ⟨.pciLinkSris, 9, .ro, 0⟩, ⟨.pciLinkLstate, 10, .ro, 0⟩] },
    { off := 0x4, wide := false,
      fields := [⟨.pciBoardHoldupOk, 0, .ro, 0⟩, ⟨.pciBoardHoldupLow, 1, .ro, 0⟩, ⟨.pciBoardBrake, 2, .ro, 0⟩, ⟨.pciBoardAlert, 3, .ro, 0⟩, ⟨.pciBoardSwopen, 4, .ro, 0⟩, ⟨.pciBoardHoldupE, 8, .ro, 0⟩] },
    { off := 0x8, wide := false,
      fields := [⟨.pciCtl, 0, .rw, 0⟩] },
    { off := 0x80, wide := true,
      fields := [⟨.pciBadsize, 0, .ro, 0⟩] },
    { off := 0x88, wide := true,
      fields := [⟨.pciUnmapped, 0, .ro, 0⟩] },
    { off := 0x90, wide := true,
      fields := [⟨.pciCto, 0, .ro, 0⟩] },
    { off := 0x98, wide := true,
      fields := [⟨.pciUrca, 0, .ro, 0⟩] },
    { off := 0xa0, wide := true,
      fields := [⟨.pciPoison, 0, .ro, 0⟩] },
    { off := 0xa8, wide := true,
      fields := [⟨.pciWrej, 0, .ro, 0⟩] },
    { off := 0xb0, wide := true,
      fields := [⟨.pciPriFail, 0, .ro, 0⟩] },
    { off := 0xb8, wide := true,
      fields := [⟨.pciPriLate, 0, .ro, 0⟩] },
    { off := 0xc0, wide := true,
      fields := [⟨.pciCorr, 0, .ro, 0⟩] },
    { off := 0xc8, wide := true,
      fields := [⟨.pciPriReq, 0, .ro, 0⟩] },
    { off := 0xd0, wide := true,
      fields := [⟨.pciAtsInv, 0, .ro, 0⟩] },
    { off := 0xd8, wide := true,
      fields := [⟨.pciFlr, 0, .ro, 0⟩] } ]

/-- Registers of the BIST block. -/
def bistRows : List RegRow :=
  [
    { off := 0x0, wide := false,
      fields := [⟨.bistStatusRunning, 0, .ro, 0⟩, ⟨.bistStatusScope, 1, .ro, 0⟩, ⟨.bistStatusKind, 4, .ro, 0⟩, ⟨.bistStatusPass, 6, .ro, 0⟩, ⟨.bistStatusAbandoned, 7, .w1c, 0⟩, ⟨.bistStatusRepairs, 16, .ro, 0⟩] },
    { off := 0x8, wide := true,
      fields := [⟨.bistMask, 0, .ro, 0⟩] },
    { off := 0x10, wide := true,
      fields := [⟨.bistFail, 0, .ro, 0⟩] },
    { off := 0x18, wide := true,
      fields := [⟨.bistResSfail, 0, .ro, 0⟩, ⟨.bistResNfail, 8, .ro, 0⟩, ⟨.bistResSdfail, 9, .ro, 0⟩] },
    { off := 0x20, wide := true,
      fields := [⟨.bistSigLo, 0, .ro, 0⟩] },
    { off := 0x28, wide := true,
      fields := [⟨.bistSigHi, 0, .ro, 0⟩] },
    { off := 0x80, wide := true,
      fields := [⟨.bistRuns, 0, .ro, 0⟩] },
    { off := 0x88, wide := true,
      fields := [⟨.bistFails, 0, .ro, 0⟩] },
    { off := 0x90, wide := true,
      fields := [⟨.bistRepairsAll, 0, .ro, 0⟩] },
    { off := 0x100, wide := true, s1 := 0x10, n1 := 74,
      fields := [⟨.bistUsigLo, 0, .ro, 0⟩] },
    { off := 0x108, wide := true, s1 := 0x10, n1 := 74,
      fields := [⟨.bistUsigHi, 0, .ro, 0⟩] },
    { off := 0x800, wide := false, s1 := 0x4, n1 := 4,
      fields := [⟨.bistPhysFailpos, 0, .ro, 0⟩, ⟨.bistPhysSpare, 17, .ro, 0⟩] } ]

/-- The registers of a block. -/
def Blk.rows : Blk → List RegRow
  | .glb => glbRows
  | .pwr => pwrRows
  | .sec => secRows
  | .mbx => mbxRows
  | .ring => ringRows
  | .skn => sknRows
  | .mcr => mcrRows
  | .crd => crdRows
  | .tier => tierRows
  | .strm => strmRows
  | .ftl => ftlRows
  | .vid => vidRows
  | .flk => flkRows
  | .pci => pciRows
  | .bist => bistRows

/-- The key of a field instance in the register file. -/
def Fld.key (f : Fld) (i : Nat) : Nat := f.ctorIdx * 2 ^ 20 + i % 2 ^ 20

/-- What a key of the register file reads as when it is not listed: the reset value of its field. -/
def regDefault (k : Nat) : Nat := (Fld.ofNat (k / 2 ^ 20)).reset (k % 2 ^ 20)

end Sys2Proof.Machine
end

