-- ==== Sys2Proof/Machine/State.lean ====
section
/-! DEFINITION. The state of the module as plain data, and the state after reset. -/

namespace Sys2Proof.Machine

/-- Reasons a step stops with a fault. No rule of the spec stops the module: a refused access reads all ones, a refused
command is answered, an event whose conditions do not hold does not take place. -/
inductive Fault where
  /-- Raised by no meaning (safe). -/
  | none
  deriving DecidableEq, Repr

/-- Reasons a step is refused. -/
inductive Refusal where
  /-- The command has no meaning in the model yet; raised by arms of `exec` only (safe). -/
  | notModelled (mnemonic : String)
  deriving DecidableEq, Repr

/-- T3 as a flash journal write left it (R301): bytes, objects, extents, lost blocks and where the blocks lay. -/
structure FlashState where
  cells : List Host.Cell
  objs : SMap Obj
  extents : List (Nat × Nat)
  lost : List Nat
  map : SMap Nat
  deriving DecidableEq, Repr

set_option maxRecDepth 2048 in
/-- The state of the module. Sparse tables are canonical maps (`SMap`); an unlisted entry is the default record. -/
structure State where
  /-- Commands that wait, first in, first out. -/
  pending : List Instr := []
  /-- Register file: every field instance that differs from its reset value. -/
  regs : SMap Nat := []
  /-- T0, T1 and T2 by DPA; an unlisted byte reads as zero. -/
  mem : List Host.Cell := []
  /-- T3 by LBA times 4,096 plus offset; an unlisted byte reads as zero (R288). -/
  flash : List Host.Cell := []
  /-- Message slots of mailboxes: 0x4000 times the mailbox number plus the offset (R373). -/
  slots : List Host.Cell := []
  /-- What the module sent out, newest first. -/
  out : List Out := []
  /-- MODEL'S OWN: counts the free values drawn; no statement rests on it. -/
  fresh : Nat := 0
  /-- MODEL'S OWN: counts arbitration grants and orders of use (R250, R411). -/
  stamp : Nat := 1
  parts : SMap Partition := []
  jobs : SMap Job := []
  rings : SMap Ring := []
  graphs : List Graph := []
  mbxs : SMap Mailbox := []
  objs : SMap Obj := []
  placements : SMap Placement := []
  /-- Allocated T2 extents and T3 extents: first byte (T2) or LBA (T3), size. -/
  t2alloc : List (Nat × Nat) := []
  t3alloc : List (Nat × Nat) := []
  /-- Next free DPA for page tables in the system region (R227); DESIGN CHOICE: tables are taken upward from 0x1000. -/
  tableNext : Nat := 0x1000
  /-- T1 reads made since the reset of IOD-N: each may have met errors that its channel corrected (R252, R471). -/
  t1Reads : Nat := 0
  /-- Change log, newest first, 192 B entries (R390), and the index of the next. -/
  changeLog : List (List Byte) := []
  changeNext : Nat := 0
  /-- Fault log, newest first, 64 B entries (R456), and the index of the next. -/
  faultLog : List (List Byte) := []
  faultNext : Nat := 0
  /-- Tasks: of matrix core c, of carding thread 8n + t. -/
  mtasks : SMap Task := []
  ctasks : SMap Task := []
  mcores : SMap MCore := []
  threads : SMap Thread := []
  handoffs : List Handoff := []
  /-- Sort requests in order of arrival (R177). -/
  sorts : List SortReq := []
  ctxs : SMap Ctx := []
  /-- Rings that a malformed descriptor, task or node makes guilty when its unit reports it: ring, cause, index (R367). -/
  guilts : List (Nat × Nat × Nat) := []
  chainWaits : List ChainWait := []
  slices : List SliceReq := []
  /-- Slices counted late: partition and SSB (R272). -/
  late : List LateSlice := []
  /-- Grants of each stream engine (R271), and the domains that drain: quadrants 0 to 3, and T3 as bit 4 (R280, R301). -/
  grants : SMap GrantWin := []
  drains : Nat := 0
  /-- STEP barriers that wait for their checkpoint: partition, barrier, and whether the copy has been made (R458). -/
  ckpts : List (Nat × Nat × Bool) := []
  /-- Serving partitions whose active job waits at a batch-step boundary for a switch: partition and barrier (R406). -/
  boundaries : List (Nat × Nat) := []
  lanes : SMap Lane := []
  /-- Consumers of the lanes in arrival order: commands pending or held, and draws that wait behind them (R192, R215). -/
  whorlCmds : List WhorlCmd := []
  /-- The noise source: consecutive failed windows, FAILED, what is left of the newest digest, and the run of equal raw bits at the end of
  the last window with its bit (R207 to R209). -/
  noiseBad : Nat := 0
  noiseFailed : Bool := false
  noiseOut : List Byte := []
  noiseRun : Nat := 0
  noiseBit : Bool := false
  /-- Live state of resident jobs that are not active (R403, R405), keyed by 16p + ring. -/
  saves : SMap Snapshot := []
  /-- Checkpoint images (R461), keyed by 2 times the partition plus the parity. -/
  images : SMap Image := []
  recoveries : List Recovery := []
  /-- VIDEO records at the video scheduler in order of arrival, sessions, running frames (R310 to R318). -/
  videos : List VideoJob := []
  vsess : SMap VSess := []
  vframes : List VFrame := []
  /-- The video domain drains (R336), is held at frame boundaries by the power or thermal loop (R498, R501; bit 0 IOD-N, bit 1 IOD-S), cores out of service
  (R472). -/
  vidDrain : Bool := false
  vidHold : Nat := 0
  vidDead : List Nat := []
  /-- Logical skeins out of service (R23, R469), quadrants whose spare is in use, and skeins under self-test (R539). -/
  outSkeins : Nat := 0
  spareUsed : Nat := 0
  testSkeins : Nat := 0
  /-- Last measured temperatures by source (R501): 0 to 3 compute dies, 4 IOD-N, 5 IOD-S, 8 to 15 stacks, 16 flash, 17 LPDDR, 18
  regulators. -/
  temps : SMap Nat := []
  /-- Switches in progress: partition, incoming job and GLB time of the decision (R407). -/
  switching : List (Nat × Nat × Nat) := []
  /-- Layers pinned and deckle reserves made by LOAD_MODEL (R269, R282): layers; partition, T1 placement number + 1 and bytes. -/
  layers : List Layer := []
  reserves : List (Nat × Nat × Nat) := []
  /-- LBAs that no recovery step of R290 recovers, and the lost-block log, newest first, with the next index. -/
  lostBlocks : List Nat := []
  lostLog : List (List Byte) := []
  lostNext : Nat := 0
  waits : List TransWait := []
  /-- Dirty bits D0 and D1 of T1 granules of 64 KiB (R460). -/
  dirty : SMap Nat := []
  /-- MSI-X mask and pending bits: 32 times the function number plus the vector; masked after reset (R552). -/
  msixMask : SMap Bool := []
  msixPend : SMap Bool := []
  /-- MSI-X table words: 128 times the function number plus 4 times the vector plus the word (R552). -/
  msixTable : SMap Nat := []
  /-- PCIe configuration space that software sets (R547): VF Enable and NumVFs (R549 to R551 act through them). -/
  vfEnable : Bool := false
  numVfs : Nat := 0
  /-- Base addresses that software has written (R548): 0 PF BAR0, 1 PF BAR2, 2 VF BAR0. -/
  bars : SMap Nat := []
  /-- Functions in D3hot (R546), by function number. -/
  d3hot : List Nat := []
  /-- The fabric: ports, records of the route table in order (R436), requests, next TAG by device, receivers' windows by source, WRITEs that wait,
  STOPs, collectives, and epochs gained since manufacture (R432). -/
  ports : SMap Port := []
  routes : List Nat := []
  fabReqs : List FabReq := []
  fabTags : SMap Nat := []
  rxSrcs : SMap RxSrc := []
  fabPend : List FabPend := []
  fabStops : List FabStop := []
  colls : List Coll := []
  epoch : Nat := 0
  /-- Cached ATS translations: function, page, host page (R553). -/
  atc : List (Nat × Nat × Nat) := []
  /-- Mirror regions held for partners (R475), physical position of each logical skein (R23), skeins whose controller has been probed
  and has not answered (R455), and uncorrectable sectors of T1 channels by channel and GLB time (R471). -/
  mirrors : SMap Mirror := []
  phys : SMap Nat := []
  probes : Nat := 0
  ueTimes : List (Nat × Nat) := []
  /-- The module has been started (R506); PERST# is asserted (R566); the input is qualified (R507); RESET_CAUSE of the next cold start
  (R512). -/
  started : Bool := false
  perst : Bool := true
  inputOk : Bool := true
  coldCause : Nat := 0
  /-- Quadrants whose units do not run, and quadrants being prepared, by a power state (R487, R490): one bit each. -/
  quadStop : Nat := 0
  quadPrep : Nat := 0
  pwrSeq : Option PwrSeq := none
  /-- How the next read of host memory ends, where the host refuses it (R555). -/
  hostErr : Option HostError := none
  pwr : PwrCtl := {}
  /-- The FTL runs a power-loss commit (R301), which also outlives an aborted shutdown (R303). -/
  committing : Bool := false
  /-- T3 as the commit that runs makes it durable. -/
  commitOf : Option FlashState := none
  /-- The FTL has reported the commit of this shutdown done (R301); THERM_TRIP# is driven (R565); the input switch is open (R562); a
  sequencer wait for power good failed and the sequencer stopped (R508). -/
  commitDone : Bool := false
  tripPin : Bool := false
  swOpen : Bool := false
  seqStopped : Bool := false
  /-- The hold-up store has been charged and measured since the input qualified (R563), and the energy found, in 0.1 J. -/
  holdup : Option Nat := none
  /-- NAND packages: last temperature (R299), channels lost, those whose stripes are not rebuilt, and a second loss before the rebuild
  ended (R298). -/
  pkgTemps : SMap Nat := []
  flashLost : Nat := 0
  flashStale : Nat := 0
  flashTwice : Bool := false
  /-- The FTL's map (R287), and T3 as the last flash journal write left it, when map changes have been made since (R301). -/
  ftl : FtlMap := {}
  journal : Option FlashState := none
  /-- The erase after entry to RETURN runs (R517). -/
  returnErase : Bool := false
  /-- Lifecycle that the fuses hold when LIFECYCLE_SET has changed it, and whether a UDS has been fused (R514, R515); AUTH answers
  since the last cold start. -/
  fuseLc : Option Nat := none
  fuseUds : Bool := false
  authBad : Nat := 0
  /-- Repairs that self-tests have added to the repair record in the boot store (R543); where they lie is not the spec's. -/
  repairRecord : Nat := 0
  /-- The self-test that runs (R539). -/
  bist : Option BistRun := none
  /-- Halts of SEC_HALT that wait for P0 (R534): threads. -/
  halts : List Nat := []
  /-- The TAP: instruction selected, and the preloaded boundary bits (R530). -/
  tap : TapInstr := .bypass
  preload : List Bool := []
  /-- The management bus (R568, R569): endpoint ID, dynamic address, SMBus mode (none until the first transfer). -/
  eid : Nat := 0
  dynAddr : Option Nat := none
  smbus : Option Bool := none
  /-- SPDM connections of DOE and MCTP (R525). -/
  doeConn : SpdmConn := {}
  mctpConn : SpdmConn := {}
  /-- The DOE Error bit (R525). -/
  doeError : Bool := false
  /-- MCTP messages held while the module wakes (R569): type and body. -/
  mctpHeld : List (Nat × List Byte) := []
  deriving DecidableEq, Repr, Inhabited

/-- The module right after reset: every register at its Reset value, nothing listed in memory, nothing formed. -/
def State.reset : State := {}

end Sys2Proof.Machine
end

