-- ==== Sys2Proof/Machine/Ops.lean ====
section
/-! DEFINITION. Named operations over registers, memory, partitions and translations that the meanings share. -/

namespace Sys2Proof.Machine

/-! ## Registers -/

/-- The value of a register field instance. -/
def State.fget (s : State) (f : Fld) (i : Nat) : Nat := SMap.get (f.reset (i % 2 ^ 20)) s.regs (f.key i)

/-- Set a register field instance, truncated to the field's width. -/
def State.fset (s : State) (f : Fld) (i : Nat) (v : Nat) : State :=
  { s with regs := SMap.set (f.reset (i % 2 ^ 20)) s.regs (f.key i) (v % 2 ^ f.width) }

/-- Add to a counter field, modulo its width. -/
def State.fadd (s : State) (f : Fld) (i : Nat) (n : Nat) : State := s.fset f i (s.fget f i + n)

/-- Add to a counter that stops at its largest value. -/
def State.fsat (s : State) (f : Fld) (i : Nat) (n : Nat) : State :=
  s.fset f i (min (2 ^ f.width - 1) (s.fget f i + n))

/-- Set bits of a field (a sticky flag or mask). -/
def State.for' (s : State) (f : Fld) (i : Nat) (m : Nat) : State := s.fset f i (s.fget f i ||| m)

/-- The errors corrected in one access are counted (R69, R182, R233): how many is physical, a free value. -/
def State.countCorrected (s : State) (f : Fld) (i : Nat) : State :=
  { s with fresh := s.fresh + 1 }.fadd f i (Config.corrected s.fresh)

/-- Return a field instance to its reset value. -/
def State.fclear (s : State) (f : Fld) (i : Nat) : State := { s with regs := SMap.erase s.regs (f.key i) }

/-- Return every instance of the fields that meet a condition to its reset value. -/
def State.fclearAll (s : State) (c : Fld → Nat → Bool) : State :=
  { s with regs := s.regs.filter fun e => !c (Fld.ofNat (e.1 / 2 ^ 20)) (e.1 % 2 ^ 20) }

/-- ACLK cycles since the reset of IOD-N (R390, R456, R512). -/
def State.time (s : State) : Nat := s.fget .glbTime 0

/-- One ACLK cycle in which nothing is commanded (R512): GLB_TIME counts. -/
def State.idle (s : State) : State := s.fadd .glbTime 0 1

/-- The outcome of a command that has a meaning. -/
abbrev Res := Host.Outcome State Fault Refusal

/-- Send something out of the module. -/
def State.emit (s : State) (o : Out) : State := { s with out := o :: s.out }

/-- A fresh draw number for a free value. -/
def State.draw (s : State) : State := { s with fresh := s.fresh + 1 }

/-- The next arbitration stamp. -/
def State.tick (s : State) : State := { s with stamp := s.stamp + 1 }

/-! ## Bytes -/

/-- Consecutive bytes of a map of cells. -/
def cellsGet (m : List Host.Cell) (a : Nat) : Nat → List Byte
  | 0 => []
  | n + 1 => SMap.get 0 m a :: cellsGet m (a + 1) n

/-- Store consecutive bytes. -/
def cellsSet (m : List Host.Cell) (a : Nat) : List Byte → List Host.Cell
  | [] => m
  | b :: bs => cellsSet (SMap.set 0 m a b) (a + 1) bs

/-- A range of bytes set to zero. -/
def cellsZero (m : List Host.Cell) (a n : Nat) : List Host.Cell := m.filter fun c => decide (c.1 < a) || decide (a + n ≤ c.1)

/-- The listed bytes of `src` in a range, moved to start at `b`. -/
def cellsSlice (src : List Host.Cell) (a n b : Nat) : List Host.Cell :=
  (src.filter fun c => decide (a ≤ c.1) && decide (c.1 < a + n)).map fun c => (c.1 - a + b, c.2)

/-- A range of `dst` replaced by a range of `src`. -/
def cellsCopy (src dst : List Host.Cell) (a n b : Nat) : List Host.Cell :=
  ((dst.filter fun c => decide (c.1 < b)) ++ cellsSlice src a n b) ++ dst.filter fun c => decide (b + n ≤ c.1)

/-- Read `n` bytes at a DPA. -/
def State.ld (s : State) (a n : Nat) : List Byte := cellsGet s.mem a n

/-- Store bytes at a DPA. -/
def State.st (s : State) (a : Nat) (bs : List Byte) : State := { s with mem := cellsSet s.mem a bs }

/-- The little-endian number of `n` bytes at a DPA (R5). -/
def State.ldNat (s : State) (a n : Nat) : Nat := ofBytes (s.ld a n)

/-- Store a number as `n` little-endian bytes (R5). -/
def State.stNat (s : State) (a n v : Nat) : State := s.st a (toBytes n v)

/-- Little-endian field of a record: `n` bytes from byte `o` (R5, R6). -/
def fld (r : List Byte) (o n : Nat) : Nat := ofBytes ((r.drop o).take n)

/-- A byte of a record. -/
def byteAt (r : List Byte) (o : Nat) : Nat := (r.getD o 0).toNat

/-- Every byte of a range of a record is zero. -/
def zeroAt (r : List Byte) (o n : Nat) : Bool := ((r.drop o).take n).all (· == 0)

/-- Replace bytes of a record. -/
def patchAt (r : List Byte) (o : Nat) (bs : List Byte) : List Byte := r.take o ++ bs ++ r.drop (o + bs.length)

/-- A record padded with zeros to `n` bytes. -/
def padTo (n : Nat) (r : List Byte) : List Byte := r ++ List.replicate (n - r.length) 0

/-- Offset of the trace buffer (R528); DESIGN CHOICE: it is the last 16 MiB of the system region. -/
def traceBase : Nat := 0x7F000000

/-- Write a trace record while trace is enabled (R529): the time, the kind, partition, ring, unit word and 16 detail bytes. -/
def State.trace (s : State) (kind part ring unit : Nat) (detail : List Byte) : State :=
  if s.fget .secDbgTrace 0 = 0 then s
  else
    let n := s.fget .secTraceHead 0
    let r := toBytes 8 s.time ++ toBytes 1 kind ++ toBytes 1 part ++ toBytes 1 ring ++ [0] ++ toBytes 4 unit ++ padTo 16 (detail.take 16)
    (s.st (traceBase + 32 * (n % 524288)) r).fadd .secTraceHead 0 1

/-! ## Partitions, skeins and cores -/

/-- Partition record. -/
def State.part (s : State) (p : Nat) : Partition := SMap.get {} s.parts p

/-- Change a partition record. -/
def State.setPart (s : State) (p : Nat) (f : Partition → Partition) : State :=
  { s with parts := SMap.set {} s.parts p (f (s.part p)) }

/-- The partition is formed. -/
def State.formed (s : State) (p : Nat) : Bool := s.fget .ringPstatusFormed p == 1

/-- Skeins of a mask, lowest first; the position is the rank (R214). -/
def skeinsOf (mask : Nat) : List Nat := (List.range 64).filter fun k => mask.testBit k

/-- Skeins of a partition in rank order. -/
def State.skeins (s : State) (p : Nat) : List Nat :=
  if (s.part p).order.isEmpty then skeinsOf (s.part p).mask else (s.part p).order

/-- The partition whose formation names a skein (R394). -/
def State.holder (s : State) (k : Nat) : Option Nat :=
  (s.parts.find? fun e => e.2.mask.testBit k).map (·.1)

/-- The partition that owns a skein: none while the skein is under self-test (R394, R539). -/
def State.owner (s : State) (k : Nat) : Option Nat := if s.testSkeins.testBit k then none else s.holder k

/-- Matrix cores of a partition in rank order. -/
def State.coresOf (s : State) (p : Nat) : List Nat := (s.skeins p).flatMap fun k => (List.range 8).map (8 * k + ·)

/-- Carding cores of a partition in rank order. -/
def State.cardingOf (s : State) (p : Nat) : List Nat := (s.skeins p).flatMap fun k => (List.range 32).map (32 * k + ·)

/-- Home quadrant: that of the lowest-numbered skein (R24), whatever rank it holds. -/
def State.homeQuad (s : State) (p : Nat) : Nat := (skeinsOf (s.part p).mask).headD 0 / 16

/-- Serving class (R284). -/
def State.serving (s : State) (p : Nat) : Bool := s.fget .strmPModeClass p == 1

/-- The newest complete image of a partition (R462): its key. -/
def State.newestImage (s : State) (p : Nat) : Option Nat :=
  let a := SMap.get {} s.images (2 * p)
  let b := SMap.get {} s.images (2 * p + 1)
  match a.complete, b.complete with
  | true, true => some (if a.stamp > b.stamp then 2 * p else 2 * p + 1)
  | true, false => some (2 * p)
  | false, true => some (2 * p + 1)
  | false, false => none

/-! ## The address map -/

/-- Size of the system region (R227); DESIGN CHOICE: it lies at the bottom of T1. -/
def sysRegionSize : Nat := 2 ^ 31

/-- Live T1 channels (R252). -/
def State.liveChannels (s : State) : List Nat := (List.range 256).filter fun c => s.fget .tierChLive c == 1

/-- Bytes of T1 backed (R243): 1.5 GiB for each live channel. -/
def State.t1Backed (s : State) : Nat := s.fget .tierCapLive 0 * 0x60000000

def t2Base : Nat := 0x10000000000
def t2Size : Nat := 0x10000000000
/-- The FTL reserve, the top 16 GiB of T2 (R287). -/
def ftlReserve : Nat := 0x1FC00000000
/-- The LPDDR5X package that holds a T2 byte: T2 is interleaved at 4 KiB over 16 (R225). -/
def t2Package (a : Nat) : Nat := (a - t2Base) / 4096 % 16
def coreMemBase : Nat := 0x7F0000000000
def localMemBase : Nat := 0x7F1000000000
def skeinMemBase : Nat := 0x7F2000000000
def mcrBase : Nat := 0x7F8000000000
def crdBase : Nat := 0x7F9000000000
def sknBase : Nat := 0x7FA000000000
def ioBase : Nat := 0x7FC000000000

/-- Core memory of a matrix core: first DPA (R225). -/
def coreMem (c : Nat) : Nat := coreMemBase + c * 0x400000
/-- Local memory of a carding core (R225). -/
def localMem (n : Nat) : Nat := localMemBase + n * 0x40000
/-- Skein memory (R225). -/
def skeinMem (k : Nat) : Nat := skeinMemBase + k * 0x2000000

/-- What lies at a DPA (R225). -/
inductive Region where
  | t1 | t2
  | core (c : Nat)
  | local (n : Nat)
  | skein (k : Nat)
  /-- A register block, its instance and the offset in it. -/
  | regs (b : Blk) (inst off : Nat)
  | unbacked
  deriving DecidableEq, Repr

/-- The map of R225. -/
def State.region (s : State) (a : Nat) : Region :=
  if a < s.t1Backed then .t1
  else if a < t2Base then .unbacked
  else if a < t2Base + t2Size then .t2
  else if a < coreMemBase then .unbacked
  else if a < coreMemBase + 512 * 0x400000 then .core ((a - coreMemBase) / 0x400000)
  else if a < localMemBase then .unbacked
  else if a < localMemBase + 2048 * 0x40000 then .local ((a - localMemBase) / 0x40000)
  else if a < skeinMemBase then .unbacked
  else if a < skeinMemBase + 64 * 0x2000000 then .skein ((a - skeinMemBase) / 0x2000000)
  else if a < mcrBase then .unbacked
  else if a < mcrBase + 512 * 0x1000 then .regs .mcr ((a - mcrBase) / 0x1000) ((a - mcrBase) % 0x1000)
  else if a < crdBase then .unbacked
  else if a < crdBase + 2048 * 0x1000 then .regs .crd ((a - crdBase) / 0x1000) ((a - crdBase) % 0x1000)
  else if a < sknBase then .unbacked
  else if a < sknBase + 64 * 0x10000 then .regs .skn ((a - sknBase) / 0x10000) ((a - sknBase) % 0x10000)
  else if a < ioBase then .unbacked
  else
    match (a - ioBase) / 0x10000 with
    | 0 => .regs .tier 0 ((a - ioBase) % 0x10000)
    | 1 => .regs .strm 0 ((a - ioBase) % 0x10000)
    | 2 => .regs .ftl 0 ((a - ioBase) % 0x10000)
    | 3 => .regs .vid 0 ((a - ioBase) % 0x10000)
    | 4 => .regs .flk 0 ((a - ioBase) % 0x10000)
    | 5 => .regs .pwr 0 ((a - ioBase) % 0x10000)
    | 6 => .regs .glb 0 ((a - ioBase) % 0x10000)
    | 7 => .regs .sec 0 ((a - ioBase) % 0x10000)
    | 8 => .regs .bist 0 ((a - ioBase) % 0x10000)
    | 9 => .regs .pci 0 ((a - ioBase) % 0x10000)
    | _ => .unbacked

/-- Who reaches a byte of memory: an agent of a partition, the mill, or the host. -/
inductive Agent where
  | part (p : Nat)
  | mill
  | host
  deriving DecidableEq, Repr

/-- The quadrant's units run (R487, R489). -/
def State.quadRuns (s : State) (q : Nat) : Bool := !s.quadStop.testBit q

/-- An agent reaches the memory at a DPA (R226). The host reaches T1 only (R252). -/
def State.reaches (s : State) (ag : Agent) (a : Nat) : Bool :=
  match s.region a, ag with
  | .t1, _ => true
  | .t2, .host => false
  | .t2, _ => true
  | .core _, .mill => true
  | .core c, .part p => s.owner (c / 8) == some p
  | .local _, .mill => true
  | .local n, .part p => s.owner (n / 32) == some p
  | .skein _, .mill => true
  | .skein k, .part p => s.owner k == some p
  | _, _ => false

/-- Set the dirty bits of the granule of a T1 store (R460); a byte at granule g holds D0 and D1. -/
def State.soil (s : State) (a : Nat) : State :=
  if a < s.t1Backed then { s with dirty := SMap.set 0 s.dirty (a / 0x10000) 3 } else s

/-- Set the dirty bits of every granule of a T1 range (R460). -/
def State.soilRange (s : State) (a n : Nat) : State :=
  (List.range (ceilDiv n 0x10000)).foldl (fun t i => t.soil (a + 0x10000 * i)) s

/-- Read bytes for an agent: what it does not reach reads all ones and is counted (R226). -/
def State.readDpa (s : State) (ag : Agent) (a n : Nat) : State × List Byte :=
  if s.reaches ag a && s.reaches ag (a + n - 1) then ({ s with t1Reads := s.t1Reads + (if s.region a = .t1 then 1 else 0) }, s.ld a n)
  else (s.fadd .tierUnbacked 0 1, List.replicate n 0xFF)

/-- Store bytes for an agent: a store to what it does not reach is discarded and counted (R226). -/
def State.writeDpa (s : State) (ag : Agent) (a : Nat) (bs : List Byte) : State :=
  if s.reaches ag a && s.reaches ag (a + bs.length - 1) then
    ((s.soil a).soil (a + bs.length - 1)).st a bs
  else s.fadd .tierUnbacked 0 1

/-! ## Interrupts -/

/-- Raise an MSI-X vector of a function (R552): sent at once, or pending while masked. -/
def State.raise (s : State) (func vector : Nat) : State :=
  if SMap.get true s.msixMask (func * 32 + vector) then
    { s with msixPend := SMap.set false s.msixPend (func * 32 + vector) true }
  else s.emit (.msix func vector)

/-- A PCI error counter rises; vector 2 of PF0 is raised when ERRIRQ is set (R552). -/
def State.pciError (s : State) (f : Fld) : State :=
  let t := s.fadd f 0 1
  if t.fget .pciCtl 0 = 1 then t.raise 0 2 else t

/-- Counter of a host memory read that fails (R555, R557). -/
def hostErrCounter : HostError → Fld
  | .timeout => .pciCto
  | .ur | .ca => .pciUrca
  | .poison => .pciPoison

/-- The link carries accesses to host memory (R504, R556). -/
def State.linkUp (s : State) : Bool := bitAt (s.fget .glbReadyStatus 0) 0

/-! ## Translation -/

/-- Outcome of a page-table walk (R229, R230). -/
inductive TRes where
  | dpa (a : Nat)
  | host (a : Nat)
  | demand
  /-- An ATS translation of the page is needed. -/
  | ats (page : Nat)
  | readOnly
  /-- An unserved fault; `bad`: an entry broke the table of R229. -/
  | unmapped (bad : Bool)
  deriving DecidableEq, Repr

/-- Index of a level of the tree (R228). -/
def ptIndex (va level : Nat) : Nat :=
  match level with
  | 0 => bitField va 39 9
  | 1 => bitField va 30 9
  | 2 => bitField va 21 9
  | _ => bitField va 16 5

/-- Bytes that a leaf of a level maps. -/
def ptPage (level : Nat) : Nat := if level = 2 then 0x200000 else 0x10000

/-- An entry breaks the table of R229 at this level. NP is for V = 0 only. -/
def pteBad (e level : Nat) : Bool :=
  let v := bitAt e 0
  let leaf := bitAt e 1
  let tgt := bitField e 3 2
  let np := bitField e 5 2
  bitField e 7 5 != 0 || tgt ≥ 2 ||
  (if v then
    np != 0 || (leaf && level < 2) || (!leaf && level == 3) ||
    (leaf && (e / 4096 * 4096) % ptPage level != 0) || (leaf && tgt == 0 && bitField e 52 12 != 0)
  else np ≥ 2)

/-- The walk from a table at a level (R228, R229), `fuel` levels left. -/
def State.walk (s : State) (table va level : Nat) : Nat → Option (Nat × Nat) ⊕ Bool
  | 0 => .inr true
  | fuel + 1 =>
    let e := s.ldNat (table + 8 * ptIndex va level) 8
    if pteBad e level then .inr true
    else if !bitAt e 0 then
      if bitField e 5 2 = 1 then .inl none else .inr false
    else if bitAt e 1 then .inl (some (e, level))
    else s.walk (e / 4096 * 4096 % 2 ^ 52) va (level + 1) fuel

/-- Translate a partition virtual address (R228 to R230); an address of 2^48 or above lies in no page. -/
def State.translate (s : State) (p va : Nat) (write : Bool) : TRes :=
  if (s.part p).root = 0 || va ≥ 2 ^ 48 then .unmapped false
  else match s.walk (s.part p).root va 0 4 with
  | .inr bad => .unmapped bad
  | .inl none => .demand
  | .inl (some (e, level)) =>
    let a := e / 4096 * 4096 + va % ptPage level
    if write && !bitAt e 2 then .readOnly
    else if bitField e 3 2 = 0 then .dpa a
    else match s.atc.find? fun t => t.1 == p + 1 && t.2.1 == a / 4096 * 4096 with
      | some t => .host (t.2.2 + a % 4096)
      | none => .ats (a / 4096 * 4096)

/-- Count a malformed entry (R229). -/
def State.noteWalk (s : State) : TRes → State
  | .unmapped true => s.fadd .tierPteBad 0 1
  | _ => s

/-- Result of a partition access. -/
inductive XRes where
  | ok (data : List Byte)
  /-- It waits to be served: address and why. -/
  | wait (va : Nat) (kind : WaitKind)
  /-- Unserved fault at an address; `ro`: a write to a leaf with W = 0. -/
  | bad (va : Nat) (ro : Bool)
  deriving DecidableEq, Repr

/-- A read of host memory fails: the host ends it with an error, or the link is down, a completion timeout (R555, R556). -/
def State.hostRefuses (s : State) : Option State :=
  if !s.linkUp then some (s.pciError .pciCto)
  else s.hostErr.map fun e => ({ s with hostErr := none } : State).pciError (hostErrCounter e)

/-- Read bytes of a partition's virtual space, piece by piece within 4 KiB pages. Host bytes are free values. -/
def State.vreadGo (s : State) (p va : Nat) (acc : List Byte) : Nat → Nat → State × XRes
  | _, 0 => (s, .ok acc)
  | 0, _ => (s, .ok acc)
  | n, fuel + 1 =>
    let t := s.translate p va false
    let k := min n (4096 - va % 4096)
    match t with
    | .dpa a =>
      let r := s.readDpa (.part p) a k
      r.1.vreadGo p (va + k) (acc ++ r.2) (n - k) fuel
    | .host a =>
      match s.hostRefuses with
      | some t => (t, .bad va false)
      | none => s.vreadGo p (va + k) (acc ++ (List.range k).map fun i => Config.hostByte s.fresh (a + i)) (n - k) fuel
    | .demand => (s, .wait va .demand)
    | .ats _ => (s, .wait va .ats)
    | .readOnly => (s, .bad va false)
    | .unmapped _ => (s.noteWalk t, .bad va false)

/-- Read `n` bytes at a virtual address of a partition. -/
def State.vread (s : State) (p va n : Nat) : State × XRes := s.draw.vreadGo p va [] n (n / 4096 + 2)

/-- Every page of a written range translates for writing; otherwise the first that does not. -/
def State.vprobe (s : State) (p va : Nat) (write : Bool) : Nat → Nat → State × XRes
  | _, 0 => (s, .ok [])
  | 0, _ => (s, .ok [])
  | n, fuel + 1 =>
    let t := s.translate p va write
    let k := min n (4096 - va % 4096)
    match t with
    | .dpa _ | .host _ => s.vprobe p (va + k) write (n - k) fuel
    | .demand => (s, .wait va .demand)
    | .ats _ => (s, .wait va .ats)
    | .readOnly => (s, .bad va true)
    | .unmapped _ => (s.noteWalk t, .bad va false)

/-- Store bytes whose pages have been probed. -/
def State.vstoreGo (s : State) (p va : Nat) (bs : List Byte) : Nat → State
  | 0 => s
  | fuel + 1 =>
    if bs.isEmpty then s
    else
      let k := min bs.length (4096 - va % 4096)
      let s1 := match s.translate p va true with
        | .dpa a => s.writeDpa (.part p) a (bs.take k)
        | .host a => s.emit (.hostWrite p a (bs.take k))
        | _ => s
      s1.vstoreGo p (va + k) (bs.drop k) fuel

/-- Write bytes at a virtual address of a partition: all of them, or none where a page does not translate. -/
def State.vwrite (s : State) (p va : Nat) (bs : List Byte) : State × XRes :=
  match s.vprobe p va true bs.length (bs.length / 4096 + 2) with
  | (s1, .ok _) => (s1.vstoreGo p va bs (bs.length / 4096 + 2), .ok [])
  | r => r

/-- Enter a translation that waits, once per requester and address; ATS asks the host (R553). -/
def State.enterWait (s : State) (w : TransWait) : State :=
  if s.waits.any fun x => x.req == w.req && x.va == w.va then s
  else
    let s1 := { s with waits := s.waits ++ [w] }
    match w.kind with
    | .ats =>
      match s.translate w.part w.va w.write with
      | .ats page => s1.emit (.atsRequest (w.part + 1) page)
      | _ => s1
    | _ => s1

/-- The requester waits for a translation. -/
def State.waitsFor (s : State) (r : Requester) : Bool := s.waits.any fun w => w.req == r

/-! ## Page tables (written by the tier manager, R230) -/

/-- A new table in the system region. -/
def State.newTable (s : State) : State × Nat := ({ s with tableNext := s.tableNext + 0x1000 }, s.tableNext)

/-- The root of a partition's tree, made where there is none. -/
def State.ensureRoot (s : State) (p : Nat) : State × Nat :=
  if (s.part p).root = 0 then
    let r := s.newTable
    (r.1.setPart p fun q => { q with root := r.2 }, r.2)
  else (s, (s.part p).root)

/-- The DPA of the entry of `va` at `level`, with the tables above it made. -/
def State.pteSlot (s : State) (table va level target : Nat) : Nat → State × Nat
  | 0 => (s, table)
  | fuel + 1 =>
    let slot := table + 8 * ptIndex va level
    if level = target then (s, slot)
    else
      let e := s.ldNat slot 8
      if bitAt e 0 && !bitAt e 1 then s.pteSlot (e / 4096 * 4096 % 2 ^ 52) va (level + 1) target fuel
      else
        let r := s.newTable
        let s2 := r.1.stNat slot 8 (r.2 + 1)
        s2.pteSlot r.2 va (level + 1) target fuel

/-- Write one leaf entry. -/
def State.putLeaf (s : State) (p va level e : Nat) : State :=
  let r := s.ensureRoot p
  let q := r.1.pteSlot r.2 va 0 level 5
  q.1.stNat q.2 8 e

/-- A leaf entry: valid, to a DPA, writable or not (R229, R230). -/
def leafEntry (dpa : Nat) (w : Bool) : Nat := dpa + 3 + (if w then 4 else 0)

/-- Map a range of pages to DPA, with 2 MiB leaves where both sides are aligned. -/
def State.mapGo (s : State) (p va dpa : Nat) (w : Bool) : Nat → Nat → State
  | _, 0 => s
  | size, fuel + 1 =>
    if size = 0 then s
    else if va % 0x200000 = 0 && dpa % 0x200000 = 0 && size ≥ 0x200000 then
      (s.putLeaf p va 2 (leafEntry dpa w)).mapGo p (va + 0x200000) (dpa + 0x200000) w (size - 0x200000) fuel
    else
      (s.putLeaf p va 3 (leafEntry dpa w)).mapGo p (va + 0x10000) (dpa + 0x10000) w (size - 0x10000) fuel

/-- Map `size` bytes (rounded up to 64 KiB) at `va`. -/
def State.mapRange (s : State) (p va dpa size : Nat) (w : Bool) : State :=
  s.mapGo p va dpa w (ceilDiv size 0x10000 * 0x10000) (ceilDiv size 0x10000)

/-- Replace every valid leaf of a range by an invalid entry with NP. -/
def State.unmapGo (s : State) (p va np : Nat) : Nat → Nat → State
  | _, 0 => s
  | size, fuel + 1 =>
    if size = 0 then s
    else
      let (level, step) := match s.walk (s.part p).root va 0 4 with
        | .inl (some (_, 2)) => if va % 0x200000 = 0 && size ≥ 0x200000 then (2, 0x200000) else (3, 0x10000)
        | _ => (3, 0x10000)
      (s.putLeaf p va level (np * 32)).unmapGo p (va + step) np (size - step) fuel

/-- Take a range out of the mapping: DEMAND (NP 1) or UNMAPPED (NP 0). -/
def State.unmapRange (s : State) (p va size : Nat) (demand : Bool) : State :=
  if (s.part p).root = 0 then s
  else s.unmapGo p va (if demand then 1 else 0) (ceilDiv size 0x10000 * 0x10000) (ceilDiv size 0x10000)

end Sys2Proof.Machine
end

