-- ==== Sys2Proof/Machine/Sha.lean ====
section
/-! DEFINITION. SHA-384, which the change log, the measurements and the seed entries use (R385, R390, R518). The function is
that of FIPS 180-4; the spec names it without giving it (PRESUMED, log entry 12). -/

namespace Sys2Proof.Machine

/-- The 64-bit modulus. -/
def m64 : Nat := 0x10000000000000000

/-- The first 80 primes: numbers below 410 that none of the primes below 20 divides, and these primes themselves. -/
def shaPrimes : List Nat :=
  (List.range 410).filter fun n => decide (2 ≤ n) && [2, 3, 5, 7, 11, 13, 17, 19].all fun d => n == d || n % d != 0

/-- The whole part of the `k`-th root of `n`, bit by bit from bit `i - 1` down; `r` holds the bits found so far. -/
def shaRoot (k n : Nat) : Nat → Nat → Nat
  | 0, r => r
  | i + 1, r => shaRoot k n i (if (r + 2 ^ i) ^ k ≤ n then r + 2 ^ i else r)

/-- The first 64 bits of the fraction of the `k`-th root of `p`: FIPS 180-4 makes its constants of primes in this way. -/
def shaFraction (k p : Nat) : Nat := shaRoot k (p * 2 ^ (64 * k)) 69 0 % m64

/-- Round constants: from the cube roots of the first 80 primes. -/
def shaK : List Nat := shaPrimes.map (shaFraction 3)

/-- Initial hash value of SHA-384: from the square roots of the 9th to the 16th prime. -/
def shaH : List Nat := ((shaPrimes.drop 8).take 8).map (shaFraction 2)

/-- Rotate a 64-bit word right. -/
def rotr64 (x n : Nat) : Nat := (x / 2 ^ n) ||| (x * 2 ^ (64 - n) % m64)

/-- The small sigma functions of the message schedule. -/
def shaSmall0 (x : Nat) : Nat := rotr64 x 1 ^^^ rotr64 x 8 ^^^ (x / 2 ^ 7)
def shaSmall1 (x : Nat) : Nat := rotr64 x 19 ^^^ rotr64 x 61 ^^^ (x / 2 ^ 6)
/-- The big sigma functions of a round. -/
def shaBig0 (x : Nat) : Nat := rotr64 x 28 ^^^ rotr64 x 34 ^^^ rotr64 x 39
def shaBig1 (x : Nat) : Nat := rotr64 x 14 ^^^ rotr64 x 18 ^^^ rotr64 x 41

/-- One message-schedule word from the sixteen before it, newest first. -/
def shaNext (w : List Nat) : Nat :=
  (shaSmall1 (w.getD 1 0) + w.getD 6 0 + shaSmall0 (w.getD 14 0) + w.getD 15 0) % m64

/-- The schedule, newest word first. -/
def shaExtend : Nat → List Nat → List Nat
  | 0, w => w
  | n + 1, w => shaExtend n (shaNext w :: w)

/-- The eight working variables. -/
structure ShaVars where
  a : Nat
  b : Nat
  c : Nat
  d : Nat
  e : Nat
  f : Nat
  g : Nat
  h : Nat

/-- One round with round constant and schedule word. -/
def shaRound (v : ShaVars) (k w : Nat) : ShaVars :=
  let ch := (v.e &&& v.f) ^^^ ((m64 - 1 - v.e) &&& v.g)
  let mj := (v.a &&& v.b) ^^^ (v.a &&& v.c) ^^^ (v.b &&& v.c)
  let t1 := v.h + shaBig1 v.e + ch + k + w
  let t2 := shaBig0 v.a + mj
  { a := (t1 + t2) % m64, b := v.a, c := v.b, d := v.c, e := (v.d + t1) % m64, f := v.e, g := v.f, h := v.g }

/-- All rounds. -/
def shaRounds : List Nat → List Nat → ShaVars → ShaVars
  | k :: ks, w :: ws, v => shaRounds ks ws (shaRound v k w)
  | _, _, v => v

/-- Big-endian number of bytes. -/
def ofBytesBE (bs : List Byte) : Nat := ofBytes bs.reverse

/-- `n` big-endian bytes of a number. -/
def toBytesBE (n v : Nat) : List Byte := (toBytes n v).reverse

/-- The sixteen words of a block. -/
def shaWords : Nat → List Byte → List Nat
  | 0, _ => []
  | n + 1, bs => ofBytesBE (bs.take 8) :: shaWords n (bs.drop 8)

/-- The hash after one block of 128 bytes. -/
def shaBlock (h : List Nat) (block : List Byte) : List Nat :=
  let w := (shaExtend 64 (shaWords 16 block).reverse).reverse
  let v0 : ShaVars := ⟨h.getD 0 0, h.getD 1 0, h.getD 2 0, h.getD 3 0, h.getD 4 0, h.getD 5 0, h.getD 6 0, h.getD 7 0⟩
  let v := shaRounds shaK w v0
  List.zipWith (fun x y => (x + y) % m64) h [v.a, v.b, v.c, v.d, v.e, v.f, v.g, v.h]

/-- Hash of padded bytes, block by block. -/
def shaBlocks : Nat → List Nat → List Byte → List Nat
  | 0, h, _ => h
  | n + 1, h, bs => if bs.isEmpty then h else shaBlocks n (shaBlock h (bs.take 128)) (bs.drop 128)

/-- Padding of a message. -/
def shaPad (m : List Byte) : List Byte :=
  m ++ [0x80] ++ List.replicate ((239 - m.length % 128) % 128) 0 ++ toBytesBE 16 (8 * m.length)

/-- SHA-384 of a message: 48 bytes. -/
def sha384 (m : List Byte) : List Byte :=
  (((shaBlocks (m.length / 128 + 2) shaH (shaPad m)).take 6).map (toBytesBE 8)).flatten

end Sys2Proof.Machine
end

