-- ==== Sys2Proof/Machine/Mill.lean ====
section
/-! DEFINITION. What the mill writes unprompted and the mailbox protocol: events (R380, R389), the change log (R390), the
fault log (R456), acceptance, checking and answering of requests (R374 to R383). -/

namespace Sys2Proof.Machine

/-! ## Events and logs -/

/-- Number of a mailbox: partitions 0 to 63, PF0 64, sideband 65. -/
def mbxNum : Mbx → Nat
  | .part p => p
  | .pf0 => 64
  | .sideband => 65

/-- PCIe function of a mailbox: 0 PF0, 1 + p VF p. -/
def mbxFunc (m : Nat) : Nat := if m = 64 then 0 else m + 1

/-- Mailbox record. -/
def State.mbx (s : State) (m : Nat) : Mailbox := SMap.get {} s.mbxs m

/-- Change a mailbox record. -/
def State.setMbx (s : State) (m : Nat) (f : Mailbox → Mailbox) : State :=
  { s with mbxs := SMap.set {} s.mbxs m (f (s.mbx m)) }

/-- Generation of a mailbox (R378). -/
def State.mbxGen (s : State) (m : Nat) : Nat := if m = 65 then (s.mbx 65).sbGen else s.fget .mbxStatusGen m

/-- Header of a message (R376). -/
def msgHeader (op seq gen part len status flags slot logidx : Nat) : List Byte :=
  toBytes 2 op ++ toBytes 2 seq ++ toBytes 1 gen ++ toBytes 1 part ++ toBytes 2 len ++ toBytes 2 status ++
    toBytes 1 flags ++ toBytes 1 slot ++ toBytes 4 logidx

/-- Write an event into a mailbox, or drop it (R375, R380). -/
def State.event (s : State) (m code part : Nat) (details : List Byte) : State :=
  let tail := s.fget .mbxEvtail m
  if (tail + 2 ^ 32 - s.fget .mbxEvack m) % 2 ^ 32 ≥ 16 then
    (s.fadd .mbxEvdrop m 1).setMbx m fun b => { b with evLost := true }
  else
    let body := toBytes 8 s.time ++ details
    let msg := padTo 256 (msgHeader code tail (s.fget .mbxStatusGen m) part body.length 0
      (if (s.mbx m).evLost then 6 else 2) 0 0xFFFFFFFF ++ body)
    let s1 := { s with slots := cellsSet s.slots (0x4000 * m + 0x3000 + 0x100 * (tail % 16)) msg }
    let s2 := (s1.fadd .mbxEvtail m 1).setMbx m fun b => { b with evLost := false }
    if s2.fget .mbxCtlIrqevt m = 1 then s2.raise (mbxFunc m) (if m = 64 then 1 else 17) else s2

/-- An event about a partition: its mailbox and that of PF0 (R380). -/
def State.partEvent (s : State) (p code : Nat) (details : List Byte) : State :=
  (s.event p code p details).event 64 code p details

/-- A device event: PF0 and every formed partition (R380). -/
def State.devEvent (s : State) (code : Nat) (details : List Byte) : State :=
  (List.range 64).foldl (fun t p => if t.formed p then t.event p code 0xFF details else t) (s.event 64 code 0xFF details)

/-- A consumer takes up to 32 conditioned bytes (R208): those of the newest digest that no consumer has taken, and beyond them bytes of
windows that reach the conditioner in between, free values (log entry 19). -/
def State.conditioned (s : State) (n : Nat) : State × List Byte :=
  let own := s.noiseOut.take n
  ({ s with noiseOut := s.noiseOut.drop n, fresh := s.fresh + 1 },
   own ++ (toBytes 32 (Config.noise s.fresh).toNat).take (n - own.length))

/-- CHAIN of the newest change-log entry; zeros before entry 0 (R390). -/
def State.chain (s : State) : List Byte :=
  match s.changeLog with
  | [] => List.replicate 48 0
  | e :: _ => (e.drop 128).take 48

/-- Append a change-log entry (R390); the newest 65,536 are kept. -/
def State.logChange (s : State) (src part cls op seq gen : Nat) (old new : List Byte) : State :=
  let salt := s.conditioned 16
  let body := toBytes 8 s.changeNext ++ toBytes 8 s.time ++ toBytes 1 src ++ toBytes 1 part ++ toBytes 2 cls ++
    toBytes 2 op ++ toBytes 2 seq ++ toBytes 1 gen ++ List.replicate 7 0 ++ padTo 16 (old.take 16) ++
    padTo 16 (new.take 16) ++ salt.2
  let digest := sha384 body
  let entry := padTo 192 (body ++ digest ++ sha384 (s.chain ++ digest))
  { salt.1 with changeLog := (entry :: s.changeLog).take 65536, changeNext := s.changeNext + 1 }

/-- An entry for a change of the mill's own (R390, R575). -/
def State.logMill (s : State) (part cls : Nat) (old new : List Byte) : State := s.logChange 3 part cls 0 0 0 old new

/-- Fields of a fault-log entry that are not always the same (R456). -/
structure FaultInfo where
  cls : Nat
  part : Nat := 0xFF
  action : Nat := 0
  unit : Nat := 0
  ckpt : Nat := 2 ^ 64 - 1
  phys : Nat := 2 ^ 32 - 1
  rtime : Nat := 2 ^ 32 - 1
  detail : Nat := 0

/-- Append a fault-log entry (R456); the newest 4,096 are kept. -/
def State.logFault (s : State) (f : FaultInfo) : State :=
  let entry := padTo 64 (toBytes 8 s.faultNext ++ toBytes 8 s.time ++ toBytes 1 f.cls ++ toBytes 1 f.part ++
    toBytes 1 f.action ++ toBytes 1 0 ++ toBytes 4 f.unit ++ toBytes 8 f.ckpt ++ toBytes 4 f.phys ++ toBytes 4 f.rtime ++
    toBytes 8 f.detail)
  { s with faultLog := (entry :: s.faultLog).take 4096, faultNext := s.faultNext + 1 }.trace 6 f.part 0xFF f.unit (toBytes 1 f.cls)

/-- UNIT word (R457). -/
def unitWord (kind n : Nat) : Nat := kind * 2 ^ 24 + n % 2 ^ 24

/-- A HARDFAULT event (R389) about a partition, or the device. -/
def State.hardFault (s : State) (part : Option Nat) (unit cls : Nat) : State :=
  match part with
  | some p => s.partEvent p 0x983 (toBytes 4 unit ++ toBytes 1 cls)
  | none => s.devEvent 0x983 (toBytes 4 unit ++ toBytes 1 cls)

/-! ## The command tables -/

/-- A row of the command tables (R381): who may issue it, whether it takes its partition from PART, whether it is marked L,
and the payload bytes it uses as (first byte, count). -/
structure CmdRow where
  op : Nat
  p : Bool
  f : Bool
  sb : Bool
  onPart : Bool
  l : Bool := false
  uses : List (Nat × Nat) := []
  deriving DecidableEq, Repr

/-- Groups 0x01 to 0x03. -/
def cmdRows1 : List CmdRow := [
  { op := 0x101, p := true, f := true, sb := true, onPart := false },
  { op := 0x102, p := true, f := true, sb := true, onPart := false },
  { op := 0x201, p := false, f := true, sb := false, onPart := true, uses := [(16, 11)] },
  { op := 0x202, p := false, f := true, sb := false, onPart := true },
  { op := 0x203, p := true, f := true, sb := false, onPart := true },
  { op := 0x204, p := true, f := true, sb := false, onPart := true, uses := [(16, 1), (24, 8)] },
  { op := 0x205, p := false, f := true, sb := false, onPart := true, uses := [(16, 24)] },
  { op := 0x206, p := true, f := true, sb := false, onPart := true, uses := [(16, 1), (24, 32)] },
  { op := 0x301, p := true, f := true, sb := false, onPart := true, uses := [(16, 3), (24, 14)] },
  { op := 0x302, p := true, f := true, sb := false, onPart := true, uses := [(16, 6)] },
  { op := 0x303, p := true, f := true, sb := false, onPart := true, l := true, uses := [(16, 5), (24, 6)] },
  { op := 0x304, p := true, f := true, sb := false, onPart := true, uses := [(16, 5)] },
  { op := 0x305, p := true, f := true, sb := false, onPart := true, uses := [(16, 6)] },
  { op := 0x306, p := true, f := true, sb := false, onPart := true, l := true, uses := [(16, 5), (24, 22)] },
  { op := 0x307, p := true, f := true, sb := false, onPart := true, uses := [(16, 4)] },
  { op := 0x308, p := true, f := true, sb := false, onPart := true, uses := [(16, 4)] },
  { op := 0x309, p := true, f := true, sb := false, onPart := true, uses := [(16, 1), (18, 2)] },
  { op := 0x30A, p := true, f := true, sb := false, onPart := true, l := true, uses := [(16, 22)] },
  { op := 0x30B, p := false, f := true, sb := false, onPart := false, uses := [(16, 1)] }]

/-- Groups 0x04 to 0x0A. -/
def cmdRows2 : List CmdRow := [
  { op := 0x401, p := false, f := true, sb := false, onPart := false, l := true, uses := [(16, 1)] },
  { op := 0x402, p := true, f := true, sb := true, onPart := false },
  { op := 0x403, p := false, f := true, sb := true, onPart := false, uses := [(16, 2)] },
  { op := 0x501, p := true, f := true, sb := true, onPart := false, uses := [(16, 38)] },
  { op := 0x502, p := false, f := true, sb := false, onPart := false, uses := [(16, 1), (32, 96)] },
  { op := 0x503, p := false, f := true, sb := false, onPart := false, uses := [(16, 1)] },
  { op := 0x504, p := true, f := true, sb := false, onPart := false, uses := [(16, 1), (24, 6)] },
  { op := 0x601, p := false, f := true, sb := false, onPart := false, uses := [(16, 2)] },
  { op := 0x602, p := false, f := true, sb := false, onPart := false, uses := [(16, 3), (20, 2)] },
  { op := 0x603, p := false, f := true, sb := false, onPart := false, uses := [(16, 6), (24, 2)] },
  { op := 0x604, p := false, f := true, sb := false, onPart := false, uses := [(16, 3)] },
  { op := 0x605, p := true, f := true, sb := true, onPart := false },
  { op := 0x701, p := true, f := true, sb := false, onPart := true, uses := [(16, 128)] },
  { op := 0x702, p := true, f := true, sb := false, onPart := true, l := true, uses := [(16, 4)] },
  { op := 0x703, p := true, f := true, sb := false, onPart := true, uses := [(16, 4)] },
  { op := 0x704, p := true, f := true, sb := false, onPart := true, uses := [(16, 4)] },
  { op := 0x801, p := true, f := true, sb := false, onPart := false, l := true, uses := [(16, 2), (24, 8)] },
  { op := 0x802, p := true, f := true, sb := false, onPart := false },
  { op := 0x901, p := true, f := true, sb := false, onPart := false, uses := [(16, 16)] },
  { op := 0x902, p := true, f := true, sb := false, onPart := true, uses := [(16, 1), (18, 3)] },
  { op := 0x903, p := true, f := true, sb := false, onPart := true },
  { op := 0x904, p := true, f := true, sb := false, onPart := true, l := true, uses := [(16, 8)] },
  { op := 0x905, p := false, f := true, sb := false, onPart := false, uses := [(16, 16)] },
  { op := 0xA01, p := true, f := true, sb := true, onPart := false, uses := [(16, 16)] },
  { op := 0xA02, p := true, f := true, sb := true, onPart := false }]

/-- The row of an opcode. -/
def cmdRow (op : Nat) : Option CmdRow := (cmdRows1 ++ cmdRows2).find? fun r => r.op == op

/-- The first byte of a range that is not zero. -/
def firstNonzero (r : List Byte) (o : Nat) : Nat → Option Nat
  | 0 => none
  | n + 1 => if byteAt r o ≠ 0 then some o else firstNonzero r (o + 1) n

/-- The first payload byte outside the used ranges that is not zero. -/
def reservedByte (r : List Byte) (uses : List (Nat × Nat)) : Option Nat :=
  (List.range' 16 240).find? fun o => byteAt r o ≠ 0 && !uses.any fun u => u.1 ≤ o && o < u.1 + u.2

/-- `some o` where a condition on the field at byte `o` fails. -/
def need (c : Bool) (o : Nat) : Option Nat := if c then none else some o

/-- The lowest offset at which a check fails. -/
def firstBad (l : List (Option Nat)) : Option Nat := (l.filterMap id).min?

/-- Profiles, largest level, largest picture and chroma codes of a direction and codec (R311). -/
structure VidRow where
  profiles : List Nat
  level : Nat
  depths : List Nat
  chromas : List Nat
  maxW : Nat
  maxH : Nat
  deriving DecidableEq, Repr

def vidRow (dir codec : Nat) : VidRow :=
  match dir, codec with
  | 0, 1 => ⟨[66, 77, 100, 110], 62, [8, 10], [0, 1], 8192, 4352⟩
  | 0, 2 => ⟨[1, 2, 3, 4], 62, [8, 10], [0, 1, 3], 8192, 4352⟩
  | 0, _ => ⟨[0, 1], 19, [8, 10], [0, 1, 3], 8192, 4352⟩
  | _, 1 => ⟨[77, 100], 52, [8], [1], 4096, 2176⟩
  | _, 2 => ⟨[1, 2], 51, [8, 10], [1], 4096, 2176⟩
  | _, _ => ⟨[0], 13, [8, 10], [1], 4096, 2176⟩

/-- The checks of a session block (R311, R313): offset of the first offending byte. -/
def sessBad (b : List Byte) : Option Nat :=
  let g := byteAt b
  let n := fld b
  let row := vidRow (g 0) (g 1)
  let enc : List (Option Nat) := if g 0 = 0 then [] else [
    need (g 56 ≤ 2) 56, need (g 57 ≤ (if g 1 = 3 then 255 else 51)) 57, need (g 58 ≤ 1) 58, need (1 ≤ g 59 && g 59 ≤ 2) 59,
    need (g 66 ≤ 2) 66, need (1 ≤ g 67 && g 67 ≤ 4) 67, need (g 66 = 0 || (2 ≤ n 68 2 && n 68 2 ≤ 1024)) 68,
    need (g 70 ≤ (if g 1 = 2 then 1 else 0)) 70, need (g 71 = 0) 71]
  firstBad ([need (g 0 ≤ 1) 0, need (1 ≤ g 1 && g 1 ≤ 3) 1, need (row.profiles.contains (g 2)) 2, need (g 3 ≤ row.level) 3,
    need (64 ≤ n 4 2 && n 4 2 ≤ row.maxW && n 4 2 % 2 = 0) 4, need (64 ≤ n 6 2 && n 6 2 ≤ row.maxH && n 6 2 % 2 = 0) 6,
    need (row.depths.contains (g 8)) 8, need (row.chromas.contains (g 9)) 9, need (g 10 ≤ 1) 10,
    need (g 10 = 0 || [3, 4, 6, 7].contains (g 11)) 11, need (g 12 ≤ 3) 12, need (g 13 < 8) 13,
    need (g 14 = 0 || (2 ≤ g 14 && g 14 ≤ 16)) 14, need (1 ≤ g 15 && g 15 ≤ 4) 15, need (n 16 4 % 64 = 0) 16,
    need (g 10 = 1 || n 20 4 % 64 = 0) 20, need (g 10 = 1 || n 24 4 % 64 = 0) 24,
    need (n 28 2 % 2 = 0 && n 28 2 ≥ n 4 2) 28, need (n 30 2 % 2 = 0 && n 30 2 ≥ n 6 2) 30] ++ enc ++
    [firstNonzero b 80 48])

/-- The range checks of a command's own fields (R376, R384 to R386, R390 and the chapters the tables name): the offset of
the first offending byte. -/
def cmdFieldBad (op : Nat) (r : List Byte) : Option Nat :=
  let b := byteAt r
  let n := fld r
  match op with
  | 0x201 => firstBad [need (n 16 8 ≠ 0) 16, need (b 24 ≤ 1) 24, need (b 26 ≤ 128) 26]
  | 0x204 => firstBad [need (1 ≤ b 16 && b 16 ≤ 3) 16,
      need (n 24 8 ≤ (if b 16 = 3 then 4 else 1)) 24]
  | 0x205 => firstBad ([16, 24, 32].map fun o => need (n o 8 % 0x10000 = 0 || n o 8 = 2 ^ 64 - 1) o)
  | 0x206 => firstBad [need (b 16 ≤ 2) 16, need (b 16 = 1 || n 24 32 = 0) 24]
  | 0x301 => firstBad [need (1 ≤ b 16 && b 16 ≤ 5) 16, need (1 ≤ b 17 && b 17 ≤ 3) 17,
      need (if b 16 = 3 then b 18 ≤ 9 else b 18 = 0) 18, need (n 24 8 ≠ 0) 24, need (n 32 6 % 0x10000 = 0) 32]
  | 0x302 => firstBad [need (b 20 < 64) 20, need (b 21 ≤ 1) 21]
  | 0x303 => firstBad [need (1 ≤ b 20 && b 20 ≤ 2) 20, need (n 24 6 % 0x10000 = 0) 24]
  | 0x304 => need (1 ≤ b 20 && b 20 ≤ 3) 20
  | 0x305 => firstBad [need (1 ≤ b 20 && b 20 ≤ 3) 20, need (b 21 ≤ 1) 21]
  | 0x306 => firstBad [need (2 ≤ b 20 && b 20 ≤ 3) 20, need (n 24 8 % 4096 = 0) 24, need (n 32 8 % 4096 = 0 && n 32 8 ≠ 0) 32]
  | 0x309 => need (b 16 ≤ 1) 16
  | 0x401 => need (b 16 ≤ 4) 16
  | 0x403 => need (n 16 2 = 0 || (1000 ≤ n 16 2 && n 16 2 ≤ 2000)) 16
  | 0x502 => need (b 16 ≤ 3) 16
  | 0x503 => need (b 16 ≤ 2) 16
  | 0x601 => need (n 16 2 < 4096) 16
  | 0x602 => firstBad [need (b 16 ≤ 7) 16, need (b 17 ≤ 1) 17, need (b 18 ≤ 1) 18, need (n 20 2 < 4096 || n 20 2 = 0xFFFF) 20]
  | 0x603 => need (1 ≤ n 24 2 && n 24 2 ≤ 4096) 24
  | 0x604 => firstBad [need (n 16 2 < 4096) 16, need (b 18 ≤ 1) 18]
  | 0x701 => (sessBad ((r.drop 16).take 128)).map (16 + ·)
  | 0x801 => firstBad [need (1 ≤ b 16 && b 16 ≤ 3) 16, need (b 17 ≤ 4) 17,
      need (!(b 17 = 0 && n 24 8 = 0) && !(b 17 = 1 && n 24 8 > 7)) 24]
  | 0x902 => firstBad [need (b 16 ≤ 1) 16, need (n 18 2 < 4096) 18, need (b 20 < 64) 20]
  | _ => none

/-- A request is malformed (R376, R381): offset of the first offending byte. -/
def reqBad (m : Nat) (r : List Byte) : Option Nat :=
  let op := fld r 0 2
  let part := byteAt r 5
  let len := fld r 6 2
  match cmdRow op with
  | none => some 0
  | some row =>
    firstBad [
      need (part < 64 || part = 0xFF) 5,
      need (!(m = 64 && part = 0xFF && row.onPart)) 5,
      need (len ≤ 240) 6,
      firstNonzero r 8 8,
      firstNonzero r (16 + len) (240 - len),
      reservedByte r row.uses,
      need (!(op = 0x501 && m = 64 && part = 0xFF && fld r 48 6 ≠ 0)) 48,
      need (!(op = 0x501 && m = 65 && fld r 48 6 ≠ 0)) 48,
      cmdFieldBad op r]

/-- A request is denied (R381). -/
def reqDenied (m : Nat) (r : List Byte) : Bool :=
  match cmdRow (fld r 0 2) with
  | none => false
  | some row =>
    if m = 64 then !row.f
    else if m = 65 then !row.sb
    else !row.p || byteAt r 5 ≠ m

/-- A request acts on the partition that PART names (R381): the rows marked so, and MEASURE with REPORT_VA non-zero. -/
def actsOnPart (op : Nat) (r : List Byte) : Bool := (cmdRow op).any (·.onPart) || (op = 0x501 && fld r 48 6 ≠ 0)

/-- Commands that an unformed partition's mailbox still serves (R396). -/
def servedUnformed (op : Nat) : Bool := [0x101, 0x102, 0x402, 0x501, 0xA01, 0xA02].contains op

/-! ## Answering -/

/-- Replace the request with an acceptance stamp. -/
def setReq (l : List MbxReq) (stamp : Nat) (f : MbxReq → MbxReq) : List MbxReq :=
  l.map fun r => if r.stamp = stamp then f r else r

/-- The 256 B response to a request. -/
def responseBytes (r : MbxReq) : List Byte :=
  if r.again.isEmpty then
    padTo 256 (msgHeader (fld r.data 0 2) (fld r.data 2 2) r.gen (byteAt r.data 5) r.payload.length r.status 0 r.slot
      r.logidx ++ r.payload)
  else patchAt r.again 10 [BitVec.ofNat 8 (byteAt r.again 10 ||| 1)]

/-- Keep INFLIGHT equal to the requests not yet answered (R373). -/
def State.syncInflight (s : State) (m : Nat) : State :=
  if m = 65 then s else s.fset .mbxStatusInflight m (s.mbx m).reqs.length

/-- Whether a request's response may be written now: an ended L command always, an answered one when no earlier request
that is not L is unanswered (R377). -/
def writable (l : List MbxReq) : Option MbxReq :=
  match l with
  | [] => none
  | r :: rest =>
    if r.phase = 2 || r.phase = 3 then some r
    else if r.phase = 4 then none
    else if r.phase = 1 || (cmdRow (fld r.data 0 2)).any (·.l) then writable rest
    else rest.find? fun x => x.phase = 3

/-- Write one response, or discard it when its generation is old (R375, R378). -/
def State.writeResponse (s : State) (m : Nat) (r : MbxReq) : State :=
  let resp := responseBytes r
  let gone := s.setMbx m fun b => { b with reqs := b.reqs.filter fun x => x.stamp ≠ r.stamp }
  if r.gen ≠ s.mbxGen m then (gone.fadd .mbxStale m 1).syncInflight m
  else
    let keep := gone.setMbx m fun b =>
      { b with kept := if r.keep then ((r.data, resp) :: b.kept).take 64 else b.kept }
    if m = 65 then keep.emit (.mctp 0x7E (toBytes 2 0x1F6A ++ resp))
    else
      let tail := s.fget .mbxRsptail m
      let s1 := { keep with slots := cellsSet keep.slots (0x4000 * m + 0x2000 + 0x100 * (tail % 16)) resp }
      let s2 := (s1.fadd .mbxRsptail m 1).syncInflight m
      if s2.fget .mbxCtlIrqrsp m = 1 then s2.raise (mbxFunc m) (if m = 64 then 0 else 16) else s2

/-- There is room for a response (R375). -/
def State.rspRoom (s : State) (m : Nat) : Bool :=
  m = 65 || (s.fget .mbxRsptail m + 2 ^ 32 - s.fget .mbxRspack m) % 2 ^ 32 ≠ 16

/-- Write every response that order and room allow (R375, R377). -/
def State.flushMbx (s : State) (m : Nat) : Nat → State
  | 0 => s
  | fuel + 1 =>
    match writable (s.mbx m).reqs with
    | none => s
    | some r =>
      if r.gen ≠ s.mbxGen m || s.rspRoom m then (s.writeResponse m r).flushMbx m fuel else s

/-- A refused request: status and, for MALFORMED, the offset (R383). -/
def refusal (st : Nat) (off : Option Nat) : List Byte :=
  match off with
  | some o => toBytes 2 o
  | none => if st = 1 then toBytes 2 0 else []

/-- The generation to carry in the answer. -/
def State.checkRequest (s : State) (m : Nat) (r : MbxReq) : MbxReq :=
  let seq := fld r.data 2 2
  let deny (st : Nat) (pl : List Byte) (keep : Bool) : MbxReq :=
    { r with phase := 2, status := st, payload := pl, keep := keep }
  let others := (s.mbx m).reqs.filter fun x => x.stamp ≠ r.stamp && x.phase ≠ 4 && x.gen = r.gen && x.again.isEmpty && x.keep
  if byteAt r.data 4 ≠ r.gen then deny 0xD [] false
  else if others.any fun x => fld x.data 2 2 = seq then deny 0xE [] false
  else match (s.mbx m).kept.find? fun k => fld k.1 2 2 = seq with
    | some k => if k.1 = r.data then { r with phase := 2, again := k.2, keep := false } else deny 0xE [] false
    | none =>
      match reqBad m r.data with
      | some o => deny 1 (refusal 1 (some o)) true
      | none => if reqDenied m r.data then deny 2 [] true else { r with phase := 0 }

/-- The mill serves the mailboxes (R373). -/
def State.millServes (s : State) (m : Nat) : Bool :=
  bitAt (s.fget .glbReadyStatus 0) 1 && s.fget .mbxStatusRestarting (min m 64) = 0

/-- The mill firmware runs (R26, R466). -/
def State.millUp (s : State) : Bool := bitAt (s.fget .glbReadyStatus 0) 1 && s.fget .mbxStatusRestarting 64 = 0

/-- Accept a copy of a request (R374, R377): checked at once when the mill serves the mailbox, else held. -/
def State.acceptRequest (s : State) (m slot : Nat) (data : List Byte) : State :=
  let r : MbxReq := { data := data, slot := slot, gen := s.mbxGen m, stamp := s.stamp, phase := 4 }
  let r1 := if s.millServes m then s.checkRequest m r else r
  let s1 := (s.tick.setMbx m fun b => { b with reqs := b.reqs ++ [r1] }).syncInflight m
  s1.flushMbx m 17

/-- Check the requests held while the mill did not serve the mailbox. -/
def State.releaseHeld (s : State) (m : Nat) : State :=
  let go := (s.mbx m).reqs.foldl (fun (t : State) (r : MbxReq) =>
    if r.phase = 4 then t.setMbx m fun b => { b with reqs := setReq b.reqs r.stamp fun x => t.checkRequest m x } else t) s
  go.flushMbx m 17

/-- What a command answers. -/
inductive Ans where
  /-- It cannot run yet: a translation waits, or a function it needs is not ready (R505). -/
  | later
  /-- Answered: status and payload from byte 16. -/
  | now (status : Nat) (payload : List Byte)
  /-- As `now`, with a change-log entry appended just before. -/
  | logged (payload : List Byte)
  /-- A command marked L that has started. -/
  | running (payload : List Byte)
  deriving DecidableEq, Repr

/-- What a command touches (R377): 1 settings of the partition in PART, 2 the tier object and 3 the session that the handle at byte 16
names, else a device setting of its own; 0 nothing that another command touches. -/
def reqTouches (op : Nat) : Nat :=
  if [0x201, 0x202, 0x203, 0x204, 0x205, 0x206, 0x309, 0x902, 0x903, 0x904].contains op then 1
  else if [0x302, 0x303, 0x304, 0x305, 0x306, 0x307, 0x308, 0x30A].contains op then 2
  else if [0x702, 0x703, 0x704].contains op then 3
  else if [0x601, 0x602, 0x603, 0x604].contains op then 6
  else if [0x30B, 0x401, 0x403, 0x502, 0x503, 0x801].contains op then op
  else 0

/-- Handles of the tier objects or the session that a request names (R385, R387). -/
def reqHandles (a : List Byte) : List Nat := if fld a 0 2 = 0x30A then [fld a 16 4, fld a 20 4] else [fld a 16 4]

/-- A request touches what an earlier one `a` touches (R377): the same partition setting, tier object, session or device setting; forming
a partition touches every setting of it, and skeins that an earlier command gives up or takes. -/
def reqConflict (a b : List Byte) : Bool :=
  let oa := fld a 0 2
  let ob := fld b 0 2
  let forms (o : Nat) : Bool := o = 0x201 || o = 0x202
  let t := reqTouches oa
  ((forms oa || forms ob) && byteAt a 5 = byteAt b 5) || (oa = 0x202 && ob = 0x201) ||
    (oa = 0x201 && ob = 0x201 && (fld a 16 8 &&& fld b 16 8) ≠ 0) ||
    (t ≠ 0 && t = reqTouches ob && (if t = 1 then byteAt a 5 = byteAt b 5 else if t ≤ 3 then (reqHandles a).any (reqHandles b).contains else true))

/-- The oldest waiting request of a mailbox with an opcode, when no earlier request that it conflicts with waits or runs in any
mailbox (R247, R377). -/
def State.nextRequest (s : State) (m op : Nat) : Option MbxReq :=
  match (s.mbx m).reqs.find? fun r => r.phase = 0 && fld r.data 0 2 = op with
  | none => none
  | some r =>
    if s.mbxs.any fun e => e.2.reqs.any fun x => x.phase ≤ 1 && x.stamp < r.stamp && reqConflict x.data r.data
    then none else some r

/-- Trace of an applied command (R529): opcode and STATUS. -/
def State.traceCmd (s : State) (r : MbxReq) (status : Nat) : State :=
  s.trace 5 (byteAt r.data 5) 0xFF 0 (toBytes 2 (fld r.data 0 2) ++ toBytes 2 status)

/-- Set the answer of a request and write the responses that may be written. -/
def State.answer (s : State) (m : Nat) (r : MbxReq) (a : Ans) : State :=
  let upd (t : State) (f : MbxReq → MbxReq) : State :=
    let u := t.setMbx m fun b => { b with reqs := setReq b.reqs r.stamp f }
    let st := (u.mbx m).reqs.find? fun x => x.stamp = r.stamp && x.phase ≠ 1
    (match st with
      | some x => u.traceCmd r x.status
      | none => u).flushMbx m 17
  let done : Nat := if (cmdRow (fld r.data 0 2)).any (·.l) then 3 else 2
  match a with
  | .later => s
  | .now st pl => upd s fun x => { x with phase := done, status := st, payload := pl }
  | .logged pl => upd s fun x => { x with phase := done, status := 0, payload := pl, logidx := (s.changeNext - 1) % 2 ^ 32 }
  | .running pl => upd s fun x => { x with phase := 1, payload := pl }

/-- The functions that a command needs are ready (R504, R505): its tier, its quadrants, or T1 at all. -/
def State.readyFor (s : State) (op : Nat) (d : List Byte) : Bool :=
  let rs := s.fget .glbReadyStatus 0
  let t1 := bitField rs 6 8 ≠ 0
  let tier (t : Nat) : Bool := if t = 3 then bitAt rs 15 else if t = 2 then bitAt rs 14 else t1
  match op with
  | 0x201 => (List.range 4).all fun q => bitField (fld d 16 8) (16 * q) 16 = 0 || bitAt rs (2 + q)
  | 0x301 => tier (byteAt d 17)
  | 0x303 | 0x304 | 0x305 | 0x306 => tier (byteAt d 20)
  | 0x30A | 0x701 | 0x904 => t1
  | 0x30B => bitAt rs (6 + byteAt d 16 / 32)
  | _ => true

/-- Apply the oldest waiting request of mailbox `m` with this opcode (R377): a partition command naming an unformed
partition is answered NO_PARTITION first (R383, R396). -/
def State.runCommand (s : State) (mb : Mbx) (op : Nat) (f : State → Nat → MbxReq → State × Ans) : State :=
  let m := mbxNum mb
  if !s.millServes m then s
  else match s.nextRequest m op with
  | none => s
  | some r =>
    let part := byteAt r.data 5
    let gone := op ≠ 0x201 && ((m < 64 && !s.formed m && !servedUnformed op) || (actsOnPart op r.data && !s.formed part))
    if gone then s.answer m r (.now 3 [])
    else if !s.readyFor op r.data then s
    else
      let q := f s m r
      q.1.answer m r q.2

/-- SRC byte of a change-log entry (R390). -/
def logSrc (m : Nat) : Nat := if m = 64 then 0 else if m = 65 then 2 else 1

/-- Append the change-log entry of a command. -/
def State.logCmd (s : State) (m : Nat) (r : MbxReq) (cls : Nat) (old new : List Byte) : State :=
  s.logChange (logSrc m) (byteAt r.data 5) cls (fld r.data 0 2) (fld r.data 2 2) (byteAt r.data 4) old new

/-- ACTIVE of an engine follows its contexts (R284). -/
def State.syncActive (s : State) (e : Nat) : State :=
  s.fset .strmEStatusActive e (s.ctxs.filter fun c => c.2.busy && c.1 / 136 = e).length

/-- The stream contexts of a command are given back (R254). -/
def State.freeTier (s : State) (m stamp : Nat) : State :=
  ((s.ctxs.filter fun c => c.2.of = .command m stamp).map (·.1)).foldl (fun (t : State) x =>
    ({ t with ctxs := SMap.erase t.ctxs x } : State).syncActive (x / 136)) s

/-- End a running L command: its status and payload, with the entry logged just before when `logged` (R377). -/
def State.endL (s : State) (m : Nat) (r : MbxReq) (st : Nat) (pl : List Byte) (logged : Bool) : State :=
  ((s.setMbx m fun b => { b with reqs := setReq b.reqs r.stamp fun x =>
    { x with phase := 3, status := st, payload := pl,
             logidx := if logged then (s.changeNext - 1) % 2 ^ 32 else x.logidx } }).traceCmd r st).freeTier m r.stamp |>.flushMbx m 17

/-- Raise the generation of a mailbox (R378). -/
def State.raiseGen (s : State) (m : Nat) : State :=
  if m = 65 then s.setMbx m fun b => { b with sbGen := (b.sbGen + 1) % 256, kept := [] }
  else
    let s1 := (((s.fadd .mbxStatusGen m 1).fset .mbxRsptail m 0).fset .mbxRspack m 0).fset .mbxEvtail m 0
    ((s1.fset .mbxEvack m 0).setMbx m fun b => { b with kept := [] }).flushMbx m 17

/-- Read for a command: an unserved fault is answered FAULT with the address (R383). -/
def State.cmdRead (s : State) (m p va n : Nat) : State × (List Byte ⊕ Ans) :=
  match s.vread p va n with
  | (s1, .ok d) => (s1, .inl d)
  | (s1, .wait a k) => (s1.enterWait ⟨.mailbox m, p, a, false, k⟩, .inr .later)
  | (s1, .bad a _) => (s1, .inr (.now 0x14 (toBytes 8 a)))

/-- Probe a range a command will write. -/
def State.cmdProbe (s : State) (m p va n : Nat) : State × Option Ans :=
  match s.vprobe p va true n (n / 4096 + 2) with
  | (s1, .ok _) => (s1, none)
  | (s1, .wait a k) => (s1.enterWait ⟨.mailbox m, p, a, true, k⟩, some .later)
  | (s1, .bad a _) => (s1, some (.now 0x14 (toBytes 8 a)))

end Sys2Proof.Machine
end

