-- ==== Sys2Proof/Machine/FabBase.lean ====
section
/-! DEFINITION. Sending on the fabric: frames (R420 to R422), credits and link numbering (R425 to R428), routing of what this module
sends (R437), requests with their tags (R432 to R435). -/

namespace Sys2Proof.Machine

/-! ## Frames -/

/-- One byte of the CRC of IEEE 802.3, reflected. -/
def crcByte (c : Nat) (b : Byte) : Nat :=
  (List.range 8).foldl (fun x _ => if x % 2 = 1 then (x / 2) ^^^ 0xEDB88320 else x / 2) (c ^^^ b.toNat)

/-- CRC-32 of a frame from its header to its tag (R420). -/
def crc32 (l : List Byte) : Nat := (l.foldl crcByte 0xFFFFFFFF) ^^^ 0xFFFFFFFF

/-- `n` bytes of a value, most significant first (R421). -/
def bigBytes (n v : Nat) : List Byte := (toBytes n v).reverse

/-- A big-endian field of a header. -/
def bigFld (h : List Byte) (o n : Nat) : Nat := ofBytes ((h.drop o).take n).reverse

/-- The channel of a frame type (R422). -/
def typeVc (ty : Nat) : Nat := if ty = 4 then 2 else if ty = 5 then 1 else if ty ≤ 3 then 0 else 3

/-- A header with its hop fields zero, but for HOPS (R421). -/
def fabHeader (ty len dst src dpart spart hops tgen tag addr opf xinfo : Nat) : List Byte :=
  toBytes 1 ty ++ toBytes 1 (typeVc ty * 32) ++ bigBytes 2 len ++ bigBytes 2 dst ++ bigBytes 2 src ++ toBytes 1 dpart ++ toBytes 1 spart ++
    toBytes 1 hops ++ toBytes 1 tgen ++ bigBytes 2 tag ++ [0, 0, 0, 0, 0, 0] ++ bigBytes 6 addr ++ bigBytes 2 opf ++ bigBytes 4 xinfo

def hdrVc (h : List Byte) : Nat := byteAt h 1 / 32
def hdrLane (h : List Byte) : Nat := byteAt h 1 / 16 % 2
def hdrLen (h : List Byte) : Nat := bigFld h 2 2
def hdrDst (h : List Byte) : Nat := bigFld h 4 2
def hdrSrc (h : List Byte) : Nat := bigFld h 6 2

/-! ## Ports -/

def State.port (s : State) (p : Nat) : Port := SMap.get {} s.ports p
def State.setPort (s : State) (p : Nat) (f : Port → Port) : State := { s with ports := SMap.set {} s.ports p (f (s.port p)) }

/-- This module's device number, once it is set (R435). -/
def State.ownDev (s : State) : Option Nat := if s.fget .flkIdSet 0 = 1 then some (s.fget .flkIdDevnum 0) else none

/-- A device is quarantined (R447). -/
def State.quarantined (s : State) (dev : Nat) : Bool := (s.fget .flkQuar (dev / 32)).testBit (dev % 32)

/-- Receive buffer of a channel and lane in 64 B units (R425). -/
def vcUnits (vc : Nat) : Nat := if vc = 1 then 512 else if vc = 3 then 128 else 1024

/-- Wire size of a frame in 64 B units (R420, R426). -/
def State.frameUnits (s : State) (p : Nat) (f : FabFrame) : Nat :=
  ceilDiv (48 + f.payload.length + if s.fget .flkPortEnc p = 1 then 24 else 0) 64

/-- The channels a port carries in its state (R418): VC3 from HANDSHAKE on, data when UP and no shutdown runs (R509). -/
def State.portCarries (s : State) (p vc : Nat) : Bool :=
  let st := s.fget .flkPortState p
  if vc = 3 then st = 3 || st = 4 || st = 5 else st = 4 && (s.port p).hs = 4 && s.fget .pwrStateStage 0 = 0

/-- Put one frame on the wire under a new LSEQ, with the acknowledgement and one channel's credit return (R421, R426, R428). -/
def State.wireSend (s : State) (p : Nat) (f : FabFrame) (seq : Nat) : State :=
  let q := s.port p
  let enc := s.fget .flkPortEnc p
  let vc := (q.ret.head?.map (·.1)).getD 0
  let cred := min 255 (SMap.get 0 q.ret vc)
  let b1 := byteAt f.header 1 / 16 * 16 + q.idTx * 8 + enc * 4
  let h := patchAt (patchAt f.header 1 (toBytes 1 b1)) 14 (bigBytes 2 seq ++ bigBytes 2 q.rxSeq ++ toBytes 1 vc ++ toBytes 1 cred)
  let body := if enc = 1 then h ++ bigBytes 8 q.nctrTx ++ Config.gcm q.keyTx q.nctrTx h f.payload else h ++ f.payload
  ((s.emit (.frame p (body ++ bigBytes 4 (crc32 body)))).setPort p fun q =>
    { q with ret := SMap.set 0 q.ret vc (SMap.get 0 q.ret vc - cred), nctrTx := q.nctrTx + enc }).fadd .flkPTxbytes p f.payload.length

/-- Credits for a frame are at hand (R426). -/
def State.hasCredit (s : State) (p : Nat) (f : FabFrame) : Bool :=
  let k := 2 * hdrVc f.header + hdrLane f.header
  decide (SMap.get 0 (s.port p).used k + s.frameUnits p f ≤ vcUnits (hdrVc f.header))

/-- Send a frame that has credits: it is kept until LACK passes it (R428). -/
def State.sendNew (s : State) (p : Nat) (f : FabFrame) : State :=
  let k := 2 * hdrVc f.header + hdrLane f.header
  let n := s.frameUnits p f
  let seq := (s.port p).txSeq
  (s.setPort p fun q => { q with used := SMap.set 0 q.used k (SMap.get 0 q.used k + n), txSeq := (seq + 1) % 65536,
                                 kept := q.kept ++ [{ seq := seq, f := f }] }).wireSend p f seq

/-- Order of channels at the transmit arbitration (R425): VC3, VC1, VC2, VC0. -/
def vcOrder : List Nat := [3, 1, 2, 0]

/-- Send what waits and has credits, by channel, each channel in order, until nothing can go (R425, R426). -/
def State.portPump (s : State) (p : Nat) : Nat → State
  | 0 => s
  | n + 1 =>
    let q := s.port p
    let first (vc lane : Nat) : Option FabFrame := q.queue.find? fun f => hdrVc f.header = vc && hdrLane f.header = lane
    let cands : List FabFrame := vcOrder.flatMap fun vc => (List.range 2).filterMap fun l => first vc l
    match cands.find? fun f => s.portCarries p (hdrVc f.header) && s.hasCredit p f with
    | none => s
    | some f => ((s.setPort p fun q => { q with queue := q.queue.erase f }).sendNew p f).portPump p n

/-- A frame for a port: it waits behind what waits, and what can go goes. -/
def State.portOut (s : State) (p : Nat) (f : FabFrame) : State :=
  let s1 := s.setPort p fun q => { q with queue := q.queue ++ [f] }
  s1.portPump p ((s1.port p).queue.length)

/-! ## Routing of frames to send (rows 3 to 6 of R437) -/

/-- The route record of a device; 0 where there is none (R436). -/
def State.route (s : State) (dev : Nat) : Nat := (s.routes.find? fun e => bitField e 32 12 = dev).getD 0

/-- The port is a live primary route for a channel (row 4). -/
def State.portLive (s : State) (p vc : Nat) : Bool := s.portCarries p vc && !(s.port p).late.testBit vc

/-- Send a frame by the route table with HOPS one lower: false where no route takes it (rows 4 to 6). -/
def State.routeOut (s : State) (f : FabFrame) : State × Bool :=
  let e := s.route (hdrDst f.header)
  let vc := hdrVc f.header
  let go (port dl : Nat) : State :=
    let lane := if vc = 3 then 0 else if dl = 1 then 1 else hdrLane f.header
    let h := patchAt (patchAt f.header 1 (toBytes 1 (vc * 32 + lane * 16))) 10 (toBytes 1 (byteAt f.header 10 - 1))
    s.portOut port { f with header := h }
  if e = 0 then (s, false)
  else if s.portLive (bitField e 1 3) vc then (go (bitField e 1 3) (bitField e 16 1), true)
  else if bitAt e 4 && s.portCarries (bitField e 5 3) vc then (go (bitField e 5 3) (bitField e 17 1), true)
  else (s, false)

/-- A frame that this module originates (R435, R437): HOPS is HOPMAX, at least 1. -/
def State.originate (s : State) (ty dst dpart spart tgen tag addr opf xinfo : Nat) (payload : List Byte) : State × Bool :=
  match s.ownDev with
  | none => (s, false)
  | some own =>
    let h := fabHeader ty payload.length dst own dpart spart (max 1 (s.fget .flkRoutingHopmax 0)) tgen tag addr opf xinfo
    s.routeOut ⟨h, payload⟩

/-- The entries of a RESP. -/
def respBytes (l : List (Nat × Nat × Nat)) : List Byte :=
  l.flatMap fun e => toBytes 2 e.1 ++ toBytes 1 e.2.1 ++ toBytes 1 e.2.2 ++ toBytes 4 0

/-- A frame of another device that no route takes (row 6 of R437): it is counted, and a request is answered NOROUTE. The answer names the
request's destination as its source, so that its TAG means that device's (R431; DEDUCED). -/
def State.noRoute (s : State) (f : FabFrame) : State :=
  let h := f.header
  let s1 := s.fadd .flkNoroute 0 1
  if byteAt h 0 ≤ 4 then
    (s1.routeOut ⟨fabHeader 5 8 (hdrSrc h) (hdrDst h) 0 0 (max 1 (s.fget .flkRoutingHopmax 0)) 0 0 0 1 0,
      respBytes [(bigFld h 12 2, byteAt h 11, 4)]⟩).1
  else s1

/-! ## Requests (R432 to R434) -/

/-- Requests to a device and for a partition are stopped (R445). -/
def State.stoppedTo (s : State) (dev part : Nat) : Bool := s.fabStops.any fun x => x.dev = dev && (x.part = part || x.part = 64)

/-- Requests outstanding to a device. -/
def State.outstanding (s : State) (dev : Nat) : Nat := (s.fabReqs.filter fun r => r.dst = dev && r.tag.isSome && r.answer.isNone).length

/-- Transmit a request, new or again, with its tag: no route answers NOROUTE (row 6 of R437). -/
def State.transmit (s : State) (r : FabReq) (tag : Nat) : State × FabReq :=
  let r1 := { r with tag := some tag, tgen := if r.tag.isSome then r.tgen else s.fget .flkIdTgen 0, unsent := false }
  let x := s.originate r1.ty r1.dst r1.dpart r1.spart r1.tgen tag r1.addr r1.opf r1.xinfo r1.payload
  if x.2 then ((if r.tag.isNone || r.unsent then x.1.fadd .flkQTxbytes r1.spart r1.payload.length else x.1), r1)
  else (x.1.fadd .flkNoroute 0 1, { r1 with answer := some 4 })

/-- Send the requests that wait and may go, in order. One that a STOP keeps back takes its TAG, and its timer runs (R445). -/
def State.fabPump (s : State) (todo : List FabReq) (done : List FabReq) : State :=
  match todo with
  | [] => { s with fabReqs := done }
  | r :: rest =>
    if (r.tag.isSome && !r.unsent) || r.answer.isSome then s.fabPump rest (done ++ [r])
    else if s.quarantined r.dst then (s.fadd .flkUnreach 0 1).fabPump rest (done ++ [{ r with answer := some 5 }])
    else if s.ownDev.isNone then s.fabPump rest (done ++ [r])
    else match r.tag with
      | some tag =>
        if s.stoppedTo r.dst r.spart then s.fabPump rest (done ++ [r])
        else
          let x := s.transmit r tag
          x.1.fabPump rest (done ++ [x.2])
      | none =>
        if (done.filter fun x => x.dst = r.dst && x.tag.isSome && x.answer.isNone).length ≥ 1024 then s.fabPump rest (done ++ [r])
        else
          let tag := SMap.get 0 s.fabTags r.dst
          let t : State := { s with fabTags := SMap.set 0 s.fabTags r.dst ((tag + 1) % 65536) }
          if s.stoppedTo r.dst r.spart then
            t.fabPump rest (done ++ [{ r with tag := some tag, tgen := s.fget .flkIdTgen 0, unsent := true }])
          else
            let x := t.transmit r tag
            x.1.fabPump rest (done ++ [x.2])

/-- Submit requests (R432): they are sent at once where they may be. -/
def State.fabSubmit (s : State) (l : List FabReq) : State := s.fabPump (s.fabReqs ++ l) []

/-- The WRITEs that carry bytes to a virtual address of a device's partition, at most 1,024 B each (R422). -/
def writeReqs (owner : FabOwner) (dst part addr : Nat) (data : List Byte) : List FabReq :=
  (List.range (ceilDiv data.length 1024)).map fun i =>
    { owner := owner, dst := dst, ty := 1, spart := part, dpart := part, addr := addr + 1024 * i, payload := (data.drop (1024 * i)).take 1024 }

/-- Requests of an owner that have no answer yet, and the worst answer of those that have (0 when all applied). -/
def State.fabOpen (s : State) (o : FabOwner) : Bool := s.fabReqs.any fun r => r.owner = o && r.answer.isNone
def State.fabWorst (s : State) (o : FabOwner) : Nat :=
  (s.fabReqs.filter fun r => r.owner = o).foldl (fun a r => max a (r.answer.getD 0)) 0

/-! ## Mirror traffic (R475, R477) -/

/-- First byte of an image in the partner's mirror region: images follow each other from byte 64 (R475). -/
def State.imageAt (s : State) (i : Nat) : Nat := 64 + i % 2 * ((s.part (i / 2)).imageBytes / 2)

/-- MIRROR frames with bytes for an offset of the region of the partner in effect, under an image's number. -/
def State.mirrorReqs (s : State) (o : FabOwner) (p i off : Nat) (data : List Byte) : List FabReq :=
  let q := (s.part p).mirrorNow.getD (0, 0)
  (List.range (ceilDiv data.length 1024)).map fun k =>
    { owner := o, dst := q.1, ty := 3, spart := p, dpart := q.2, addr := off + 1024 * k,
      xinfo := (SMap.get {} s.images i).num, payload := (data.drop (1024 * k)).take 1024 }

/-- Record-log entries and shadow bits go to the partner while the newest image is mirrored (R465, R279, R477). -/
def State.mirrors' (s : State) (p i : Nat) : Bool :=
  (s.part p).mirrorNow.isSome && (s.part p).mirrorTold && (SMap.get {} s.images i).mstate ≠ 0 && (SMap.get {} s.images i).mstate ≠ 3

/-- Forget an owner's requests. -/
def State.fabDrop (s : State) (o : FabOwner) : State := { s with fabReqs := s.fabReqs.filter fun r => r.owner ≠ o }

end Sys2Proof.Machine
end

