-- ==== Sys2Proof/Machine/Desc.lean ====
section
/-! DEFINITION. The fields of a MOVE descriptor: its lines, their coordinates and addresses (R257). -/

namespace Sys2Proof.Machine

/-- The descriptor of a COPY record (R347): a MOVE longer than 64 B, whose bytes 64 to 71 are the number of lines, taken in
rows of 65,536 lines (DESIGN CHOICE: the record's size need not be a product of three 16-bit counts). -/
def isCopy (d : List Byte) : Bool := decide (d.length > 64)
def copyDesc (src dst lines : Nat) : List Byte :=
  [1, 0, 0, 0xFF] ++ List.replicate 24 0 ++ toBytes 6 src ++ toBytes 6 dst ++ List.replicate 24 0 ++ toBytes 8 lines

/-- Total lines of a MOVE (R257). -/
def mvLines (d : List Byte) : Nat := if isCopy d then fld d 64 8 else fld d 4 2 * fld d 6 2 * fld d 8 2

/-- Coordinate (i0, i1, i2) of a line number. -/
def mvCoord (d : List Byte) (n : Nat) : Nat × Nat × Nat :=
  let n0 := if isCopy d then 65536 else fld d 4 2
  let n1 := if isCopy d then 65536 else fld d 6 2
  (n % max 1 n0, n / max 1 n0 % max 1 n1, n / max 1 (n0 * n1))

/-- A coordinate as DETAIL2 carries it (R350). -/
def packCoord (c : Nat × Nat × Nat) : Nat := c.1 + c.2.1 * 2 ^ 16 + c.2.2 * 2 ^ 32

/-- Source address of a line (R257): a partition address, or a byte of the LBA space. -/
def mvSrc (d : List Byte) (n : Nat) : Int :=
  if isCopy d then ((fld d 28 6 + 64 * n : Nat) : Int) else
  let c := mvCoord d n
  let base : Int := if bitAt (byteAt d 1) 1 then (fld d 28 6 * 4096 : Nat) else (fld d 28 6 : Nat)
  base + c.2.2 * signedOf 32 (fld d 20 4) + c.2.1 * signedOf 32 (fld d 12 4) + 64 * c.1

/-- Destination address of a line (R257). -/
def mvDst (d : List Byte) (n : Nat) : Int :=
  if isCopy d then ((fld d 34 6 + 64 * n : Nat) : Int) else
  let c := mvCoord d n
  ((fld d 34 6 : Nat) : Int) + c.2.2 * signedOf 32 (fld d 24 4) + c.2.1 * signedOf 32 (fld d 16 4) + 64 * c.1

/-- A MOVE reads T3. -/
def mvLba (d : List Byte) : Bool := bitAt (byteAt d 1) 1

/-- A MOVE is part of a deckle slice. -/
def mvDeck (d : List Byte) : Bool := bitAt (byteAt d 1) 0

/-- The 4 KiB-aligned source windows of the lines `lo` to `hi - 1` of a MOVE (R268). -/
def mvWindows (d : List Byte) (lo hi : Nat) : List Int := (List.range' lo (hi - lo)).map fun n => mvSrc d n / 4096

end Sys2Proof.Machine
end

