-- ==== Sys2Proof/Machine/Ftl.lean ====
section
/-! DEFINITION. The flash translation layer: the map and the stripes (R287, R288), health and relocation (R296, R307), and the read of a
block (R290). -/

namespace Sys2Proof.Machine

/-! ## Health and relocation -/

/-- The FTL runs: its map is loaded, it has not failed, and flash has power (R305, R487). -/
def State.ftlRuns (s : State) : Bool :=
  let st := s.fget .ftlStatusState 0
  (st = 1 || st = 2 || st = 3) && s.fget .pwrState 0 ≠ 4 && s.fget .pwrStateStage 0 < 4

/-- LIFE_USED (R307): the average erase count of the channels in percent of 3,000 cycles, rounded down (DESIGN CHOICE, log entry 64). -/
def State.lifeUsed (s : State) : Nat :=
  (List.range 16).foldl (fun a c => a + s.fget .ftlChAvgPe c) 0 * 100 / (16 * 3000)

/-- Health figures of R307 and R308: erase counts and spares are what the FTL measures, and free; LIFE_USED follows from them. -/
def State.ftlHealth (s : State) : State :=
  let n := s.fresh
  let spare := Config.flashHealth n 1 % 1001
  let s1 := (s.draw.fset .ftlSpareSparePm 0 spare).fset .ftlSpareMinChPm 0 (Config.flashHealth n 2 % (spare + 1))
  let s2 := (List.range 16).foldl (fun t c =>
    let avg := Config.flashHealth n (3 + c) % 0x10000
    (t.fset .ftlChAvgPe c avg).fset .ftlChMaxPe c (max avg (Config.flashHealth n (19 + c) % 0x10000))) s1
  s2.fset .ftlStatusLifeUsed 0 (min 255 s2.lifeUsed)

/-- A channel's spares have run low (R307). -/
def State.worn (s : State) : Bool := s.fget .ftlSpareMinChPm 0 < 20

/-- STATE becomes READONLY when a channel's spares run low (R307). -/
def State.ftlWorn (s : State) : State := if s.worn then s.fset .ftlStatusState 0 3 else s

/-- Data of a block moves and the block is erased (R294, R296). -/
def State.ftlRelocate (s : State) : State :=
  (((s.draw.fadd .ftlProgBytes 0 (Config.flashMoved s.fresh)).fadd .ftlErases 0 1).ftlHealth).ftlWorn

/-! ## The map and the stripes -/

/-- Channels that work. -/
def State.flashChannels (s : State) : List Nat := (List.range 16).filter fun c => !s.flashLost.testBit c

/-- Data channels of stripe `t` over the working channels, in channel order: the parity channel rotates from stripe to stripe (R287);
DESIGN CHOICE, log entry 64: stripe t has it on the t-th of them in turn. -/
def stripeData (live : List Nat) (t : Nat) : List Nat :=
  let k := t % max 1 live.length
  live.take k ++ live.drop (k + 1)

/-- Change the map. -/
def State.setFtl (s : State) (f : FtlMap → FtlMap) : State := { s with ftl := f s.ftl }

/-- Place of a written block: stripe and channel. -/
def State.blockAt (s : State) (lba : Nat) : Option (Nat × Nat) :=
  match SMap.get 0 s.ftl.map lba with
  | 0 => none
  | v + 1 => some (v / 16, v % 16)

/-- Blocks written together go to new stripes in channel order, 4 to a page of 16 KiB (R287): the map names them, and the pages with those
of parity are programmed. -/
def State.layBlocks (s : State) (lbas : List Nat) : State :=
  let live := s.flashChannels
  let per := 4 * max 1 (live.length - 1)
  let t0 := s.ftl.next
  let place (i : Nat) : Nat := t0 + i / per
  let map := lbas.zipIdx.foldl (fun m x =>
    SMap.set 0 m x.1 (16 * place x.2 + (stripeData live (place x.2)).getD (x.2 % per / 4) 0 + 1)) s.ftl.map
  let stripes := ceilDiv lbas.length per
  (s.setFtl fun f => { f with map := map, next := t0 + stripes }).fadd .ftlProgBytes 0 (0x4000 * (ceilDiv lbas.length 4 + stripes))

/-- Blocks of an extent leave the map (a trim). -/
def State.trimBlocks (s : State) (base n : Nat) : State :=
  { s.setFtl fun f => { f with map := f.map.filter fun e => !(base ≤ e.1 && e.1 < base + n) } with
    lostBlocks := s.lostBlocks.filter fun l => !(base ≤ l && l < base + n) }

/-- Written blocks of an extent. -/
def State.written (s : State) (base n : Nat) : List Nat := (s.ftl.map.filter fun e => base ≤ e.1 && e.1 < base + n).map (·.1)

/-! ## Reading (R288, R290) -/

/-- A block that no recovery step returns enters the lost-block log, once (R290): an event, a FLASH fault, and an entry of
the layout of R456. -/
def State.noteLost (s : State) (lba : Nat) : State :=
  if s.lostLog.any fun e => fld e 40 8 = lba then s
  else
    let entry := padTo 64 (toBytes 8 s.lostNext ++ toBytes 8 s.time ++ toBytes 4 0xFF0C ++ toBytes 4 0 ++
      toBytes 8 (2 ^ 64 - 1) ++ toBytes 8 (2 ^ 64 - 1) ++ toBytes 8 lba)
    let s1 := { s with lostLog := entry :: s.lostLog, lostNext := s.lostNext + 1 }
    ((s1.fadd .ftlLost 0 1).devEvent 0x988 (toBytes 8 lba)).logFault { cls := 0xC, detail := lba }

/-- The block lies on a channel that is lost and not rebuilt, so that only its stripe returns it (R298). -/
def State.onLost (s : State) (lba : Nat) : Bool :=
  match s.blockAt lba with
  | some (t, c) => s.flashStale.testBit c && t < s.ftl.fresh
  | none => false

/-- One block is read (R288, R290): whether it is returned. One never written gives zeros without a flash access; which step returns
another one is physical. A block that needs soft decode is refreshed at once (R296). -/
def State.flashRead (s : State) (lba : Nat) : State × Bool :=
  match s.blockAt lba with
  | none => if s.fget .ftlStatusState 0 = 4 then (s, false) else (s, true)
  | some (t, _) =>
    if s.lostBlocks.contains lba || s.fget .ftlStatusState 0 = 4 then (s.noteLost lba, false)
    -- only its stripe returns it, until the rebuild has come to it
    else if s.onLost lba then (if Config.stripeLost s.fresh t then s.draw.fadd .ftlParrec 0 1 else s.draw, true)
    else
      let urgent (u : State) : State := if u.ftlRuns then u.ftlRelocate.fadd .ftlUrgent 0 1 else u
      -- the other 15 pages are not all there while a channel is lost
      let broken := s.flashStale ≠ 0 && t < s.ftl.fresh
      match (Config.flashStep s.fresh lba).val with
      | 0 => (s.draw, true)
      | 1 => (urgent (s.draw.fadd .ftlSoft 0 1), true)
      | k =>
        if k = 2 && !broken then (urgent (s.draw.fadd .ftlParrec 0 1), true)
        else ({ s.draw with lostBlocks := lba :: s.lostBlocks }.noteLost lba, false)

/-- The written blocks of an extent are read: whether all were returned. -/
def State.flashReadAll (s : State) (base n : Nat) : State × Bool :=
  if s.fget .ftlStatusState 0 = 4 then (s, false)
  else (s.written base n).foldl (fun (t : State × Bool) l => let r := t.1.flashRead l; (r.1, t.2 && r.2)) (s, true)

end Sys2Proof.Machine
end

