-- ==== Sys2Proof/Machine/Tier.lean ====
section
/-! DEFINITION. The tier manager: T1 placements (R234 to R236, R242 to R244), tier objects (R245 to R248, R386), quotas
(R249 to R251) and the mailbox commands of group 0x03. -/

namespace Sys2Proof.Machine

/-! ## Allocation -/

def mib2 : Nat := 0x200000
/-- One row of one channel (R234). -/
def rowBytes : Nat := 0x40000

/-- Number of channels of a set. -/
def chCount (m : Nat) : Nat := ((List.range 256).filter fun c => m.testBit c).length

/-- Rows that a placement takes on each of its channels (R234). -/
def Placement.rows (q : Placement) : Nat := q.size / (max 1 (chCount q.chset) * rowBytes)

/-- DPA that the system region takes: it is placed in SPREAD, so in multiples of 2 MiB for each live channel (R227, R234). -/
def State.sysSize (s : State) : Nat :=
  let n := max 1 (s.fget .tierCapLive 0)
  ceilDiv sysRegionSize (n * mib2) * (n * mib2)

/-- Rows of every channel that the system region takes (R227). -/
def State.sysRows (s : State) : Nat := s.sysSize / (max 1 (s.fget .tierCapLive 0) * rowBytes)

/-- CHSET of the partition's next placement (R236): every live channel, or the live near channels of its quadrants. -/
def State.chset (s : State) (p : Nat) : Nat :=
  let quads := (s.skeins p).map (· / 16)
  let near := s.fget .tierPHashHmode p = 0 && !quads.isEmpty
  s.liveChannels.foldl (fun m c => if !near || quads.contains (c / 64) then m ||| 2 ^ c else m) 0

/-- The first candidate that meets a condition, candidates in rising order. -/
def firstFit (cands : List Nat) (ok : Nat → Bool) : Option Nat :=
  (cands.filter ok).foldl (fun b c => match b with | none => some c | some x => some (min x c)) none

/-- Two ranges overlap. -/
def overlap (a n b m : Nat) : Bool := decide (a < b + m) && decide (b < a + n)

/-- Used placements of the table. -/
def State.usedPlacements (s : State) : List Placement := (s.placements.map (·.2)).filter (·.used)

/-- Allocate a placement of `bytes` on a channel set (R234): number + 1, or the status that refuses it (LIMIT, NO_SPACE).
First fit in DPA and in rows (DESIGN CHOICE). -/
def State.allocSet (s : State) (p bytes chset : Nat) (near : Bool) : State × (Nat ⊕ Nat) :=
  let n := chCount chset
  if n = 0 then (s, .inr 8)
  else
    let size := ceilDiv bytes (n * mib2) * (n * mib2)
    let rows := size / (n * rowBytes)
    let used := s.usedPlacements
    let base := firstFit (s.sysSize :: used.map fun q => q.base + q.size) fun b =>
      decide (s.sysSize ≤ b) && decide (b + size ≤ s.t1Backed) && !used.any fun q => overlap b size q.base q.size
    let row := firstFit (s.sysRows :: used.map fun q => q.rowb + q.rows) fun r =>
      decide (s.sysRows ≤ r) && decide (r + rows ≤ 6144) && decide (r ≤ 6136) &&
        !used.any fun q => (q.chset &&& chset) ≠ 0 && overlap r rows q.rowb q.rows
    match base, row with
    | some b, some r =>
      match (List.range 1024).find? fun i => !(SMap.get {} s.placements i).used with
      | none => (s, .inr 9)
      | some i =>
        let q : Placement := { used := true, base := b, size := size, chset := chset, rowb := r, bytes := bytes,
                               seed := s.fget .tierPHashSeed p, part := p, near := near }
        ({ s with placements := SMap.set {} s.placements i q }, .inl (i + 1))
    | _, _ => (s, .inr 8)

/-- Allocate T1 for a partition under its hashing mode. -/
def State.allocT1 (s : State) (p bytes : Nat) : State × (Nat ⊕ Nat) :=
  s.allocSet p bytes (s.chset p) (s.fget .tierPHashHmode p = 0)

/-- The placement with number + 1 `i`. -/
def State.place (s : State) (i : Nat) : Placement := SMap.get {} s.placements (i - 1)

/-- Free a placement. -/
def State.freePlace (s : State) (i : Nat) : State :=
  if i = 0 then s else { s with placements := SMap.set {} s.placements (i - 1) {} }

/-- First fit in a list of extents within a range. -/
def extentFit (l : List (Nat × Nat)) (lo hi n : Nat) : Option Nat :=
  firstFit (lo :: l.map fun e => e.1 + e.2) fun b =>
    decide (lo ≤ b) && decide (b + n ≤ hi) && !l.any fun e => overlap b n e.1 e.2

/-- Bytes that a holding is charged (R249). -/
def charged (bytes : Nat) : Nat := ceilDiv bytes 0x10000 * 0x10000

def useFld : Nat → Fld
  | 1 => .tierPT1use
  | 2 => .tierPT2use
  | _ => .tierPT3use

def quotaFld : Nat → Fld
  | 1 => .tierPT1quota
  | 2 => .tierPT2quota
  | _ => .tierPT3quota

/-- Raise or lower a partition's use of a tier (R249). -/
def State.charge (s : State) (p tier bytes : Nat) : State :=
  s.fset (useFld tier) p (s.fget (useFld tier) p + charged bytes)
def State.uncharge (s : State) (p tier bytes : Nat) : State :=
  s.fset (useFld tier) p (s.fget (useFld tier) p - charged bytes)

/-- The partition may take `bytes` more of a tier (R249, R250). -/
def State.withinQuota (s : State) (p tier bytes : Nat) : Bool :=
  decide (s.fget (useFld tier) p + charged bytes ≤ s.fget (quotaFld tier) p)

/-! ## Objects -/

/-- Object record by index. -/
def State.obj (s : State) (i : Nat) : Obj := SMap.get {} s.objs i

/-- Change an object. -/
def State.setObj (s : State) (i : Nat) (f : Obj → Obj) : State := { s with objs := SMap.set {} s.objs i (f (s.obj i)) }

/-- Handle of an object (R245). -/
def State.handle (s : State) (i : Nat) : Nat := (s.obj i).gen * 2 ^ 24 + i

/-- The partition has an open job (R397). -/
def State.jobOpen (s : State) (p : Nat) : Bool := s.jobs.any fun e => e.1 / 16 == p && e.2.isOpen

/-- A handle named by a command (R245, R386): the index, or the status that refuses it. -/
def State.lookup (s : State) (m h : Nat) : Nat ⊕ Nat :=
  let i := h % 2 ^ 24
  let o := s.obj i
  if !o.used then .inr 5
  else if o.gen ≠ h / 2 ^ 24 || o.retired then .inr 6
  else if m < 64 && o.creator ≠ m && !o.grants.contains m then .inr 5
  else .inl i

/-- The copy of a tier that a partition references, newest version first. -/
def Obj.refCopy (o : Obj) (tier p : Nat) : Option Copy :=
  o.copies.find? fun c => c.tier = tier && c.refs.any fun r => r.part = p

/-- Replace a copy by its number. -/
def setCopy (l : List Copy) (id : Nat) (f : Copy → Copy) : List Copy := l.map fun c => if c.id = id then f c else c

/-- Bytes of an object rounded up to a tier's allocation unit. -/
def extentOf (tier bytes : Nat) : Nat := if tier = 3 then ceilDiv bytes 4096 else charged bytes

/-- T3 as it stands. -/
def State.flashNow (s : State) : FlashState := { cells := s.flash, objs := s.objs, extents := s.t3alloc, lost := s.lostBlocks, map := s.ftl.map }

/-- The flash journal on flash no longer holds every map change (R301): what T3 held at the last write of it is kept. -/
def State.touchFlash (s : State) : State :=
  if s.journal.isSome then s
  else { s with journal := some s.flashNow }

/-- Allocate room for a copy: base and placement + 1, or a refusing status (R234, R251, R386). -/
def State.allocCopy (s : State) (p tier bytes : Nat) : State × ((Nat × Nat) ⊕ Nat) :=
  match tier with
  | 1 =>
    match s.allocT1 p bytes with
    | (s1, .inl i) => (s1, .inl ((s1.place i).base, i))
    | (s1, .inr e) => (s1, .inr e)
  | 2 =>
    match extentFit s.t2alloc t2Base ftlReserve (charged bytes) with
    | some b => ({ s with t2alloc := (b, charged bytes) :: s.t2alloc }, .inl (b, 0))
    | none => (s, .inr 8)
  | _ =>
    match extentFit s.t3alloc 0 (s.fget .ftlCapUserblk 0) (ceilDiv bytes 4096) with
    | some b => ({ s.touchFlash with t3alloc := (b, ceilDiv bytes 4096) :: s.t3alloc }, .inl (b, 0))
    | none => (s, .inr 8)

/-- Set the bytes of a copy to zero. -/
def State.zeroCopy (s : State) (tier base bytes : Nat) : State :=
  if tier = 3 then { s with flash := cellsZero s.flash (base * 4096) (ceilDiv bytes 4096 * 4096) }
  else { s with mem := cellsZero s.mem base (charged bytes) }.soilRange base (charged bytes)

/-- Free one copy: its room, and for T3 the trim of its blocks (R246, R292). -/
def State.freeCopy (s : State) (bytes : Nat) (c : Copy) : State :=
  match c.tier with
  | 1 => s.freePlace c.placement
  | 2 => { s with t2alloc := s.t2alloc.filter fun e => e.1 ≠ c.base }
  | _ =>
    let s1 := (s.touchFlash.zeroCopy 3 c.base bytes).trimBlocks c.base (ceilDiv bytes 4096)
    { s1 with t3alloc := s.t3alloc.filter fun e => e.1 ≠ c.base }

/-- Nothing holds a copy: no reference, no old mapping, no stream that reads it (R246). -/
def Copy.dead (c : Copy) : Bool := c.refs.isEmpty && c.mapped.isEmpty && c.streams.isEmpty

/-- Free the copies of an object that nothing holds (R246). -/
def State.sweep (s : State) (i : Nat) : State :=
  let o := s.obj i
  (((o.copies.filter Copy.dead).foldl (fun t c => t.freeCopy o.bytes c) s)).setObj i fun q =>
    { q with copies := q.copies.filter fun c => !c.dead }

/-- A stream has ended: the copies that it alone held are freed (R246). -/
def State.dropStream (s : State) (x : Nat) : State :=
  let held := (s.objs.filter fun e => e.2.copies.any fun c => c.streams.contains x).map (·.1)
  held.foldl (fun t i => (t.setObj i fun o => { o with copies := o.copies.map fun c => { c with streams := c.streams.filter (· ≠ x) } }).sweep i) s

/-- Copy the bytes of one copy to another (promotion and staging move data between tiers). -/
def State.copyBytes (s : State) (src dst : Copy) (bytes : Nat) : State :=
  let from' := if src.tier = 3 then s.flash else s.mem
  let a := if src.tier = 3 then src.base * 4096 else src.base
  let b := if dst.tier = 3 then dst.base * 4096 else dst.base
  if dst.tier = 3 then { s with flash := cellsCopy from' s.flash a bytes b }
  else { s with mem := cellsCopy from' s.mem a bytes b }

/-- The tier manager reads a T3 copy (R288 to R290): whether every block was returned; the bytes are counted as delivered. -/
def State.readCopy (s : State) (c : Copy) (bytes : Nat) : State × Bool :=
  if c.tier ≠ 3 then (s, true)
  else
    let r := s.flashReadAll c.base (ceilDiv bytes 4096)
    (if r.2 then r.1.fadd .ftlReadBytes 0 bytes else r.1, r.2)

/-- First address of the local window, which no page covers (R182, R230). -/
def localWindow : Nat := 0xFFFFFFFC0000

/-- Map a copy at a partition address: T1 pages writable, T2 pages read-only (R230), T3 pages DEMAND (DESIGN CHOICE). -/
def State.mapCopy (s : State) (p i tier va : Nat) (c : Copy) : State :=
  let o := s.obj i
  let size := min (charged o.bytes) (localWindow - va)
  if va = 0 || size = 0 then s
  else
    let s1 :=
      if c.tier = 3 then
        let r := s.ensureRoot p
        r.1.unmapRange p va size true
      else s.mapRange p va c.base size (c.tier = 1)
    s1.setPart p fun q =>
      { q with maps := { va := va, size := size, obj := i, tier := tier, copy := c.id } ::
          q.maps.filter fun x => !overlap x.va x.size va size }

/-- A page of a range has a valid entry. -/
def State.anyValid (s : State) (p va size : Nat) : Bool :=
  (s.part p).root ≠ 0 && (List.range (ceilDiv size 0x10000)).any fun i =>
    match s.walk (s.part p).root (va + 0x10000 * i) 0 4 with
    | .inl (some _) => true
    | _ => false

/-- Map a copy as a command asks: where that changes a valid entry under an open job, at the next boundary (R231). -/
def State.mapAsked (s : State) (p i tier va : Nat) (c : Copy) : State :=
  if va ≠ 0 && s.jobOpen p && s.anyValid p va (min (charged (s.obj i).bytes) (localWindow - va)) then
    s.setPart p fun q => { q with mapsLater := q.mapsLater ++ [{ va := va, size := 0, obj := i, tier := tier, copy := c.id }] }
  else s.mapCopy p i tier va c

/-- Take mappings out of a partition's tables: DEMAND, where their records stay, or UNMAPPED. -/
def State.dropMaps (s : State) (p : Nat) (f : PMap → Bool) (demand : Bool) : State :=
  ((s.part p).maps.filter f).foldl (fun t x => t.unmapRange p x.va x.size demand) s |>.setPart p fun q =>
    { q with maps := if demand then q.maps else q.maps.filter fun x => !f x }

/-- A copy that a partition no longer references and that its old mappings reach. -/
def Copy.lingers (c : Copy) (p : Nat) : Bool := c.mapped.contains p && !c.refs.any fun r => r.part = p

/-- Valid entries of a partition may change (R231): the mappings of copies that it has left move to the copy that it references now
(R246), or become DEMAND where it references none, or UNMAPPED where the object is retired (R386); then the mappings that commands
have asked for are made. What only those mappings held is freed. -/
def State.settleMaps (s : State) (p : Nat) : State :=
  let due := (s.part p).maps.filter fun x => (s.obj x.obj).copies.any fun c => c.id = x.copy && c.lingers p
  let t := due.foldl (fun (t : State) (x : PMap) => match (t.obj x.obj).refCopy x.tier p with
    | some c => t.mapCopy p x.obj x.tier x.va c
    | none => t.dropMaps p (· = x) (!(t.obj x.obj).retired)) s
  let held := (t.objs.filter fun e => e.2.copies.any (·.lingers p)).map (·.1)
  let u := held.foldl (fun (v : State) i =>
    (v.setObj i fun o => { o with copies := o.copies.map fun c => if c.lingers p then { c with mapped := c.mapped.filter (· ≠ p) } else c }).sweep i) t
  (u.part p).mapsLater.foldl (fun (v : State) (x : PMap) => match (v.obj x.obj).refCopy x.tier p with
    | some c => v.mapCopy p x.obj x.tier x.va c
    | none => v) (u.setPart p fun q => { q with mapsLater := [] })

/-- Contexts of a partition's streams whose present descriptor reads a copy: a T3 copy by LBA, another through a mapping (R246). -/
def State.readers (s : State) (p i : Nat) (bytes : Nat) (c : Copy) : List Nat :=
  s.ctxs.filterMap fun e =>
    let d := e.2.desc
    let rows := (List.range (ceilDiv (mvLines d) (max 1 (fld d 4 2)))).map fun r => (mvSrc d (r * max 1 (fld d 4 2))).toNat
    let len := 64 * max 1 (fld d 4 2)
    let hit := if c.tier = 3 then mvLba d && rows.any fun a => overlap a len (4096 * c.base) (4096 * ceilDiv bytes 4096)
      else !mvLba d && (s.part p).maps.any fun x => x.obj = i && x.copy = c.id && rows.any fun a => overlap a len x.va x.size
    if e.2.busy && e.2.ended.isNone && e.2.part = p && e.1 % 136 < 128 && byteAt d 0 = 1 && hit then some e.1 else none

/-- Remove a partition's reference to an object's copy (R246): uncharge it, and free what nothing holds. Its mappings go at once where
valid entries may change (`now`), else at the next boundary, and until then they hold the copy (DEDUCED from R231, log entry 63).
Answers whether the copy was freed. -/
def State.leaveCopy (s : State) (now : Bool) (p i id : Nat) : State × Bool :=
  let o := s.obj i
  match o.copies.find? fun c => c.id = id && c.refs.any fun r => r.part = p with
  | none => (s, false)
  | some c =>
    let hasMap := (s.part p).maps.any fun x => x.obj = i && x.copy = id
    let rd := s.readers p i o.bytes c
    let s1 := (s.uncharge p c.tier o.bytes).setObj i fun q =>
      { q with copies := setCopy q.copies id fun c =>
          { c with refs := c.refs.filter fun r => r.part ≠ p, mapped := if hasMap then p :: c.mapped else c.mapped, streams := c.streams ++ rd } }
    let s2 := (if now then s1.settleMaps p else s1).sweep i
    (s2, !(s2.obj i).copies.any fun x => x.id = id)

/-- As a command asks it. -/
def State.dropRef (s : State) (p i id : Nat) : State × Bool := s.leaveCopy (!s.jobOpen p) p i id

/-- Add a reference to a copy: charged, used now (R249, R250). A reference the partition already holds in the tier moves and
keeps its pin; its mappings follow at once when no job is open, else at the next boundary (R246). -/
def State.addRef (s : State) (p i id tier : Nat) : State :=
  let o := s.obj i
  match o.refCopy tier p with
  | some c =>
    if c.id = id then
      s.setObj i fun q => { q with copies := setCopy q.copies id fun c =>
        { c with refs := c.refs.map fun r => if r.part = p then { r with used := s.stamp } else r } }
    else
      let pin := (c.refs.find? fun r => r.part = p).any (·.pinned)
      let hasMap := (s.part p).maps.any fun x => x.obj = i && x.copy = c.id
      let rd := s.readers p i o.bytes c
      let s1 := s.setObj i fun q => { q with copies := (setCopy q.copies id fun d =>
          { d with refs := d.refs ++ [{ part := p, pinned := pin, used := s.stamp }] }).map fun d =>
            if d.id = c.id then { d with refs := d.refs.filter (fun r => r.part ≠ p), mapped := if hasMap then p :: d.mapped else d.mapped,
                                         streams := d.streams ++ rd } else d }
      (if s1.jobOpen p then s1 else s1.settleMaps p).sweep i
  | none =>
    (s.charge p tier o.bytes).setObj i fun q => { q with copies := setCopy q.copies id fun d =>
      { d with refs := d.refs ++ [{ part := p, pinned := false, used := s.stamp }] } }

/-- A copy that a promotion may share (R246): current version and, in T1, the partition's channel set and seed. -/
def State.sharable (s : State) (p : Nat) (o : Obj) (tier : Nat) (c : Copy) : Bool :=
  c.tier = tier && c.version = o.version &&
  (tier ≠ 1 || ((s.place c.placement).chset = s.chset p && (s.place c.placement).seed = s.fget .tierPHashSeed p))

/-- The copy of the current version in the nearest lower tier (R246). -/
def Obj.lower (o : Obj) (tier : Nat) : Option Copy :=
  match o.copies.find? fun c => c.tier = tier + 1 && c.version = o.version with
  | some c => some c
  | none => if tier = 1 then o.copies.find? fun c => c.tier = 3 && c.version = o.version else none

/-- Bytes that a transfer of the tier manager delivers are counted on the engine that carries it (R253, R254, R284): that of the
partition's home quadrant (DESIGN CHOICE, log entry 63). -/
def State.tierBytes (s : State) (p bytes : Nat) : State := s.fadd .strmEBytes (s.homeQuad p % 4) bytes

/-- Promote an object for a partition (R246): whether a copy was made, or the refusing status. -/
def State.promote (s : State) (p i tier : Nat) : State × (Bool ⊕ Nat) :=
  let o := s.obj i
  let held := o.refCopy tier p
  match o.copies.find? fun c => s.sharable p o tier c with
  | some c =>
    if held.isNone && !s.withinQuota p tier o.bytes then (s, .inr 7)
    else (s.tick.addRef p i c.id tier, .inl false)
  | none =>
    match o.lower tier with
    | none => (s, .inr 5)
    | some src =>
      if held.isNone && !s.withinQuota p tier o.bytes then (s, .inr 7)
      else match s.readCopy src o.bytes with
      | (s0, false) => (s0, .inr 0xC)
      | (s0, true) => match s0.allocCopy p tier o.bytes with
        | (_, .inr e) => (s, .inr e)
        | (s1, .inl (base, pl)) =>
          let c : Copy := { id := o.nextCopy, tier := tier, version := o.version, base := base, placement := pl }
          let s2 := (s1.zeroCopy tier base o.bytes).copyBytes src c o.bytes
          let s3 := s2.setObj i fun q => { q with copies := q.copies ++ [c], nextCopy := q.nextCopy + 1 }
          (s3.tick.addRef p i c.id tier, .inl true)

/-- A page of a DEMAND mapping is served: the object is made resident and the mapping set valid (R230). -/
def State.serveDemand (s : State) (p va : Nat) : State × Bool :=
  match (s.part p).maps.find? fun x => x.va ≤ va && va < x.va + x.size with
  | none => (s, false)
  | some x =>
    let tier := if x.tier = 3 then 1 else x.tier
    match s.promote p x.obj tier with
    | (s1, .inl made) =>
      match (s1.obj x.obj).refCopy tier p with
      | some c => ((if made then s1.tierBytes p (s1.obj x.obj).bytes else s1).mapCopy p x.obj tier x.va c, true)
      | none => (s, false)
    | (s1, .inr _) =>
      match (s.obj x.obj).refCopy x.tier p with
      | some c => (s1.mapCopy p x.obj x.tier x.va c, decide (c.tier ≠ 3))
      | none => (s1, false)

/-- The unpinned reference of a partition in a tier that was used least recently, ties to the lower handle (R250): handle, object and
copy. -/
def State.oldestRef (s : State) (p tier : Nat) : Option (Nat × Nat × Nat) :=
  let cands := s.objs.flatMap fun e => e.2.copies.filterMap fun c =>
    if c.tier = tier then
      (c.refs.find? fun r => r.part = p && !r.pinned).map fun r => (r.used, s.handle e.1, e.1, c.id)
    else none
  (cands.foldl (fun (b : Option (Nat × Nat × Nat × Nat)) x => match b with
    | none => some x
    | some y => if x.1 < y.1 || (x.1 = y.1 && x.2.1 < y.2.1) then some x else some y) none).map (·.2)

/-- Evict unpinned references of a partition while a condition holds, least recently used first (R250); each eviction is logged. -/
def State.evictWhile (s : State) (p tier : Nat) (more : State → Bool) : Nat → State
  | 0 => s
  | fuel + 1 =>
    if !more s then s
    else match s.oldestRef p tier with
    | none => s
    | some (h, i, id) =>
      let s1 := (s.leaveCopy true p i id).1
      (s1.logMill p 0xE (toBytes 4 h ++ toBytes 1 tier ++ [1]) (toBytes 4 h ++ toBytes 1 tier ++ [0])).evictWhile p tier more fuel

/-- References to copies of every object: no eviction takes more steps. -/
def State.refCount (s : State) : Nat := s.objs.foldl (fun a e => e.2.copies.foldl (fun b c => b + c.refs.length) a) 0

/-- Evictions of a quota cut (R250). -/
def State.evictOver (s : State) (p tier : Nat) : State :=
  s.evictWhile p tier (fun t => decide (t.fget (quotaFld tier) p < t.fget (useFld tier) p)) s.refCount

/-- The tier manager's work at a batch-step boundary (R231, R250): quota evictions, then moved mappings. -/
def State.boundaryWork (s : State) (p : Nat) : State :=
  (((s.evictOver p 1).evictOver p 2).evictOver p 3).settleMaps p

/-- At the end of a job the references to older versions of a staged object leave (R248), and those to deleted objects
(R386). -/
def State.jobEndRefs (s : State) (p : Nat) : State :=
  s.objs.foldl (fun (t : State) (e : Nat × Obj) =>
    e.2.copies.foldl (fun (u : State) (c : Copy) =>
      let held := c.refs.any fun r => r.part = p
      let newer := (u.obj e.1).copies.any fun d => d.tier = c.tier && d.version > c.version && d.refs.any fun r => r.part = p
      if held && (e.2.retired || newer) then (u.leaveCopy true p e.1 c.id).1 else u) t) s

/-- Remove every reference of a partition (R384). -/
def State.dropAllRefs (s : State) (p : Nat) : State :=
  s.objs.foldl (fun (t : State) (e : Nat × Obj) =>
    e.2.copies.foldl (fun (u : State) (c : Copy) => (u.leaveCopy true p e.1 c.id).1) t) s

/-! ## Commands of group 0x03 -/

/-- The lowest index that may be used for a new object (R245, R386). -/
def State.freeIndex (s : State) : Nat :=
  ((List.range (s.objs.length + 1)).find? fun i =>
    let o := s.obj i
    !o.used || (o.retired && o.copies.isEmpty)).getD s.objs.length

/-- OBJ_CREATE (R386). -/
def cmdObjCreate (s : State) (_m : Nat) (r : MbxReq) : State × Ans :=
  let d := r.data
  let p := byteAt d 5
  let kind := byteAt d 16
  let tier := byteAt d 17
  let bytes := fld d 24 8
  let i := s.freeIndex
  let fmaps := (s.objs.filter fun e => e.2.kind = 3 && !e.2.retired && e.2.creator = p).length
  if i ≥ 2 ^ 24 || (kind = 3 && fmaps ≥ 64) then (s, .now 9 [])
  else if !s.withinQuota p tier bytes then (s, .now 7 [])
  else if tier = 3 && s.fget .ftlStatusState 0 = 3 then (s, .now 0xA [])
  else if tier = 3 && s.returnErase then (s, .now 8 [])
  else match s.allocCopy p tier bytes with
    | (_, .inr e) => (s, .now e [])
    | (s1, .inl (base, pl)) =>
      let c : Copy := { id := 0, tier := tier, version := 0, base := base, placement := pl }
      let o := s.obj i
      let gen := if o.used then (o.gen + 1) % 256 else 0
      let s2 := (s1.zeroCopy tier base bytes).setObj i fun _ =>
        { used := true, gen := gen, kind := kind, format := byteAt d 18, bytes := bytes, creator := p, copies := [c],
          nextCopy := 1, born := s.stamp, va := if kind = 3 then fld d 32 6 else 0 }
      let s3 := (s2.tick.addRef p i 0 tier).mapAsked p i tier (fld d 32 6) c
      let h := s3.handle i
      let s4 := s3.logCmd _m r 0xE [] (toBytes 4 h ++ [BitVec.ofNat 8 kind, BitVec.ofNat 8 tier, BitVec.ofNat 8 (byteAt d 18), 0] ++ toBytes 8 bytes)
      (s4, .logged (toBytes 4 h))

/-- OBJ_SHARE (R386). -/
def cmdObjShare (s : State) (m : Nat) (r : MbxReq) : State × Ans :=
  let d := r.data
  let q := byteAt d 20
  match s.lookup m (fld d 16 4) with
  | .inr e => (s, .now e [])
  | .inl i =>
    if m < 64 && (s.obj i).creator ≠ m then (s, .now 2 [])
    else
      let was : Nat := if (s.obj i).grants.contains q then 1 else 0
      let now : Nat := 1 - byteAt d 21
      let s1 := s.setObj i fun o =>
        { o with grants := if now = 1 then (if o.grants.contains q then o.grants else q :: o.grants) else o.grants.filter (· ≠ q) }
      let side (b : Nat) : List Byte := toBytes 4 (s.handle i) ++ toBytes 1 q ++ toBytes 1 b
      (s1.logCmd m r 0xE (side was) (side now), .logged [])

/-- T3 cannot be read yet (R305, R505). -/
def State.flashDown (s : State) : Bool := !bitAt (s.fget .glbReadyStatus 0) 15 && s.fget .ftlStatusState 0 ≠ 4

/-- A promotion of an object into a tier would read T3. -/
def State.needsFlash (s : State) (p i tier : Nat) : Bool :=
  !((s.obj i).copies.any fun c => s.sharable p (s.obj i) tier c) && ((s.obj i).lower tier).any fun c => c.tier = 3

/-- OBJ_PROMOTE (R246). -/
def cmdObjPromote (s : State) (m : Nat) (r : MbxReq) : State × Ans :=
  let d := r.data
  let p := byteAt d 5
  let tier := byteAt d 20
  match s.lookup m (fld d 16 4) with
  | .inr e => (s, .now e [])
  | .inl i =>
    if s.flashDown && s.needsFlash p i tier then (s, .later)
    else match s.promote p i tier with
    | (s1, .inr e) => (s1, .now e [])
    | (s1, .inl made) =>
      let s2 := match (s1.obj i).refCopy tier p with
        | some c => s1.mapAsked p i tier (fld d 24 6) c
        | none => s1
      (s2, .running (padTo 8 [if made then 1 else 0] ++ toBytes 8 (charged (s.obj i).bytes)))

/-- OBJ_EVICT (R246, R386). -/
def cmdObjEvict (s : State) (m : Nat) (r : MbxReq) : State × Ans :=
  let p := byteAt r.data 5
  match s.lookup m (fld r.data 16 4) with
  | .inr e => (s, .now e [])
  | .inl i =>
    match (s.obj i).refCopy (byteAt r.data 20) p with
    | none => (s, .now 5 [])
    | some c =>
      let q := s.dropRef p i c.id
      (q.1, .now 0 [if q.2 then 1 else 0])

/-- OBJ_PIN (R386). -/
def cmdObjPin (s : State) (m : Nat) (r : MbxReq) : State × Ans :=
  let p := byteAt r.data 5
  match s.lookup m (fld r.data 16 4) with
  | .inr e => (s, .now e [])
  | .inl i =>
    match (s.obj i).refCopy (byteAt r.data 20) p with
    | none => (s, .now 5 [])
    | some c =>
      (s.setObj i fun o => { o with copies := setCopy o.copies c.id fun x =>
        { x with refs := x.refs.map fun f => if f.part = p then { f with pinned := byteAt r.data 21 = 1 } else f } }, .now 0 [])

/-- The checks of OBJ_STAGE, made before anything changes (R292, R295, R383, R386). -/
def cmdObjStage (s : State) (m : Nat) (r : MbxReq) : State × Ans :=
  let d := r.data
  let p := byteAt d 5
  let tier := byteAt d 20
  match s.lookup m (fld d 16 4) with
  | .inr e => (s, .now e [])
  | .inl i =>
    let o := s.obj i
    if fld d 24 8 + fld d 32 8 > ceilDiv o.bytes 4096 * 4096 then (s, .now 1 (toBytes 2 32))
    else if tier = 3 && s.fget .ftlStatusState 0 = 3 then (s, .now 0xA [])
    else if tier = 3 && s.returnErase then (s, .now 8 [])
    else if tier = 3 && s.fget .pwrStateStage 0 ≠ 0 then (s, .now 0xB [])
    else match o.refCopy tier p with
      | none => (s, .now 5 [])
      | some _ =>
        match s.cmdRead m p (fld d 40 6) (fld d 32 8) with
        | (s1, .inr a) => (s1, a)
        | (s1, .inl _) => (s1, .running [])

/-- Staged bytes are written into a copy (R248, R292); T3 blocks are laid on stripes and are no longer lost (R287, R290). -/
def State.putStaged (s : State) (tier base off : Nat) (data : List Byte) : State :=
  if tier = 3 then
    let u := s.touchFlash
    let lbas := List.range' (base + off / 4096) (data.length / 4096)
    { u with flash := cellsSet u.flash (base * 4096 + off) data, lostBlocks := u.lostBlocks.filter fun l => !lbas.contains l }.layBlocks lbas
  else (s.soilRange ((base + off) / 0x10000 * 0x10000) (data.length + 0x10000)).st (base + off) data

/-- The blocks of a T3 copy go to a new version of it (R248, R292): a block that cannot be returned stays lost there (DEDUCED, log
entry 64), the others are programmed. -/
def State.carryBlocks (s : State) (src dst bytes : Nat) : State :=
  let n := ceilDiv bytes 4096
  let r := (s.written src n).foldl (fun (t : State × List Nat) l => let q := t.1.flashRead l; (q.1, if q.2 then t.2 else l :: t.2)) (s, [])
  let moved := (s.written src n).map fun l => dst + (l - src)
  { r.1 with lostBlocks := r.2.map (fun l => dst + (l - src)) ++ r.1.lostBlocks }.layBlocks moved

/-- The effect of a staging write, at its completion (R248, R292, R293): the copy in the tier is written in place, or a new
version is made when a running job holds a reference to the object. Answers VERSIONED, or a refusing status. -/
def State.stage (s : State) (p i tier off : Nat) (data : List Byte) : State × (Nat ⊕ Nat) :=
  let o := s.obj i
  match o.refCopy tier p with
  | none => (s, .inr 5)
  | some c =>
    let count (t : State) : State := if tier = 3 then t.fadd .ftlStageBytes 0 data.length else t
    if o.copies.any fun x => x.refs.any fun r => s.jobOpen r.part then
      match s.allocCopy p tier o.bytes with
      | (_, .inr e) => (s, .inr e)
      | (s1, .inl (base, pl)) =>
        let n : Copy := { id := o.nextCopy, tier := tier, version := o.version + 1, base := base, placement := pl }
        let s1' := (s1.zeroCopy tier base o.bytes).copyBytes c n o.bytes
        let s2 := (if tier = 3 then s1'.carryBlocks c.base base o.bytes else s1').putStaged tier base off data
        let s3 := s2.setObj i fun q => { q with version := q.version + 1, nextCopy := q.nextCopy + 1, copies := n :: q.copies }
        -- every reference to the old version also holds the new one until its job ends
        let s4 := c.refs.foldl (fun (t : State) (f : Ref) =>
          ((t.charge f.part tier o.bytes).setObj i fun q => { q with copies := setCopy q.copies n.id fun x =>
            { x with refs := x.refs ++ [{ f with used := t.stamp }] } })) s3.tick
        let s5 := c.refs.foldl (fun (t : State) (f : Ref) => if t.jobOpen f.part then t else (t.leaveCopy true f.part i c.id).1) s4
        (count s5, .inl 1)
    else
      let upd (x : Copy) : Copy :=
        { x with version := o.version + 1, refs := x.refs.map fun f => if f.part = p then { f with used := s.stamp } else f }
      let s1 := (s.putStaged tier c.base off data).setObj i fun q => { q with version := q.version + 1, copies := setCopy q.copies c.id upd }
      (count s1.tick, .inl 0)

/-- OBJ_QUERY (R386). -/
def cmdObjQuery (s : State) (m : Nat) (r : MbxReq) : State × Ans :=
  let p := byteAt r.data 5
  match s.lookup m (fld r.data 16 4) with
  | .inr e => (s, .now e [])
  | .inl i =>
    let o := s.obj i
    let mask (f : Copy → Bool) : Nat := [1, 2, 3].foldl (fun a t => if o.copies.any fun c => c.tier = t && f c then a + 2 ^ t else a) 0
    let t3 := ((o.copies.find? fun c => c.tier = 3).map (·.base)).getD 0
    let refs := (o.copies.filter fun c => c.refs.any fun f => f.part = p).length
    (s, .now 0 (toBytes 1 o.kind ++ toBytes 1 o.format ++ toBytes 1 (mask fun _ => true) ++
      toBytes 1 (mask fun c => c.refs.any fun f => f.part = p && f.pinned) ++ toBytes 4 0 ++ toBytes 8 o.bytes ++
      toBytes 6 t3 ++ toBytes 2 0 ++ toBytes 4 o.version ++ toBytes 4 refs))

/-- OBJ_DELETE (R386). -/
def cmdObjDelete (s : State) (m : Nat) (r : MbxReq) : State × Ans :=
  match s.lookup m (fld r.data 16 4) with
  | .inr e => (s, .now e [])
  | .inl i =>
    if m < 64 && (s.obj i).creator ≠ m then (s, .now 2 [])
    else
      let h := s.handle i
      let s1 := s.setObj i fun o => { o with retired := true }
      let s2 := (s.obj i).copies.foldl (fun (t : State) (c : Copy) =>
        c.refs.foldl (fun (u : State) (f : Ref) => if u.jobOpen f.part then u else (u.leaveCopy true f.part i c.id).1) t) s1
      -- mappings that reach no copy of it any more go too, and so do those asked for
      let reach (t : State) (p : Nat) (x : PMap) : Bool :=
        (t.obj i).copies.any fun c => c.id = x.copy && (c.mapped.contains p || c.refs.any fun r => r.part = p)
      let s3 := s2.parts.foldl (fun (t : State) (e : Nat × Partition) =>
        (t.dropMaps e.1 (fun x => x.obj = i && !reach t e.1 x) false).setPart e.1 fun q =>
          { q with mapsLater := q.mapsLater.filter fun x => x.obj ≠ i }) s2
      ((s3.sweep i).logCmd m r 0xE (toBytes 4 h) [], .logged [])

/-- HASH_SET (R236, R385). -/
def cmdHashSet (s : State) (m : Nat) (r : MbxReq) : State × Ans :=
  let p := byteAt r.data 5
  let side (t : State) : List Byte := toBytes 1 (t.fget .tierPHashHmode p) ++ [0] ++ toBytes 2 (t.fget .tierPHashSeed p)
  let s1 := (s.fset .tierPHashHmode p (byteAt r.data 16)).fset .tierPHashSeed p (fld r.data 18 2)
  (s1.logCmd m r 7 (side s) (side s1), .logged [])

/-! ## Losing a channel -/

/-- The channel of a DPA inside a placement (R235). -/
def Placement.channel (q : Placement) (a : Nat) : Nat :=
  let chs := (List.range 256).filter fun c => q.chset.testBit c
  let n := chs.length
  let rotl8 (x k : Nat) : Nat := (x * 2 ^ k + x / 2 ^ (8 - k)) % 256
  let rot := q.seed % 8
  let g := (a - q.base) / 256
  let l := g / max 1 n
  let j := g % max 1 n
  let h := (l % 256) ^^^ rotl8 (l / 256 % 256) rot ^^^ rotl8 (l / 65536 % 256) (2 * rot % 8) ^^^ (q.seed / 256 % 256)
  let slot := if 2 ^ Nat.log2 n = n then j ^^^ (h % n) else (j + h) % max 1 n
  chs.getD slot 0

/-- Channel address of a DPA (R235). -/
def Placement.chanAddr (q : Placement) (a : Nat) : Nat :=
  q.rowb * rowBytes + ((a - q.base) / 256 / max 1 (chCount q.chset)) * 256 + (a - q.base) % 256

/-- Everything that lies in placement `i` moves to a new base: copies with their mappings (R244). -/
def State.rebase (s : State) (i : Nat) (base : Nat) : State :=
  s.objs.foldl (fun (t : State) (e : Nat × Obj) =>
    e.2.copies.foldl (fun (u : State) (c : Copy) =>
      if c.placement ≠ i then u
      else
        let u1 := u.setObj e.1 fun o => { o with copies := setCopy o.copies c.id fun x => { x with base := base } }
        u1.parts.foldl (fun (v : State) (q : Nat × Partition) =>
          q.2.maps.foldl (fun (x : State) (mp : PMap) =>
            if mp.obj = e.1 && mp.copy = c.id && (c.mapped.contains q.1 || c.refs.any fun r => r.part = q.1) then
              x.mapRange q.1 mp.va base mp.size (c.tier = 1)
            else x) v) u1) t) s

/-- Re-place one placement over a new channel set with its own seed, its bytes copied (R244): whether room was found. -/
def State.replace (s : State) (i chset : Nat) : State × Bool :=
  let q := s.place i
  let freed := s.freePlace i
  match freed.allocSet q.part q.bytes chset q.near with
  | (s1, .inl j) =>
    let q1 := { s1.place j with seed := q.seed }
    let s2 := { s1 with mem := cellsCopy s.mem (cellsZero s1.mem q1.base q1.size) q.base q.bytes q1.base,
                        placements := SMap.set {} (SMap.set {} s1.placements (j - 1) {}) (i - 1) q1 }
    (((s2.soilRange q1.base q1.size).rebase i q1.base).tierBytes q.part q.bytes, true)
  | (_, .inr _) => (s, false)

/-- The placements of a partition. -/
def State.placesOf (s : State) (p : Nat) : Nat := (s.usedPlacements.filter fun q => q.part = p).length

/-- A T1 channel is mapped out (R242 to R244): capacity falls, and every placement that held it is re-placed over its
survivors. Answers the number re-placed. -/
def State.mapOut (s : State) (ch cause : Nat) : State × Nat :=
  if s.fget .tierChLive ch = 0 then (s, 0)
  else
    let s1 := ((((s.fset .tierChLive ch 0).fset .tierChCause ch cause).fset .tierLive (ch / 32)
      (s.fget .tierLive (ch / 32) &&& (2 ^ 32 - 1 - 2 ^ (ch % 32)))).fset .tierCapLive 0 (s.fget .tierCapLive 0 - 1)).fset
        .tierCapT1cap 0 (s.fget .tierCapT1cap 0 - 3)
    -- the system region, spread over one channel fewer, may need more rows of each (R227)
    let hit := (s1.placements.filter fun e => e.2.used && (e.2.chset.testBit ch || e.2.base + e.2.size > s1.t1Backed ||
      e.2.base < s1.sysSize || e.2.rowb < s1.sysRows)).map (·.1)
    let moved := hit.foldl (fun (t : State × List Nat) (i : Nat) =>
      let q := SMap.get {} t.1.placements i
      let set := if q.chset.testBit ch then q.chset - 2 ^ ch else q.chset
      -- where too few rows remain, unpinned cached copies of the partition leave until there are enough (R244, R250)
      let e := t.1.evictWhile q.part 1 (fun u => (u.place (i + 1)).used && !(u.replace (i + 1) set).2) t.1.refCount
      if !(e.place (i + 1)).used then (e, t.2)
      else
        let r := e.replace (i + 1) set
        (r.1, if r.2 then q.part :: t.2 else t.2)) (s1, [])
    -- one entry for each partition whose placements have moved (R390, R575)
    ((List.range 64).foldl (fun (t : State) p =>
      let n := moved.2.count p
      if n = 0 then t else t.logMill p 0x10 (toBytes 4 (s.placesOf p)) (toBytes 4 (t.placesOf p) ++ toBytes 4 n)) moved.1, moved.2.length)

/-- CH_MAPOUT (R242, R244, R390). -/
def cmdChMapout (s : State) (m : Nat) (r : MbxReq) : State × Ans :=
  let ch := byteAt r.data 16
  if s.fget .tierChLive ch = 0 then (s, .now 5 [])
  else
    let q := s.mapOut ch 4
    let side (t : State) (c : Nat) : List Byte := toBytes 2 (t.fget .tierCapLive 0) ++ toBytes 1 ch ++ toBytes 1 c
    let s1 := (q.1.logFault { cls := 3, action := 6, unit := unitWord 4 ch, detail := ch }).logCmd m r 0x10 (side s 0) (side q.1 4 ++ toBytes 4 q.2)
    let s2 := s1.devEvent 0x985 [BitVec.ofNat 8 ch, 4]
    (s2, .logged (toBytes 4 q.2))

end Sys2Proof.Machine
end

