-- ==== Sys2Proof/Machine/Model.lean ====
section
/-! DEFINITION. LOAD_MODEL: the package, the plan, and what it places (R278, R282, R283, R387). -/

namespace Sys2Proof.Machine

/-- One layer of a model package (R387). -/
structure PkgLayer where
  idx : Nat
  size : Nat
  ns : Nat
  offset : Nat
  format : Nat
  shadow : Bool
  pin : Bool
  /-- Source tier of its stream and its rate in bytes per second. -/
  tier : Nat := 3
  rate : Nat := 1
  pinned : Bool := false
  deriving DecidableEq, Repr

/-- Layers of a package's bytes. -/
def pkgLayers (d : List Byte) (n : Nat) : List PkgLayer :=
  (List.range n).map fun i =>
    let l := (d.drop (16 + 32 * i)).take 32
    { idx := i, size := fld l 0 8, ns := fld l 8 8, offset := fld l 16 8, format := byteAt l 24,
      shadow := bitAt (byteAt l 25) 0, pin := bitAt (byteAt l 25) 1 }

/-- Stream time of a layer in ns, rounded up (R282). -/
def PkgLayer.streamNs (l : PkgLayer) : Nat := ceilDiv (l.size * 1000000000) (max 1 l.rate)

/-- Predicted time of a layer (R283). -/
def PkgLayer.time (l : PkgLayer) : Nat := if l.pinned then l.ns else max l.ns l.streamNs

/-- Whether layer a is hotter than layer b (R282 step 4): H = max(0, S / v - C) / S, compared exactly; requested layers
first (R387); equal heat goes to the lower index. Heat as a fraction: (S * 10^9 - C * v) over S * v. -/
def PkgLayer.hotter (a b : PkgLayer) : Bool :=
  let num (l : PkgLayer) : Nat := l.size * 1000000000 - l.ns * l.rate
  let den (l : PkgLayer) : Nat := max 1 (l.size * l.rate)
  if a.pin != b.pin then a.pin
  else if num a * den b ≠ num b * den a then num a * den b > num b * den a
  else a.idx < b.idx

/-- Insert by heat. -/
def insertHot (l : PkgLayer) : List PkgLayer → List PkgLayer
  | [] => [l]
  | x :: xs => if l.hotter x then l :: x :: xs else x :: insertHot l xs

/-- Assign source tiers to the layers that are not pinned, in layer order, while the T2 quota holds the copies (R282 step 1). -/
def assignTier (t2left r2 r3 : Nat) : List PkgLayer → List PkgLayer
  | [] => []
  | l :: ls =>
    if l.pinned then l :: assignTier t2left r2 r3 ls
    else if charged l.size ≤ t2left then { l with tier := 2, rate := r2 } :: assignTier (t2left - charged l.size) r2 r3 ls
    else { l with tier := 3, rate := r3 } :: assignTier t2left r2 r3 ls

/-- Choose what to pin in order of heat within a budget (R282 step 4). -/
def pinLayers (budget : Nat) : List PkgLayer → List Nat
  | [] => []
  | l :: ls => if charged l.size ≤ budget then l.idx :: pinLayers (budget - charged l.size) ls else pinLayers budget ls

/-- The package of a LOAD_MODEL (R387): its layers, `none` where the object holds none. -/
def readPkg (kind bytes : Nat) (rd : Nat → Nat → List Byte) : Option (List PkgLayer) :=
  let n := ofBytes (rd 4 4)
  if kind ≠ 5 || ofBytes (rd 0 4) ≠ 0x4C444B41 || n = 0 || n > 4096 || bytes < 16 + 32 * n then none
  else some (pkgLayers (rd 0 (16 + 32 * n)) n)

/-- Twice the largest slice that streams from T3 (R269). -/
def deckleReserve (ls : List PkgLayer) : Nat := 2 * (ls.filter fun l => !l.pinned && l.tier = 3).foldl (fun a l => max a l.size) 0

/-- The plan (R282). The heats rest on the source tiers that the layers have when none is pinned, and the budget on the reserve of those;
the layers that are not pinned then take their tiers again (DESIGN CHOICE, log entry 63: the steps depend on one another). `t2` is what
the T2 quota still holds, none where the layers already have T2 copies that the partition references. -/
def planOf (t1left : Nat) (t2 : Option Nat) (r2 r3 : Nat) (ls : List PkgLayer) : List PkgLayer :=
  let all (l : List PkgLayer) : List PkgLayer := match t2 with
    | some n => assignTier n r2 r3 l
    | none => l.map fun x => if x.pinned then x else { x with tier := 2, rate := r2 }
  let first := all ls
  let pins := pinLayers (t1left - charged (deckleReserve first)) (first.foldl (fun acc l => insertHot l acc) [])
  all (first.map fun l => { l with pinned := pins.contains l.idx })

/-- Format codes of INT1 and INT2 (R39). -/
def narrowFormat (f : Nat) : Bool := f ≤ 1

/-- One layer of the plan is placed (R282): a pinned one in T1, a streamed one that T2 holds as a copy there, its bytes taken from a copy
of the WEIGHTS object. -/
def State.placeLayer (s : State) (p w : Nat) (src : Copy) (copyT2 : Bool) (l : PkgLayer) : State × Option Nat :=
  let from' : State × (Nat → List Host.Cell → List Host.Cell) :=
    if src.tier = 3 then (s, fun b m => cellsCopy s.flash m (4096 * src.base + l.offset) l.size b)
    else (s, fun b m => cellsCopy s.mem m (src.base + l.offset) l.size b)
  let fetched : State × Bool := if src.tier = 3 && (l.pinned || (copyT2 && l.tier = 2)) then
      let r := s.flashReadAll (src.base + l.offset / 4096) (ceilDiv (l.offset % 4096 + l.size) 4096)
      (if r.2 then r.1.fadd .ftlReadBytes 0 l.size else r.1, r.2)
    else (s, true)
  let rec' (pl t2 : Nat) : Layer :=
    { part := p, obj := w, layer := l.idx, placement := pl, t2 := t2, bytes := l.size, shdw := l.shadow && !narrowFormat l.format }
  if !fetched.2 then (fetched.1, some 0xC)
  else if l.pinned then
    match fetched.1.allocT1 p l.size with
    | (t, .inl i) =>
      let b := (t.place i).base
      (({ t with layers := rec' i 0 :: t.layers, mem := from'.2 b (cellsZero t.mem b (charged l.size)) }.soilRange b (charged l.size)).charge p 1 l.size, none)
    | (t, .inr e) => (t, some e)
  else if copyT2 && l.tier = 2 then
    match extentFit fetched.1.t2alloc t2Base ftlReserve (charged l.size) with
    | some b =>
      ({ fetched.1 with layers := rec' 0 b :: fetched.1.layers, t2alloc := (b, charged l.size) :: fetched.1.t2alloc,
                        mem := from'.2 b (cellsZero fetched.1.mem b (charged l.size)) }.charge p 2 l.size, none)
    | none => (fetched.1, some 8)
  else ({ fetched.1 with layers := rec' 0 0 :: fetched.1.layers }, none)

/-- The deckle reserve of a model is made and charged (R249, R269). -/
def State.makeReserve (s : State) (p bytes : Nat) : State × Option Nat :=
  if bytes = 0 then (s, none)
  else match s.allocT1 p bytes with
    | (t, .inl i) => ({ t with reserves := (p, i, charged bytes) :: t.reserves }.charge p 1 bytes, none)
    | (t, .inr e) => (t, some e)

/-- LOAD_MODEL (R282, R283, R387): the plan is made, its layers and the reserve are placed, and it is written. -/
def cmdLoadModel (s : State) (m : Nat) (r : MbxReq) : State × Ans :=
  let d := r.data
  let p := byteAt d 5
  match s.lookup m (fld d 16 4), s.lookup m (fld d 20 4) with
  | .inr e, _ => (s, .now e [])
  | _, .inr e => (s, .now e [])
  | .inl pk, .inl w =>
    let o := s.obj pk
    let ow := s.obj w
    match o.copies.find? fun c => c.version = o.version, ow.copies.find? fun c => c.version = ow.version with
    | none, _ => (s, .now 5 [])
    | _, none => (s, .now 5 [])
    | some c, some src =>
      if (c.tier = 3 || src.tier = 3) && s.flashDown then (s, .later)
      else match s.readCopy c o.bytes with
      | (s0, false) => (s0, .now 0xC [])
      | (s0, true) =>
        let rd (a n : Nat) : List Byte := if c.tier = 3 then cellsGet s.flash (c.base * 4096 + a) n else s.ld (c.base + a) n
        match readPkg o.kind o.bytes rd with
        | none => (s0, .now 1 (toBytes 2 16))
        | some ls =>
          let skn := (s.skeins p).length
          let r2 := if fld d 24 4 = 0 then 1092224000000 * 9 * skn / 640 else fld d 24 4 * 1000000
          let r3 := if fld d 28 4 = 0 then 57600000000 * 9 * skn / 640 else fld d 28 4 * 1000000
          let own := (ow.refCopy 2 p).any fun x => x.version = ow.version
          let t1left := s.fget .tierPT1quota p - s.fget .tierPT1use p
          let plan := planOf t1left (if own then none else some (s.fget .tierPT2quota p - s.fget .tierPT2use p)) r2 r3 ls
          let reserve := deckleReserve plan
          if reserve ≠ 0 && !s.withinQuota p 1 reserve then (s0, .now 7 [])
          else match s0.cmdProbe m p (fld d 32 6) (16 * ls.length) with
          | (s1, some a) => (s1, a)
          | (s1, none) =>
            let res := s1.makeReserve p reserve
            let place := plan.foldl (fun (t : State × Option Nat) (l : PkgLayer) =>
              if t.2.isSome then t else t.1.placeLayer p w src (!own) l) res
            match place with
            -- what a medium lost while it was read stays noted
            | (t, some e) => (if e = 0xC then { s1 with lostBlocks := t.lostBlocks, lostLog := t.lostLog, lostNext := t.lostNext, fresh := t.fresh }
              else s1, .now e [])
            | (s2, none) =>
              let rows := plan.flatMap fun l => toBytes 4 l.idx ++ [if l.pinned then 1 else 0, BitVec.ofNat 8 l.tier, 0, 0] ++ toBytes 8 l.time
              let s3 := s2.vstoreGo p (fld d 32 6) rows (rows.length / 4096 + 2)
              let pinned := (plan.filter (·.pinned)).foldl (fun a l => a + l.size) 0
              let time := plan.foldl (fun a l => a + l.time) 0
              (s3, .running (toBytes 4 ls.length ++ toBytes 4 0 ++ toBytes 8 pinned ++ toBytes 8 (charged reserve) ++ toBytes 8 time ++
                toBytes 4 (if time = 0 then 0 else 1000000000000 / time)))

/-- Bytes that a command of the tier manager moves (R254), and whether they come from T3: a promotion that makes a copy, a staging write
with the version that it makes, the layers of a model. -/
def State.tierMoves (s : State) (m : Nat) (r : MbxReq) : Nat × Bool :=
  let d := r.data
  let p := byteAt d 5
  match s.lookup m (fld d 16 4) with
  | .inr _ => (0, false)
  | .inl i =>
    let o := s.obj i
    match fld d 0 2 with
    | 0x303 => if o.copies.any fun c => s.sharable p o (byteAt d 20) c then (0, false) else (o.bytes, (o.lower (byteAt d 20)).any fun c => c.tier = 3)
    | 0x306 => (fld d 32 8 + (if o.copies.any fun x => x.refs.any fun f => s.jobOpen f.part then o.bytes else 0), false)
    | _ => match cmdLoadModel s m r with
      | (t, .running _) =>
        let moved (l : Layer) : Nat := if l.placement = 0 && l.t2 = 0 then 0 else l.bytes
        ((t.layers.take (t.layers.length - s.layers.length)).foldl (fun a l => a + moved l) 0,
          match s.lookup m (fld d 20 4) with
          | .inl w => ((s.obj w).copies.find? fun c => c.version = (s.obj w).version).any fun c => c.tier = 3
          | .inr _ => false)
      | _ => (0, false)

end Sys2Proof.Machine
end

