-- ==== Sys2Proof/Machine/Stop.lean ====
section
/-! DEFINITION. Records of cores and how work on them stops: matrix tasks under R98, carding tasks under R205; doff-barrier
waits are released here too (R274). -/

namespace Sys2Proof.Machine

def State.mcore (s : State) (c : Nat) : MCore := SMap.get {} s.mcores c
def State.setMcore (s : State) (c : Nat) (f : MCore → MCore) : State :=
  { s with mcores := SMap.set {} s.mcores c (f (s.mcore c)) }
def State.thread (s : State) (t : Nat) : Thread := SMap.get {} s.threads t
def State.setThread (s : State) (t : Nat) (f : Thread → Thread) : State :=
  { s with threads := SMap.set {} s.threads t (f (s.thread t)) }
def State.mtask (s : State) (c : Nat) : Task := SMap.get {} s.mtasks c
def State.setMtask (s : State) (c : Nat) (f : Task → Task) : State :=
  { s with mtasks := SMap.set {} s.mtasks c (f (s.mtask c)) }
def State.ctask (s : State) (t : Nat) : Task := SMap.get {} s.ctasks t
def State.setCtask (s : State) (t : Nat) (f : Task → Task) : State :=
  { s with ctasks := SMap.set {} s.ctasks t (f (s.ctask t)) }

/-- Bytes that a fault leaves unknown take free values (R98). -/
def State.unknownBytes (s : State) (r : Nat × Nat) : State :=
  s.st r.1 ((List.range r.2).map fun i => Config.unknownByte s.fresh (r.1 + i))

/-- The accumulators of a bank take free values (R98). -/
def State.unknownBank (s : State) (c b : Nat) : State :=
  s.draw.setMcore c fun m =>
    let bk := SMap.get {} m.banks b
    let acc := (List.range 4096).foldl (fun a i => SMap.set 0 a i (Config.unknownAcc s.fresh i).toNat) bk.acc
    { m with banks := SMap.set {} m.banks b { bk with acc := acc } }

/-- Unit bits of MCR_STATUS follow the queues (R99). -/
def State.syncUnits (s : State) (c : Nat) : State :=
  let m := s.mcore c
  let ops := m.queue.map (·.op) ++ m.running.map (·.i.op)
  let a := ops.any fun o => match o with | .tma 0 .. => true | .tch .. => true | _ => false
  let b := ops.any fun o => match o with | .tma 1 .. => true | .tch .. => true | _ => false
  let e := ops.any fun o => match o with | .tep .. => true | _ => false
  let x := ops.any fun o => match o with | .xfer .. => true | .thx .. => true | _ => false
  (((s.fset .mcrStatusArra c (if a then 1 else 0)).fset .mcrStatusArrb c (if b then 1 else 0)).fset .mcrStatusEpi c
    (if e then 1 else 0)).fset .mcrStatusXfer c (if x then 1 else 0)

/-- Outcome code of a matrix fault (R98): ILLEGAL to PROG end MALFORMED, MEMFAULT FAULT, ABORT ABORTED; ECC is a hard fault of
the skein and reports none here. -/
def matrixOutcome (code : Nat) : Option Nat :=
  if code = 8 then none else some (if code = 7 then 2 else if code = 9 then 1 else 3)

/-- The ranges that a started instruction of core `c` names (R98), by DPA: those of core memory and those of memory. -/
def Started.named (c : Nat) (r : Started) : List (Nat × Nat) :=
  (r.core ++ r.reads).map (fun x => (coreMem c + x.1, x.2)) ++ r.mem

/-- A fault of a matrix core (R98): queued instructions are discarded, started ones stop leaving what they name unknown, and
the idle core records code and PC and reports the task's outcome. R98 does not name the state of a bank that a stopped instruction
was writing or reading: it is HELD (DEDUCED, log entry 62). -/
def State.stopMatrix (s : State) (c code pc : Nat) : State :=
  let m := s.mcore c
  let s1 := m.running.foldl (fun (t : State) (r : Started) =>
    let u := (r.named c).foldl (fun v x => v.unknownBytes x) t.draw
    r.banks.foldl (fun v b => v.unknownBank c b) u) s
  let settle (m : MCore) : MCore :=
    { m with queue := [], running := [], wait := .none,
             banks := SMap.mapVals {} (fun _ b => if b.st = 1 || b.st = 3 then { b with st := 2, back := false } else b) m.banks }
  let s2 := (s1.setMcore c settle).syncUnits c
  let s3 := ((s2.fset .mcrStatusBusy c 0).fset .mcrFaultCode c code).fset .mcrFaultPc c pc
  { s3 with waits := s3.waits.filter fun w => w.req ≠ Requester.matrix c, whorlCmds := s3.whorlCmds.filter fun w =>
      w.draw ≠ 2 ^ 15 + c }.setMtask c fun t =>
    if t.active then { t with outcome := matrixOutcome code, code := code } else t

/-- Outcome of a carding fault (R205). -/
def cardingOutcome (code : Nat) : Option Nat :=
  if code = 5 then none
  else some (if code = 0 then 0 else if code = 1 || code = 2 || code = 4 then 3 else if code = 8 then 1 else 2)

/-- First DPA of row `r` of a hand-off in core memory and in local memory of carding core `n` (R190). -/
def handoffRow (n : Nat) (d : List Byte) (r : Nat) : Nat × Nat :=
  (((coreMem (8 * (n / 32) + byteAt d 20) + fld d 0 4 : Nat) + signedOf 32 (fld d 8 4) * r).toNat,
   ((localMem n + fld d 4 4 : Nat) + signedOf 32 (fld d 12 4) * r).toNat)

/-- The first `lines` lines of a hand-off are written at their destination, row by row (R190). -/
def State.handoffMove (s : State) (n : Nat) (d : List Byte) (lines : Nat) : State :=
  let len := fld d 18 2
  (List.range lines).foldl (fun (t : State) i =>
    let a := handoffRow n d (i / len)
    let o := 64 * (i % len)
    if byteAt d 21 = 0 then t.st (a.2 + o) (t.ld (a.1 + o) 64) else t.st (a.1 + o) (t.ld (a.2 + o) 64)) s

/-- A hand-off is outstanding on the core (R206). -/
def State.syncHandoffs (s : State) (n : Nat) : State :=
  s.fset .crdStatusHobusy n (if s.handoffs.any fun h => h.thread / 8 = n && !h.done then 1 else 0)

/-- Outstanding hand-offs of a faulting thread stop at the next line (R205): how many lines were written is free. -/
def State.dropHandoffs (s : State) (t : Nat) : State :=
  let s1 := (s.handoffs.filter fun h => h.thread = t && !h.done).foldl (fun (u : State) h =>
    let d := h.desc
    let lines := Config.handoffLines u.fresh % (fld d 16 2 * fld d 18 2)
    (u.draw.handoffMove (t / 8) d lines).fadd .crdHoBytes (t / 8) (64 * lines)) s
  { s1 with handoffs := s1.handoffs.filter fun h => h.thread ≠ t }.syncHandoffs (t / 8)

/-- The task of a carding thread ends (R185, R205): code 0 DONE, else the fault; the first fault of the core since the
recorded thread's task start is kept. -/
def State.stopThread (s : State) (t code : Nat) : State :=
  let n := t / 8
  let s1 := if code ≠ 0 && s.fget .crdFaultCode n = 0 then
      ((s.fset .crdFaultCode n code).fset .crdFaultThread n (t % 8)).fset .crdFaultPc n (s.fget .crdPc t)
    else s
  let s1 := s1.fset .crdStatusTbusy n (s1.fget .crdStatusTbusy n &&& (255 - 2 ^ (t % 8)))
  let s2 := { s1 with waits := s1.waits.filter fun w => w.req ≠ Requester.carding t, whorlCmds := s1.whorlCmds.filter fun w => w.draw ≠ t + 1 }
  let s3 := if code = 0 then s2 else s2.dropHandoffs t
  (s3.setThread t fun x => { x with wait := .none, resv := none }).setCtask t fun k =>
    if k.active then { k with outcome := cardingOutcome code, code := code } else k

/-- A fault with the address that CRD_FAULT_VA records (R206). -/
def State.faultThread (s : State) (t code va : Nat) : State :=
  let first := s.fget .crdFaultCode (t / 8) = 0
  let s1 := s.stopThread t code
  if first then s1.fset .crdFaultVa (t / 8) (va % 2 ^ 48) else s1

/-- Release the matrix cores of a partition that wait at a barrier (R274 step 4). -/
def State.releaseTdf (s : State) (p bar : Nat) : State :=
  (s.coresOf p).foldl (fun t c =>
    if (t.mcore c).wait = .tdf bar then t.setMcore c fun m => { m with wait := .none } else t) s

end Sys2Proof.Machine
end

