-- ==== Sys2Proof/Machine/Stream.lean ====
section
/-! DEFINITION. Doff barriers, stream contexts, descriptors, slices and their decisions (spec/10_deckle_streaming.md). -/

namespace Sys2Proof.Machine

/-! ## Jobs and barriers -/

def State.job (s : State) (k : Nat) : Job := SMap.get {} s.jobs k
def State.setJob (s : State) (k : Nat) (f : Job → Job) : State := { s with jobs := SMap.set {} s.jobs k (f (s.job k)) }

/-- Key 16p + ring of the job whose work runs (R398, R402): the open job of a training partition, the active job of a
serving one. -/
def State.activeJob (s : State) (p : Nat) : Option Nat :=
  if s.serving p then
    if s.fget .ringActiveValid p = 1 then some (16 * p + s.fget .ringActiveRing p) else none
  else (s.jobs.find? fun e => e.1 / 16 == p && e.2.isOpen).map (·.1)

/-- EXP of a barrier: the default is 8 per skein (R273). -/
def State.barExp (s : State) (p : Nat) (b : Barrier) : Nat := if b.exp = 0 then 8 * (s.skeins p).length else b.exp

/-- The job whose barriers the registers show: the active one, else the one last active (R284). -/
def State.shownJob (s : State) (p : Nat) : Option Nat :=
  match s.activeJob p with
  | some k => some k
  | none => (s.jobs.filter fun e => e.1 / 16 == p && e.2.lastActive ≠ 0).foldl (fun b e => match b with
      | none => some e.1
      | some k => if e.2.lastActive > (s.job k).lastActive then some e.1 else some k) none

/-- The barrier registers show the selected barrier of a job (R284). -/
def State.showBarrier (s : State) (p : Nat) : State :=
  match s.shownJob p with
  | none => s
  | some k =>
    let b := SMap.get {} (s.job k).barriers (s.fget .strmPBarsel p)
    ((s.fset .strmPBarExp p (s.barExp p b)).fset .strmPBarCount p b.count).fset .strmPPhase p b.phase

def State.setBarrier (s : State) (k b : Nat) (f : Barrier → Barrier) : State :=
  (s.setJob k fun j => { j with barriers := SMap.set {} j.barriers b (f (SMap.get {} j.barriers b)) }).showBarrier (k / 16)

/-- A resident job that waits for the cores (R402, R406): it has a GRAPH, STREAM, COPY or VIDEO record that is next to
start. -/
def State.candidate (s : State) (k : Nat) : Bool :=
  (s.job k).isOpen &&
  (match (SMap.get {} s.rings k).recs.find? fun r => !r.started && r.outcome.isNone with
   | some r => [1, 2, 7, 8].contains (byteAt r.data 0)
   | none => false)

/-- Effective priority of a ring (R410). -/
def State.eprio (s : State) (g : Nat) : Nat := min 7 (s.fget .ringCfgPrio g + (SMap.get {} s.rings g).age)

/-- The job that the serving scheduler switches to at a boundary (R406): `free` at an Idle or End boundary. -/
def State.switchTo (s : State) (p : Nat) (free : Bool) : Option Nat :=
  let cur := s.activeJob p
  let cands := (List.range 16).map (16 * p + ·) |>.filter fun k => some k ≠ cur && s.candidate k
  let best := cands.foldl (fun (b : Option Nat) k => match b with
    | none => some k
    | some x => if s.eprio k > s.eprio x || (s.eprio k = s.eprio x && (s.job k).lastActive < (s.job x).lastActive) then some k else some x) none
  match best, cur with
  | none, _ => none
  | some k, none => some k
  | some k, some c =>
    let held := (s.time - (s.job c).activeSince) / 25
    if free || s.eprio k > s.eprio c || (s.eprio k = s.eprio c && held ≥ s.fget .ringSwmin p) then some k else none

/-- Steps 2 to 4 of R274: SHADOW_ALLOW is sampled, COUNT clears, PHASE rises, then the batch-step boundary work of a STEP
barrier, and the waiting TDFs are released unless a switch comes first (R404, R406). -/
def State.finishRelease (s : State) (p k b : Nat) (step : Bool) : State :=
  let s1 := s.fset .strmPModeSa p (s.part p).shadowAllow
  let s2' := s1.setBarrier k b fun x => { x with count := 0, phase := (x.phase + 1) % 2 ^ 32, released := (s.time :: x.released).take 65535 }
  let s2 := s2'.trace 4 p 0xFF 0 (toBytes 4 b ++ toBytes 4 (SMap.get {} (s2'.job k).barriers b).phase)
  if step then
    let s3 := ((s2.setJob k fun j => { j with shadow := [], decided := [], marked := false, replay := j.replayNext.headD [],
                                              replayNext := j.replayNext.drop 1 }).boundaryWork p).fset .strmPModeReplay p
      (if s2.fget .strmPModeReplay p = 1 && !(s2.job k).replayNext.isEmpty then 1 else 0)
    if s3.serving p && (s3.switchTo p false).isSome then { s3 with boundaries := s3.boundaries ++ [(p, b)] }
    else s3.releaseTdf p b
  else s2.releaseTdf p b

/-- COUNT has reached EXP (R274): with STEP = 1 and an image area the checkpoint comes first, after those that other barriers wait for. -/
def State.barrierFull (s : State) (p k b : Nat) : State :=
  let x := SMap.get {} (s.job k).barriers b
  if x.step && ((s.part p).image0 ≠ 0) then
    if s.ckpts.any fun c => c.1 = p && c.2.1 = b then s else { s with ckpts := s.ckpts ++ [(p, b, false)] }
  else s.finishRelease p k b x.step

/-- An arrival at a barrier of the running job (R273, R274). -/
def State.arrive (s : State) (p b : Nat) : State :=
  match s.activeJob p with
  | none => s
  | some k =>
    let s1 := s.setBarrier k b fun x => { x with count := x.count + 1 }
    let x := SMap.get {} (s1.job k).barriers b
    if x.count ≥ s1.barExp p x then s1.barrierFull p k b else s1

/-- Whether the barrier `b` is held closed by a checkpoint in progress. -/
def State.barrierHeld (s : State) (p b : Nat) : Bool := s.ckpts.any fun c => c.1 = p && c.2.1 = b

/-! ## Contexts -/

def State.ctx (s : State) (x : Nat) : Ctx := SMap.get {} s.ctxs x
def State.setCtx (s : State) (x : Nat) (f : Ctx → Ctx) : State := { s with ctxs := SMap.set {} s.ctxs x (f (s.ctx x)) }

/-- ACTIVE of an engine and CTX of a partition follow the contexts (R284). -/
def State.syncCtx (s : State) (e p : Nat) : State :=
  let q := (s.ctxs.filter fun c => c.2.busy && c.2.part = p && c.1 % 136 < 128).length
  (s.syncActive e).fset .strmPModeCtx p q

/-- A free context of an engine for a partition (R254): its reserved one (number p), else a shared one (64 to 127), at most
16 in all. -/
def State.freeCtx (s : State) (e p : Nat) : Option Nat :=
  let held := (s.ctxs.filter fun c => c.2.busy && c.2.part = p && c.1 / 136 = e && c.1 % 136 < 128).length
  if held ≥ 16 then none
  else if !(s.ctx (136 * e + p)).busy then some (136 * e + p)
  else (List.range' 64 64).find? (fun n => !(s.ctx (136 * e + n)).busy) |>.map (136 * e + ·)

/-- The job that a chain belongs to: that of its owner ring, else the active one. -/
def State.ctxJob (s : State) (p job : Nat) : Option Nat := if job < 16 then some (16 * p + job) else s.activeJob p

/-- Put a chain on a context (R261). -/
def State.runChain (s : State) (x : Nat) (w : ChainWait) : State :=
  let phases := match s.ctxJob w.part w.job with
    | some k => (s.job k).barriers.map fun b => (b.1, b.2.phase)
    | none => []
  (s.setCtx x fun _ => { busy := true, part := w.part, job := w.job, of := w.of, dva := w.dva, desc := w.desc,
                         own := !w.desc.isEmpty, phases := phases, reached := s.time }).syncCtx w.engine w.part

/-! ## Drains (R280) -/

/-- A DPA lies in a quadrant of a mask of domains. -/
def State.inDomain (s : State) (mask a : Nat) : Bool :=
  match s.region a with
  | .core c => mask.testBit (c / 128)
  | .local n => mask.testBit (n / 512)
  | .skein k => mask.testBit (k / 16)
  | _ => false

/-- A line of a MOVE reads or writes a domain: quadrants 0 to 3, T3 as bit 4. -/
def State.lineTouches (s : State) (mask p : Nat) (d : List Byte) (n : Nat) : Bool :=
  let on (va : Nat) (write : Bool) : Bool := match s.translate p va write with
    | .dpa a => s.inDomain mask a
    | _ => false
  byteAt d 0 = 1 && ((mask.testBit 4 && mvLba d) || (!mvLba d && on (mvSrc d n).toNat false) || on (mvDst d n).toNat true)

/-- A context in flight touches a draining domain: its engine is of the domain, or its next line reads or writes it. -/
def State.ctxDrains (s : State) (x : Nat) : Bool :=
  let c := s.ctx x
  c.busy && c.ended.isNone && (s.drains.testBit (x / 136) ||
    (if x % 136 < 128 then s.lineTouches s.drains c.part c.desc c.next else s.drains.testBit 4 && mvLba c.desc))

/-- A chain that has not started touches a draining domain, as its first descriptor shows. -/
def State.chainDrains (s : State) (w : ChainWait) : Bool :=
  s.drains ≠ 0 && (s.drains.testBit w.engine ||
    (if w.desc.isEmpty then match (s.vread w.part w.dva 64).2 with
        | .ok d => s.lineTouches s.drains w.part d 0
        | _ => false
      else s.lineTouches s.drains w.part w.desc 0))

/-- DRAIN of every engine: a drain is in force on an engine of the domain, and on one with a context that touches it (R280, R284). -/
def State.syncDrain (s : State) : State :=
  (List.range 4).foldl (fun t e => t.fset .strmEStatusDrain e
    (if s.drains ≠ 0 && (s.drains.testBit e || s.ctxs.any fun c => c.1 / 136 = e && s.ctxDrains c.1) then 1 else 0)) s

/-! ## Chains -/

/-- Start a chain, or queue it in submission order (R254, R261, R280). -/
def State.startChain (s : State) (w : ChainWait) : State :=
  let ahead := s.chainWaits.any fun c => c.engine = w.engine && c.part = w.part
  match s.freeCtx w.engine w.part with
  | some x => if ahead || s.chainDrains w then { s with chainWaits := s.chainWaits ++ [w] } else s.runChain x w
  | none => { s with chainWaits := s.chainWaits ++ [w] }

/-- The next queued chain that an engine may start: the oldest of its partition, with a free context, that touches no drain. -/
def State.nextChain (s : State) (e : Nat) : Option ChainWait :=
  s.chainWaits.find? fun w => w.engine = e && (s.freeCtx e w.part).isSome && !s.chainDrains w &&
    (s.chainWaits.find? fun v => v.engine = e && v.part = w.part) = some w

/-- Start queued chains of an engine while contexts are free. -/
def State.pumpChains (s : State) (e : Nat) : Nat → State
  | 0 => s
  | fuel + 1 =>
    match s.nextChain e with
    | none => s
    | some w =>
      match s.freeCtx e w.part with
      | none => s
      | some x => ({ s with chainWaits := s.chainWaits.erase w }.runChain x w).pumpChains e fuel

/-- Report the end of a chain to what started it: a record gets its outcome (R350), a node's task its own (R363). -/
def State.chainReport (s : State) (of : ChainOf) (status bytes dva at' : Nat) : State :=
  match of with
  | .none => s
  | .record g idx gen =>
    let r := SMap.get {} s.rings g
    if s.fget .ringStateGen g ≠ gen then (s.fadd .ringStale g 1).fadd .ringPstale (g / 16) 1
    else
      let f (x : Rec) : Rec := if x.idx = idx && x.outcome.isNone then
          { x with outcome := some status, d0 := bytes, d1 := if status = 0 then 0 else dva,
                   d2 := if status = 0 then 0 else at' } else x
      { s with rings := SMap.set {} s.rings g { r with recs := r.recs.map f } }
  | .node .. | .command .. => s

/-- End the chain of a context with a status (R266): the first status other than DONE is the chain's; a chain of a node keeps
it until TASK_COMPLETE takes it. -/
def State.endChain (s : State) (x status0 at0 : Nat) : State :=
  let c0 := s.ctx x
  let c := match c0.first with
    | some f => { c0 with dva := f.2.1 }
    | none => c0
  let status := match c0.first with | some f => f.1 | none => status0
  let at' := match c0.first with | some f => f.2.2 | none => at0
  let s1 := { s with waits := s.waits.filter fun w => w.req ≠ Requester.stream x }.dropStream x
  match c.of with
  | .node .. => s1.setCtx x fun c => { c with ended := some status, issued := false }
  | _ =>
    let s2 := (s1.chainReport c.of status c.bytes c.dva at').setCtx x fun _ => {}
    (s2.syncCtx (x / 136) c.part).pumpChains (x / 136) 64

/-! ## Transfers of the tier manager (R254) -/

/-- The descriptor that stands for a transfer of the tier manager: its lines, from T3 or not. -/
def tierDesc (lines : Nat) (t3 : Bool) : List Byte := (copyDesc 0 0 lines).set 1 (if t3 then 2 else 0)

/-- A command takes one of the 8 contexts of its partition's home engine for what it moves; `none` while all are taken (R254). -/
def State.takeTier (s : State) (m : Nat) (r : MbxReq) : Option State :=
  let p := byteAt r.data 5
  let mv := s.tierMoves m r
  if mv.1 = 0 then some s
  else
    let e := s.homeQuad p % 4
    ((List.range' 128 8).find? fun n => !(s.ctx (136 * e + n)).busy).map fun n =>
      (s.setCtx (136 * e + n) fun _ => { busy := true, part := p, of := .command m r.stamp, desc := tierDesc (ceilDiv mv.1 64) mv.2,
                                         own := true, go := true, reached := s.time }).syncCtx e p

/-- Every line that a command moves has been issued. -/
def State.tierDone (s : State) (m stamp : Nat) : Bool := !s.ctxs.any fun c => c.2.of = .command m stamp && !c.2.issued

/-! ## Descriptors -/

/-- A byte lies in the deckle window of a core or skein (R268 to R269, R395). -/
def State.inDeckle (s : State) (a : Nat) : Bool :=
  match s.region a with
  | .core c =>
    let off := a - coreMem c
    s.fget .mcrDeckleSize c ≠ 0 && s.fget .mcrDeckleBase c * 0x4000 ≤ off
  | .skein k =>
    match s.owner k with
    | some p => s.fget .strmPWinSsize p ≠ 0 && s.fget .strmPWinSbase p * 0x40000 ≤ a - skeinMem k
    | none => false
  | _ => false

/-- Destination DPAs of one line with MCAST (R259). -/
def mcastTargets (mask a : Nat) : List Nat :=
  if mask = 0 then [a]
  else
    let c := (a - coreMemBase) / 0x400000
    let off := (a - coreMemBase) % 0x400000
    ((List.range 8).filter fun b => mask.testBit b).map fun b => coreMem (c / 8 * 8 + b) + off

/-- The descriptor is malformed (R14, R15, R256 to R258, R260). A destination that no page backs is a fault of the line instead; a page
that waits to be made resident, or lies in host memory or T2, is outside the deckle window and outside core memory. -/
def State.mvBad (s : State) (p : Nat) (d : List Byte) : Bool :=
  let flags := byteAt d 1
  let deck := mvDeck d
  let n := mvLines d
  let out (ok : Nat → Bool) : Bool := (List.range n).any fun i => 0 ≤ mvDst d i && match s.translate p (mvDst d i).toNat true with
    | .dpa a => !ok a
    | .unmapped _ => false
    | _ => true
  flags ≥ 8 || byteAt d 11 ≠ 0 || !zeroAt d 58 6 || (byteAt d 3 ≥ 16 && byteAt d 3 ≠ 0xFF) ||
  fld d 34 6 % 64 ≠ 0 || fld d 12 4 % 64 ≠ 0 || fld d 16 4 % 64 ≠ 0 || fld d 20 4 % 64 ≠ 0 || fld d 24 4 % 64 ≠ 0 ||
  (!mvLba d && fld d 28 6 % 64 ≠ 0) || fld d 40 6 % 64 ≠ 0 || fld d 46 6 % 64 ≠ 0 ||
  n = 0 || (!deck && (fld d 52 4 ≠ 0 || fld d 56 2 ≠ 0)) || (deck && fld d 46 6 = 0) ||
  (deck && out fun a => (mcastTargets (byteAt d 2) a).all s.inDeckle) ||
  (byteAt d 2 ≠ 0 && out fun a => match s.region a with | .core _ => true | _ => false)

/-- A BARSET is malformed (R14, R260). -/
def barsetBad (d : List Byte) : Bool := byteAt d 1 ≥ 2 || !zeroAt d 5 35 || !zeroAt d 46 18 || fld d 40 6 % 64 ≠ 0

/-- A partition may read an LBA (R289): it lies in an extent of a T3 copy that the partition references. -/
def State.lbaOk (s : State) (p lba : Nat) : Bool :=
  s.objs.any fun e => e.2.copies.any fun c =>
    c.tier = 3 && c.base ≤ lba && lba < c.base + ceilDiv e.2.bytes 4096 && c.refs.any fun r => r.part = p

/-- A stream may read an LBA: its partition may, or it was reading the copy when the reference left (R246, R289). -/
def State.lbaFor (s : State) (x p lba : Nat) : Bool :=
  s.lbaOk p lba || s.objs.any fun e => e.2.copies.any fun c =>
    c.tier = 3 && c.base ≤ lba && lba < c.base + ceilDiv e.2.bytes 4096 && c.streams.contains x

/-- Why a line cannot be issued. -/
inductive LineStop where
  | none
  | wait (va : Nat) (write : Bool) (k : WaitKind)
  | fault
  | media
  deriving DecidableEq, Repr

/-- How the translation of one access of a line stands. -/
def lineStop (t : TRes) (va : Nat) (write : Bool) : LineStop :=
  match t with
  | .dpa _ | .host _ => .none
  | .demand => .wait va write .demand
  | .ats _ => .wait va write .ats
  | .readOnly | .unmapped _ => .fault

/-- Source and destination of a line are translated, in this order (R262, R263). -/
def State.lineWaits (s : State) (x p : Nat) (d : List Byte) (n : Nat) : State × LineStop :=
  let src := mvSrc d n
  let dst := mvDst d n
  if src < 0 || dst < 0 then (s, .fault)
  else
    let a : TRes := if mvLba d then (if s.lbaFor x p (src.toNat / 4096) then .dpa 0 else .unmapped false) else s.translate p src.toNat false
    match lineStop a src.toNat false with
    | .none =>
      let b := s.translate p dst.toNat true
      (s.noteWalk b, lineStop b dst.toNat true)
    | e => (s.noteWalk a, e)

/-- A slice from T3 passes through the partition's deckle reserve (R269): the whole block goes to it, at the place that its number gives
(DESIGN CHOICE, log entry 63). Without a reserve, or outside a slice, the lines come straight from the block. -/
def State.fillReserve (s : State) (p : Nat) (d : List Byte) (lba : Nat) : State :=
  match s.reserves.find? fun r => r.1 = p with
  | some r =>
    if mvDeck d && !isCopy d && 4096 ≤ r.2.2 then
      let a := (s.place r.2.1).base + lba % (r.2.2 / 4096) * 4096
      ({ s with mem := cellsCopy s.flash s.mem (4096 * lba) 4096 a }.soil a).fadd .ftlReadBytes 0 4096
    else s.fadd .ftlReadBytes 0 64
  | none => s.fadd .ftlReadBytes 0 64

/-- A slice of the partition has its blocks in a reserve. -/
def State.inReserve (s : State) (p : Nat) (d : List Byte) : Bool :=
  mvDeck d && !isCopy d && s.reserves.any fun r => r.1 = p && 4096 ≤ r.2.2

/-- The 64 bytes of a line are read, whole blocks of T3 once each (R262, R269, R288, R290). -/
def State.lineRead (s : State) (x p : Nat) (d : List Byte) (n : Nat) : State × (List Byte ⊕ LineStop) :=
  let src := (mvSrc d n).toNat
  if mvLba d then
    let lba := src / 4096
    if (s.ctx x).block = some lba then
      (if s.inReserve p d then s else s.fadd .ftlReadBytes 0 64, .inl (cellsGet s.flash src 64))
    else match s.flashRead lba with
      | (t, true) => ((t.setCtx x fun c => { c with block := some lba }).fillReserve p d lba, .inl (cellsGet s.flash src 64))
      | (t, false) => (t, .inr .media)
  else match s.vread p src 64 with
    | (t, .ok b) => (t, .inl b)
    | (t, .wait a k) => (t, .inr (.wait a false k))
    | (t, .bad _ _) => (t, .inr .fault)

/-- The bytes of a line are written, at every core that MCAST names (R259, R262). -/
def State.lineWrite (s : State) (p : Nat) (d : List Byte) (n : Nat) (data : List Byte) : State :=
  match s.translate p (mvDst d n).toNat true with
  | .dpa a => (mcastTargets (byteAt d 2) a).foldl (fun u b => u.writeDpa (.part p) b data) s
  | .host a => s.emit (.hostWrite p a data)
  | _ => s

/-- Issue one line (R262, R263): translate, read, write. What a transfer of the tier manager moves appears when its command ends. -/
def State.moveLine (s : State) (x : Nat) : State × LineStop :=
  let c := s.ctx x
  if x % 136 ≥ 128 then (s, .none)
  else match s.lineWaits x c.part c.desc c.next with
    | (s1, .none) =>
      match s1.lineRead x c.part c.desc c.next with
      | (s2, .inl data) => (s2.lineWrite c.part c.desc c.next data, .none)
      | (s2, .inr e) => (s2, e)
    | r => r

/-! ## Status (R266, R267) -/

/-- Bytes reach a stream status block, or wait with its page (R230, R267). -/
def State.ssbPut (s : State) (p va : Nat) (bs : List Byte) : State :=
  match s.vwrite p va bs with
  | (t, .wait a k) => t.enterWait ⟨.ssb p va bs, p, a, true, k⟩
  | (t, _) => t

/-- Write bytes of a stream status block (R267). -/
def State.ssbWrite (s : State) (p ssb off : Nat) (bs : List Byte) : State :=
  if ssb = 0 then s else s.ssbPut p (ssb + off) bs

def State.ssbRead (s : State) (p ssb off n : Nat) : Nat :=
  if ssb = 0 then 0 else match s.vread p (ssb + off) n with
    | (_, .ok d) => ofBytes d
    | _ => 0

/-- Bytes of the tile map of a descriptor: none unless it alone names its block (R267). -/
def State.tileBytes (s : State) (p : Nat) (d : List Byte) : Nat :=
  if isCopy d || s.ssbRead p (fld d 46 6) 4 2 ≠ 1 then 0 else ceilDiv (fld d 8 2) 4

/-- The pages of a descriptor's status block are there (R230): else the context waits, or its descriptor ends. -/
def State.ssbReady (s : State) (x : Nat) (d : List Byte) : State × Option Bool :=
  let ssb := fld d 46 6
  let p := (s.ctx x).part
  if ssb = 0 then (s, some true)
  else
    let probe (t : State) (n : Nat) : State × Option Bool := match t.vprobe p ssb true n (n / 4096 + 2) with
      | (t1, .ok _) => (t1, some true)
      | (t1, .wait a k) => (t1.enterWait ⟨.stream x, p, a, true, k⟩, some false)
      | (t1, .bad _ _) => (t1, none)
    match probe s 64 with
    | (s1, some true) => probe s1 (64 + s1.tileBytes p d)
    | r => r

/-- The tile map shows how far a descriptor has come: 0 not started, 1 partial, 3 complete (R267). -/
def State.ssbTiles (s : State) (p : Nat) (d : List Byte) (n : Nat) : State :=
  let per := fld d 4 2 * fld d 6 2
  let code (i : Nat) : Nat := if (i + 1) * per ≤ n then 3 else if i * per < n then 1 else 0
  (List.range (s.tileBytes p d)).foldl (fun t j =>
    t.ssbWrite p (fld d 46 6) (64 + j) [BitVec.ofNat 8 (code (4 * j) + code (4 * j + 1) * 4 + code (4 * j + 2) * 16 + code (4 * j + 3) * 64)]) s

/-- The stop coordinate of a paused or stopped descriptor (R263, R264). -/
def State.ssbStop (s : State) (p dva : Nat) (d : List Byte) (n : Nat) : State :=
  let c := mvCoord d n
  (s.ssbWrite p (fld d 46 6) 20 (toBytes 2 c.1 ++ toBytes 2 c.2.1 ++ toBytes 2 c.2.2)).ssbWrite p (fld d 46 6) 40 (toBytes 6 dva)

/-- Bytes delivered by a descriptor join those of its block (R264, R267). -/
def State.ssbBytes (s : State) (p : Nat) (d : List Byte) (n : Nat) : State :=
  s.ssbWrite p (fld d 46 6) 32 (toBytes 8 (s.ssbRead p (fld d 46 6) 32 8 + 64 * n))

/-- Bytes delivered for a context are counted (R284). -/
def State.countBytes (s : State) (x lines : Nat) : State :=
  let c := s.ctx x
  let s1 := (s.fadd .strmEBytes (x / 136) (64 * lines)).setCtx x fun q => { q with bytes := q.bytes + 64 * lines }
  if x % 136 < 128 then s1.fadd .strmPBytes c.part (64 * lines) else s1

/-- The cores whose core memory a descriptor writes (R257 FLAG). -/
def State.destCores (s : State) (p : Nat) (d : List Byte) : List Nat :=
  ((List.range (mvLines d)).flatMap fun i => match s.translate p (mvDst d i).toNat true with
    | .dpa a => (mcastTargets (byteAt d 2) a).filterMap fun t => match s.region t with | .core c => some c | _ => none
    | _ => []).eraseDups

/-! ## Readiness and deadlines (R270, R271) -/

/-- T_ready of a DECK descriptor of a chain: barrier BAR has released NWAIT times since the chain started, or, with NWAIT = 0, the chain
has reached it (`reached`); none before. -/
def State.readyTime (s : State) (c : Ctx) (d : List Byte) (reached : Option Nat) : Option Nat :=
  match fld d 56 2, s.ctxJob c.part c.job with
  | 0, _ => reached
  | _, none => reached
  | n, some k =>
    let b := SMap.get {} (s.job k).barriers (byteAt d 10)
    let was := ((c.phases.find? fun q => q.1 = byteAt d 10).map (·.2)).getD 0
    let adv := (b.phase + 2 ^ 32 - was) % 2 ^ 32
    if adv < n then none else some (b.released.getD (adv - n) 0)

/-- When the present descriptor of a context became ready to issue: DECK at T_ready, another when the chain reached it. -/
def State.readyAt (s : State) (c : Ctx) : Option Nat :=
  if mvDeck c.desc && !isCopy c.desc then (s.readyTime c c.desc (some c.reached)).map fun t => max t c.reached else some c.reached

/-- Deadline of a DECK descriptor in ns of GLB time: T_ready + LEAD (R270). -/
def deadlineOf (ready : Nat) (d : List Byte) : Nat := 40 * ready + fld d 52 4

/-- Deadline of the present descriptor of a context, none without DECK (R271). -/
def State.deadline (s : State) (x : Nat) : Option Nat :=
  let c := s.ctx x
  if mvDeck c.desc && !isCopy c.desc then
    (s.readyTime c c.desc (some c.reached)).map fun t => deadlineOf t c.desc
  else none

/-- The context has a line to issue. -/
def State.lineReady (s : State) (x : Nat) : Bool :=
  let c := s.ctx x
  c.busy && c.ended.isNone && c.go && !c.issued && c.next < mvLines c.desc && !s.waitsFor (.stream x) && (s.readyAt c).isSome

/-! ## Arbitration (R271) -/

/-- Contexts of an engine that have a line to issue. -/
def State.readyCtxs (s : State) (e : Nat) : List Nat := (s.ctxs.filter fun c => c.1 / 136 = e && s.lineReady c.1).map (·.1)

/-- Among contexts: the earliest deadline, ties to the lower number; without deadlines, the next after the one granted last. -/
def State.pick (s : State) (last : Nat) (xs : List Nat) : Option Nat :=
  match xs.foldl (fun (b : Option (Nat × Nat)) x => match s.deadline x, b with
      | none, _ => b
      | some d, none => some (x, d)
      | some d, some y => if d < y.2 then some (x, d) else b) none with
  | some y => some y.1
  | none => (xs.find? fun x => last < x).or xs.head?

/-- The window of an engine as the next grant finds it: the partitions, and the tier manager, that have been ready at every grant of it
and are ready now. -/
def State.grantWin (s : State) (e : Nat) : GrantWin :=
  let xs := s.readyCtxs e
  let w := SMap.get {} s.grants e
  let now := ((xs.filter fun x => x % 136 < 128).map fun x => (s.ctx x).part).eraseDups
  let tier := xs.any fun x => 128 ≤ x % 136
  { w with parts := if w.used = 0 then now else w.parts.filter now.contains, tierAll := (w.used = 0 || w.tierAll) && tier }

/-- Grants that a partition of the window is still owed of its floor, floor(G * w / W) (R271). -/
def State.owed (s : State) (w : GrantWin) (p : Nat) : Nat :=
  let total := w.parts.foldl (fun a q => a + (s.skeins q).length) 0
  if !w.parts.contains p then 0
  else (if w.tierAll then 3584 else 4096) * (s.skeins p).length / max 1 total - SMap.get 0 w.got p

/-- The context that gets the next grant of an engine (R271): by deadline, but for floors that the rest of the window is needed for. A
window is one of every 4,096 grants in turn, and its floors are those of the partitions ready so far (DESIGN CHOICE, log entry 63). -/
def State.grantOf (s : State) (e : Nat) : Option Nat :=
  let xs := s.readyCtxs e
  let w := s.grantWin e
  let tier := if w.tierAll then 512 - w.tier else 0
  let due := w.parts.foldl (fun a p => a + s.owed w p) tier
  let owedTo (x : Nat) : Bool := if 128 ≤ x % 136 then tier ≠ 0 else s.owed w (s.ctx x).part ≠ 0
  s.pick w.last (if due ≠ 0 && 4096 ≤ w.used + due then xs.filter owedTo else xs)

/-- A grant is counted in its window. -/
def State.noteGrant (s : State) (x : Nat) : State :=
  let w := s.grantWin (x / 136)
  let p := (s.ctx x).part
  let w1 : GrantWin := if 128 ≤ x % 136 then { w with tier := w.tier + 1 } else { w with got := SMap.set 0 w.got p (SMap.get 0 w.got p + 1) }
  let w2 : GrantWin := if w.used + 1 = 4096 then { last := x } else { w1 with used := w.used + 1, last := x }
  { s with grants := SMap.set {} s.grants (x / 136) w2 }

/-- Another read of the same partition that waits in the engine, the next line or one of another context, lies in the same 4 KiB source
window as a context's next line (R268). -/
def State.shares (s : State) (x : Nat) : Bool :=
  let c := s.ctx x
  let win (d : List Byte) (n : Nat) : Int := mvSrc d n / 4096
  (c.next + 1 < mvLines c.desc && win c.desc (c.next + 1) = win c.desc c.next) ||
    (s.readyCtxs (x / 136)).any fun y =>
      let o := s.ctx y
      y ≠ x && o.part = c.part && (y % 136 < 128) = (x % 136 < 128) && mvLba o.desc = mvLba c.desc && win o.desc o.next = win c.desc c.next

/-- A read may be merged with one that waits (R268): whether it is, is timing. MERGED counts; no byte and no order changes. -/
def State.noteMerge (s : State) (x : Nat) : State :=
  if !s.shares x then s
  else
    let n := Config.merged s.fresh % 2
    let s1 := s.draw.fadd .strmEMerged (x / 136) n
    if x % 136 < 128 then s1.fadd .strmPMerged (s.ctx x).part n else s1

/-! ## Completion actions and the next descriptor -/

/-- FLAG, tile map, SSB counts and ARRIVE of a completed descriptor (R261, R266, R267): `status` DONE or SUPERSEDED, `n` lines moved. -/
def State.descActions (s : State) (p : Nat) (d : List Byte) (status n : Nat) : State :=
  let ssb := fld d 46 6
  let s0 := if byteAt d 3 = 0xFF then s else (s.destCores p d).foldl (fun t c => t.for' .mcrFlags c (2 ^ byteAt d 3)) s
  let s1 := (s0.ssbTiles p d n).ssbBytes p d n
  let done := s1.ssbRead p ssb 16 2 + 1
  let s2 := s1.ssbWrite p ssb 16 (toBytes 2 done)
  let s3 := if status = 7 then s2.ssbWrite p ssb 0 [7]
    else if done = s2.ssbRead p ssb 4 2 && s2.ssbRead p ssb 0 1 = 0xFF then s2.ssbWrite p ssb 0 [0] else s2
  if bitAt (byteAt d 1) 2 then s3.arrive p (byteAt d 10) else s3

/-- The chain goes on to NEXT, or ends DONE. -/
def State.nextDesc (s : State) (x : Nat) : State :=
  let c := s.ctx x
  let nx := fld c.desc 40 6
  if c.own || nx = 0 then s.endChain x 0 0
  else s.setCtx x fun q => { q with dva := nx, desc := [], next := 0, issued := false, go := false, block := none, reached := s.time }

/-- The status block of a DECK descriptor; 0 for another. -/
def deckSsb (d : List Byte) : Nat := if mvDeck d && !isCopy d && byteAt d 0 = 1 then fld d 46 6 else 0

/-- The present descriptor of a context ends SUPERSEDED, with its FLAG and its ARRIVE (R277). -/
def State.supersede (s : State) (x : Nat) : State :=
  let c := s.ctx x
  let t1 := { s with waits := s.waits.filter fun w => w.req ≠ Requester.stream x }
  let t2 := t1.setCtx x fun q => { q with first := if q.first.isNone then some (7, q.dva, packCoord (mvCoord q.desc q.next)) else q.first }
  (t2.descActions c.part c.desc 7 c.next).nextDesc x

/-- A SHADOW decision cancels the slice's remaining lines (R277): the descriptors that chains have reached end at once, the others when
their chains reach them. -/
def State.cancelSlice (s : State) (p ssb : Nat) : State :=
  s.ctxs.foldl (fun t e =>
    let c := t.ctx e.1
    if c.busy && c.ended.isNone && c.part = p && e.1 % 136 < 128 && deckSsb c.desc = ssb && ssb ≠ 0 then t.supersede e.1 else t) s

/-! ## Slices (R275 to R279) -/

/-- A decision is given: counted, recorded in the SSB and in the shadow record of the step (R267, R278, R279). -/
def State.decide' (s : State) (p ssb slice state : Nat) : State :=
  let s1 := s.ssbWrite p ssb 1 [BitVec.ofNat 8 state]
  let s2 := (s1.ssbWrite p ssb 8 (toBytes 4 (if state = 1 then 64 else 0))).ssbWrite p ssb 12 (toBytes 4 (if state = 2 then 64 else 0))
  let s3 := s2.fadd .strmPSlices p 1
  match s.activeJob p with
  | none => s3
  | some k =>
    let s4 := (if state = 2 then
        let m := (s3.job k).marked
        let t := s3.fadd .strmPShadow p 1
        (if m then t else t.fadd .strmPShadowSteps p 1).setJob k fun j => { j with marked := true }
      else s3).setJob k fun j => { j with decided := (slice, state) :: j.decided }
    if state = 3 then s4
    else
      let s5 := s4.setJob k fun j => { j with shadow := (slice, state = 2) :: j.shadow }
      -- under peer mirror the byte of the record that holds the bit goes to the partner (R279, R477)
      match s5.newestImage p with
      | some i =>
        if s5.mirrors' p i then
          let b := ((s5.job k).shadow.filter fun (x : Nat × Bool) => x.2 && x.1 / 8 = slice / 8).foldl (fun a (x : Nat × Bool) => a ||| 2 ^ (x.1 % 8)) 0
          s5.fabSubmit (s5.mirrorReqs (.mirrorBit p ssb) p i (s5.imageAt i + (SMap.get {} s5.images i).shadowOff + slice / 8) (toBytes 1 b))
        else s5
      | none => s5

/-- A slice has ended: it is counted late no more, and a decision held for it is FULL, or FAILED where it did not end DONE (R272, R276
rules 3 to 5 and 7); rule 7 adds its stall (R278). -/
def State.sliceDone (s : State) (p ssb : Nat) : State :=
  let st := s.ssbRead p ssb 0 1
  if ssb = 0 || st = 0xFF then s
  else
    let s0 : State := { s with late := s.late.filter fun (x : LateSlice) => x ≠ (p, ssb) }
    match s0.slices.find? fun q => q.part = p && q.ssb = ssb with
    | none => s0
    | some q =>
      let s1 := { s0 with slices := s0.slices.erase q }
      let s2 := if q.held && st = 0 then s1.fadd .strmPStallNs p (40 * (s.time - q.time)) else s1
      s2.decide' p ssb q.slice (if st = 0 then 1 else 3)

/-- Ask for a decision (R275, R276): `none` while it is held. -/
def State.askSlice (s : State) (p ssb : Nat) : State × Option Nat :=
  let st := s.ssbRead p ssb 1 1
  if st ≠ 0 then (s, if s.fabOpen (.mirrorBit p ssb) then none else some st)
  else
    let slice := s.ssbRead p ssb 6 2
    let status := s.ssbRead p ssb 0 1
    let give (x : Nat) : State × Option Nat :=
      let t := s.decide' p ssb slice x
      (if x = 2 then t.cancelSlice p ssb else t, if t.fabOpen (.mirrorBit p ssb) then none else some x)
    let recorded := match s.activeJob p with
      | some k => if s.fget .strmPModeReplay p = 1 then ((s.job k).replay.find? fun (q : Nat × Bool) => q.1 = slice).map Prod.snd else none
      | none => none
    let already := match s.activeJob p with
      | some k => ((s.job k).decided.find? fun (q : Nat × Nat) => q.1 = slice).map Prod.snd
      | none => none
    match recorded, already with
    -- rule 1: the recorded decision; FULL waits for completion, which a slice that has ended otherwise never reaches (DEDUCED)
    | some true, _ => give 2
    | some false, _ => if status = 0 then give 1 else if status ≠ 0xFF then give 3 else (s, none)
    -- rule 2: the same decision again
    | none, some d => give d
    | none, none =>
      if status ≠ 0xFF && status ≠ 0 then give 3
      else if status = 0 then give 1
      else if s.slices.any fun q => q.part = p && q.ssb = ssb then (s, none)
      else ({ s with slices := s.slices ++ [({ part := p, ssb := ssb, slice := slice, time := s.time } : SliceReq)] }, none)

/-- SLICE_GRACE_EXPIRY (R276 rules 6 and 7, R278); a slice that has ended meanwhile is decided by that. -/
def State.graceExpiry (s : State) (p ssb : Nat) : State :=
  match s.slices.find? fun q => q.part = p && q.ssb = ssb && !q.held with
  | none => s
  | some q =>
    let sa := s.fget .strmPModeSa p
    let shdw := s.ssbRead p ssb 2 1
    if s.ssbRead p ssb 0 1 ≠ 0xFF then s.sliceDone p ssb
    else if sa = 1 && shdw = 1 then
      let s1 := { s with slices := s.slices.erase q }
      (s1.decide' p ssb q.slice 2).cancelSlice p ssb
    else
      let s1 := { s with slices := s.slices.map fun x => if x = q then { x with held := true } else x }
      let s2 := s1.fadd .strmPStalled p 1
      if sa = 1 then s2.fadd .strmPUnavail p 1 else s2

/-- The descriptors of a chain from an address on, as far as they can be read (R261). -/
def State.chainFrom (s : State) (p dva : Nat) : Nat → List (List Byte)
  | 0 => []
  | fuel + 1 =>
    if dva = 0 then []
    else match (s.vread p dva 64).2 with
      | .ok d => d :: s.chainFrom p (fld d 40 6) fuel
      | _ => []

/-- A descriptor of the slice is incomplete at its deadline (R272): the present one of a chain, or one that it has not reached and whose
barrier has released NWAIT times. -/
def State.sliceLate (s : State) (p ssb : Nat) : Bool :=
  s.ctxs.any fun e =>
    let c := e.2
    let passed (d : List Byte) (ready : Option Nat) : Bool := deckSsb d = ssb && match ready with
      | some t => deadlineOf t d ≤ 40 * s.time
      | none => false
    c.busy && c.ended.isNone && c.part = p && e.1 % 136 < 128 &&
      ((!c.desc.isEmpty && passed c.desc (s.readyAt c)) ||
        (!c.own && (s.chainFrom p (if c.desc.isEmpty then c.dva else fld c.desc 40 6) 65536).any fun d => passed d (s.readyTime c d none)))

/-- SLICE_DEADLINE (R272): a descriptor of the slice is incomplete at its deadline; the slice counts once. -/
def State.sliceDeadline (s : State) (p ssb : Nat) : State :=
  if ssb ≠ 0 && s.formed p && s.sliceLate p ssb && !s.late.contains (p, ssb) then
    { s.fadd .strmPLate p 1 with late := (p, ssb) :: s.late }
  else s

/-! ## Running and stopping descriptors -/

/-- The stop rules of R264, R265 and R281: status, coordinate, tile map and bytes go to the SSB, the chain stops, and a slice that waits
for a decision has one (R276). -/
def State.stopDesc (s : State) (x status : Nat) : State :=
  let c := s.ctx x
  let s1 := if c.desc.isEmpty || x % 136 ≥ 128 then s else
    (((s.ssbStop c.part c.dva c.desc c.next).ssbTiles c.part c.desc c.next).ssbBytes c.part c.desc c.next).ssbWrite c.part (fld c.desc 46 6) 0
      [BitVec.ofNat 8 status]
  let s2 := if status = 4 && x % 136 < 128 then s1.fadd .strmPAborts c.part 1 else s1
  (s2.endChain x status (packCoord (mvCoord c.desc c.next))).sliceDone c.part (deckSsb c.desc)

/-- One grant: the next line of a context is issued, or the context pauses or stops at it (R262 to R265, R271). -/
def State.grantLine (s : State) (x : Nat) : State :=
  let c := s.ctx x
  let r := ((s.noteGrant x).noteMerge x).moveLine x
  match r.2 with
  | .none => (r.1.setCtx x fun q => { q with next := c.next + 1, issued := c.next + 1 = mvLines c.desc }).countBytes x 1
  | .wait va w k => (r.1.ssbStop c.part c.dva c.desc c.next).enterWait ⟨.stream x, c.part, va, w, k⟩
  | .fault => r.1.stopDesc x 2
  | .media => r.1.stopDesc x 6

/-- Lines that the ready contexts of an engine have left. -/
def State.linesLeft (s : State) (e : Nat) : Nat :=
  (s.readyCtxs e).foldl (fun a x => a + (mvLines (s.ctx x).desc - (s.ctx x).next)) 0

/-- Grants of an engine until a context has no line to issue. -/
def State.engineRun (s : State) (e x : Nat) : Nat → State
  | 0 => s
  | fuel + 1 =>
    if !s.lineReady x then s
    else match s.grantOf e with
      | none => s
      | some y => (s.grantLine y).engineRun e x fuel

/-- Fetch the current descriptor of a context where it has not been read. -/
def State.fetchDesc (s : State) (x : Nat) : State × Bool :=
  let c := s.ctx x
  if !c.desc.isEmpty then (s, true)
  else match s.vread c.part c.dva 64 with
    | (s1, .ok d) => (s1.setCtx x fun q => { q with desc := d, next := 0, issued := false, go := false, block := none }, true)
    | (s1, .wait a k) => (s1.enterWait ⟨.stream x, c.part, a, false, k⟩, false)
    | (s1, .bad _ _) => (s1.endChain x 2 0, false)

/-- Ring guilt that follows a malformed descriptor or task is marked by the ring unit: global ring, cause, index. -/
def State.noteGuilt (s : State) (g cause idx : Nat) : State := { s with guilts := s.guilts ++ [(g, cause, idx)] }

/-- A malformed descriptor ends its chain before any line moves (R258). -/
def State.descMalformed (s : State) (x : Nat) : State :=
  let c := s.ctx x
  let ssb := if byteAt c.desc 0 = 1 then fld c.desc 46 6 else 0
  let s1 := ((s.ssbWrite c.part ssb 0 [1]).endChain x 1 0).sliceDone c.part (deckSsb c.desc)
  match c.of with
  | .record g idx _ => s1.noteGuilt g 1 idx
  | _ => s1

/-- A command for the present descriptor of a context acts on it: the chain runs, and the descriptor has lines to come. -/
def State.ctxRuns (s : State) (x : Nat) : Bool :=
  (s.ctx x).busy && (s.ctx x).ended.isNone && !(s.ctx x).issued && !s.waitsFor (.stream x)

/-- MOVE (R257 to R263, R271): the descriptor is checked, and the engine issues its lines, and those that go before them, in order. -/
def State.doMove (s : State) (x : Nat) : State :=
  if !s.ctxRuns x then s
  else match s.fetchDesc x with
    | (s1, false) => s1
    | (s1, true) =>
      let c := s1.ctx x
      let kind := byteAt c.desc 0
      if kind = 2 then (if (s.ctx x).desc.isEmpty then s1 else s)
      else if kind ≠ 1 || (!c.go && s1.mvBad c.part c.desc) then s1.descMalformed x
      else match (if c.go then (s1, some true) else s1.ssbReady x c.desc) with
        | (s2, some false) => s2
        | (s2, none) => s2.stopDesc x 2
        | (s2, some true) =>
          if deckSsb c.desc ≠ 0 && s2.ssbRead c.part (deckSsb c.desc) 1 1 = 2 then s2.supersede x
          else
            let s3 := s2.setCtx x fun q => { q with go := true }
            let s4 := s3.engineRun (x / 136) x (s3.linesLeft (x / 136))
            if s4.drains = 0 then s4 else s4.syncDrain

/-! ## Meanings -/

/-- BARSET (R260, R261, R274). -/
def State.doBarset (s : State) (x : Nat) : State :=
  if !s.ctxRuns x then s
  else match s.fetchDesc x with
    | (s1, false) => s1
    | (s1, true) =>
      let c := s1.ctx x
      let kind := byteAt c.desc 0
      if kind = 1 then (if (s.ctx x).desc.isEmpty then s1 else s)
      else if kind ≠ 2 || barsetBad c.desc then s1.descMalformed x
      else match s1.activeJob c.part with
        | none => s1.nextDesc x
        | some k =>
          let b := byteAt c.desc 4
          let s2 := s1.setBarrier k b fun q => { q with exp := fld c.desc 2 2, step := bitAt (byteAt c.desc 1) 0 }
          let q := SMap.get {} (s2.job k).barriers b
          (if q.count ≥ s2.barExp c.part q then s2.barrierFull c.part k b else s2).nextDesc x

/-- DESCRIPTOR_COMPLETE (R261, R266, R267, R276). -/
def State.doDescriptorComplete (s : State) (x : Nat) : State :=
  let c := s.ctx x
  if !c.busy || c.ended.isSome || !c.issued || x % 136 ≥ 128 then s
  else match s.ssbReady x c.desc with
    | (s1, some true) =>
      (((s1.descActions c.part c.desc 0 (mvLines c.desc)).sliceDone c.part (deckSsb c.desc)).nextDesc x)
    | (s1, some false) => s1
    | (s1, none) => s1.stopDesc x 2

/-- A page of a DEMAND mapping could not be made resident because flash does not return its object (R265, R290). -/
def State.demandMedia (s : State) (p va : Nat) : Bool :=
  match (s.part p).maps.find? fun x => x.va ≤ va && va < x.va + x.size with
  | none => false
  | some x => match (s.promote p x.obj (if x.tier = 3 then 1 else x.tier)).2 with
    | .inr 0xC => true
    | _ => false

/-- Status of a descriptor whose wait cannot be served (R264, R265): NOPLACE where the object of a destination page cannot be made
resident, MEDIA where flash does not return that of a source page, else FAULT. -/
def State.unservedStatus (s : State) (c : Ctx) (w : TransWait) : Nat :=
  if w.kind = .demand && w.write && w.va = (mvDst c.desc c.next).toNat then 3
  else if w.kind = .demand && !w.write && s.demandMedia w.part w.va then 6
  else 2

/-- The wait of a context cannot be served (R264, R265). -/
def State.streamUnserved (s : State) (x : Nat) : State :=
  match s.waits.find? fun w => w.req == .stream x with
  | none => s
  | some w => s.stopDesc x (s.unservedStatus (s.ctx x) w)

/-- Contexts still running in the draining domains end POWER_ABORT (R281); a command whose transfer ends so is answered POWER_ABORT. -/
def State.drainTimeout (s : State) : State :=
  (s.ctxs.foldl (fun (t : State) c =>
    if !t.ctxDrains c.1 then t
    else match c.2.of with
      | .command m stamp => match (t.mbx m).reqs.find? fun r => r.stamp = stamp with
        | some r => t.endL m r 0xB [] false
        | none => t
      | _ => t.stopDesc c.1 4) s).syncDrain

/-- SLICE_DEADLINE. -/
def execSliceDeadline (p : Fin 64) (ssb : BitVec 48) (s : State) : Res := .next (s.sliceDeadline p ssb.toNat)

/-- SLICE_GRACE_EXPIRY. -/
def execSliceGraceExpiry (p : Fin 64) (ssb : BitVec 48) (s : State) : Res := .next (s.graceExpiry p ssb.toNat)

end Sys2Proof.Machine
end

