-- ==== Sys2Proof/Machine/Whorl.lean ====
section
/-! DEFINITION. The whorl lanes: ticks, output words, jumps, seeding (R210 to R216) and the noise source (R207 to R209). -/

namespace Sys2Proof.Machine

/-- The polynomial constant of a lane (R210); lanes are numbered modulo 64 and are the same in every skein. -/
def lanePoly (i : Nat) : Nat := (Config.whorlPoly (i % 64)).toNat

/-- One bit step (R210). -/
def laneStep (poly s : Nat) : Nat :=
  let t := s * 2 % 2 ^ 128
  if s.testBit 127 then t ^^^ poly else t

/-- `n` bit steps. -/
def laneSteps (poly : Nat) : Nat → Nat → Nat
  | 0, s => s
  | n + 1, s => laneSteps poly n (laneStep poly s)

/-- One tick: 64 bit steps. -/
def laneTick (poly s : Nat) : Nat := laneSteps poly 64 s

/-- The output word of the state after a tick (R211). -/
def laneWord (s : Nat) : Nat :=
  let z0 := (s + s / 2 ^ 64) % 2 ^ 64
  let z1 := (z0 ^^^ (z0 / 2 ^ 30)) * 0xBF58476D1CE4E5B9 % 2 ^ 64
  let z2 := (z1 ^^^ (z1 / 2 ^ 27)) * 0x94D049BB133111EB % 2 ^ 64
  (z2 ^^^ (z2 / 2 ^ 31)) / 2 ^ 32

/-- Product of two elements of the lane's field: `b` bit by bit from the top. -/
def laneMul (poly a b : Nat) : Nat → Nat → Nat
  | 0, acc => acc
  | n + 1, acc =>
    let t := laneStep poly acc
    laneMul poly a b n (if b.testBit n then t ^^^ a else t)

/-- `x ^ e` by squaring over `n` bits of `e`, from the top. -/
def lanePow (poly e : Nat) : Nat → Nat → Nat
  | 0, acc => acc
  | n + 1, acc =>
    let sq := laneMul poly acc acc 128 0
    lanePow poly e n (if e.testBit n then laneStep poly sq else sq)

/-- The state `ticks` ticks on (R215): multiplied by `x ^ (64 * ticks)`. -/
def laneJump (poly s ticks : Nat) : Nat := laneMul poly s (lanePow poly (64 * ticks) 70 1) 128 0

def State.lane (s : State) (k i : Nat) : Lane := SMap.get {} s.lanes (64 * k + i)
def State.setLane (s : State) (k i : Nat) (l : Lane) (t : Nat) : State :=
  { s with lanes := SMap.set {} s.lanes (64 * k + i) l }.fset .sknWhorlTick (64 * k + i) t

/-- Draw words from a state: the words in tick order and the state after them. -/
def laneDraw (poly : Nat) : Nat → Nat → List Nat × Nat
  | 0, s => ([], s)
  | n + 1, s =>
    let s1 := laneTick poly s
    let r := laneDraw poly n s1
    (laneWord s1 :: r.1, r.2)

/-- Draw `n` words from lane `i` of skein `k` (R211, R217, R224). -/
def State.drawWords (s : State) (k i n : Nat) : State × List Nat :=
  let l := s.lane k i
  let r := laneDraw (lanePoly i) n l.s
  ((s.setLane k i { l with s := r.2 } (s.fget .sknWhorlTick (64 * k + i) + n)).fadd .sknWhorlWords k n, r.1)

/-- The entry belongs to a lane. -/
def WhorlCmd.on (k i : Nat) (c : WhorlCmd) : Bool := c.skein = k && c.lane = i

/-- A command or a draw of the lane precedes the draw `who` in arrival order, so that it waits (R192, R215). -/
def State.lanePending (s : State) (k i who : Nat) : Bool :=
  (s.whorlCmds.takeWhile fun c => !(c.on k i && c.draw = who)).any (·.on k i)

/-- A draw that waits takes its place in the arrival order of the lane. -/
def State.joinLane (s : State) (k i who : Nat) : State :=
  if s.whorlCmds.any fun c => c.on k i && c.draw = who then s
  else { s with whorlCmds := s.whorlCmds ++ [{ skein := k, lane := i, seek := false, count := 0, draw := who }] }

/-- A draw has been served, or its consumer is gone. -/
def State.leaveLanes (s : State) (who : Nat) : State := { s with whorlCmds := s.whorlCmds.filter fun c => c.draw ≠ who }

/-- Commands of a skein that are pending or held. -/
def State.whorlCount (s : State) (k : Nat) : Nat := (s.whorlCmds.filter fun c => c.skein = k && c.draw = 0).length

/-- No place is free for a command of the skein (R215). -/
def State.whorlFull (s : State) (k : Nat) : Bool := decide (16 ≤ s.whorlCount k)

/-- PEND counts at most 16 (R224): the commands beyond are writes that are held. -/
def State.syncWhorl (s : State) (k : Nat) : State := s.fset .sknWhorlStatusPend k (min 16 (s.whorlCount k))

/-- Base state of lane `i` of the skein of rank `r` (R214). -/
def baseState (seed : List Byte) (r i : Nat) : Nat :=
  let b := ofBytes ((sha384 (padTo 32 (seed.take 32) ++ toBytes 2 r ++ toBytes 1 i ++ [0x57])).take 16)
  if b = 0 then 1 else b

/-- Seed one skein (R213). -/
def State.seedSkein (s : State) (seed : List Byte) (k r : Nat) : State :=
  ((List.range 64).foldl (fun t i => let b := baseState seed r i; t.setLane k i { s := b, base := b } 0) s).fset
    .sknWhorlStatusSeeded k 1

/-- The seed of a partition, drawn where it holds none (R213); `none` when the noise source is FAILED. -/
def State.takeSeed (s : State) (p : Nat) : Option (State × List Byte) :=
  let sd := (s.part p).seed
  if !sd.isEmpty then some (s, sd)
  else if s.noiseFailed then none
  else
    let n := s.conditioned 32
    some (n.1.setPart p fun q => { q with seed := n.2 }, n.2)

/-- Seed every lane of a partition (R213, R214). -/
def State.seedAll (s : State) (p : Nat) (seed : List Byte) : State :=
  (s.skeins p).zipIdx.foldl (fun t kr => t.seedSkein seed kr.1 kr.2) s

/-- Lane states of R214 for a save area, by rank (R399). -/
def seededLanes (seed : List Byte) (n : Nat) : SMap Lane :=
  (List.range n).foldl (fun m r => (List.range 64).foldl (fun m2 i =>
    let b := baseState seed r i
    SMap.set {} m2 (64 * r + i) { s := b, base := b }) m) []

/-- A write of SKN_WHORL_CMD (R215, R576) takes its place in arrival order; one beyond the 16 pending is held there. -/
def State.whorlWrite (s : State) (k v : Nat) : State :=
  let c : WhorlCmd := { skein := k, lane := bitField v 0 6, seek := bitAt v 6, count := bitField v 8 56 }
  { s with whorlCmds := s.whorlCmds ++ [c] }.syncWhorl k

/-- The oldest command of a skein with no draw of its lane ahead of it; `held`: lanes of the draws passed. -/
def whorlNext (k : Nat) : List Nat → List WhorlCmd → Option WhorlCmd
  | _, [] => none
  | held, c :: cs =>
    if c.skein ≠ k then whorlNext k held cs
    else if c.draw ≠ 0 then whorlNext k (c.lane :: held) cs
    else if held.contains c.lane then whorlNext k held cs
    else some c

/-- The oldest pending command of a skein takes effect (R215). -/
def State.whorlComplete (s : State) (k : Nat) : State :=
  match whorlNext k [] s.whorlCmds with
  | none => s
  | some c =>
    let l := s.lane k c.lane
    let poly := lanePoly c.lane
    let s1 := { s with whorlCmds := s.whorlCmds.erase c }.syncWhorl k
    if c.seek then s1.setLane k c.lane { l with s := laneJump poly l.base c.count } c.count
    else s1.setLane k c.lane { l with s := laneJump poly l.s c.count } (s.fget .sknWhorlTick (64 * k + c.lane) + c.count)

/-! ## The noise source -/

/-- Runs of equal bits from bit 0 up over `n` bits, after a run of `run` bits `last` (0: none): the run at the end, and the longest. -/
def bitRuns (v : Nat) : Nat → Nat → Bool → Nat → Nat × Nat
  | 0, run, _, best => (run, best)
  | n + 1, run, last, best =>
    let b := v.testBit 0
    let r := if run ≠ 0 && b = last then run + 1 else 1
    bitRuns (v / 2) n r b (max best r)

/-- The window passes both health tests (R207): bit 0 is the first bit sampled, and the repetition count goes on from the window before. -/
def State.windowOk (s : State) (v : Nat) : Bool :=
  let same := ((List.range 1024).filter fun i => v.testBit i = v.testBit 0).length
  decide ((bitRuns v 1024 s.noiseRun s.noiseBit 0).2 < 41) && decide (same < 840)

/-- The noise source fails (R209): reported in every skein, logged and sent as an event. -/
def State.noiseFail (s : State) : State :=
  let s1 := { s with noiseFailed := true }
  let s2 := (List.range 64).foldl (fun t k => t.fset .sknWhorlStatusSrcfail k 1) s1
  (s2.logFault { cls := 0x9 }).devEvent 0x986 []

/-- A window of 1,024 raw bits (R207 to R209): hashed, or discarded, after which the tests start again. -/
def State.noiseWindow (s : State) (v : Nat) : State :=
  if s.noiseFailed then s
  else if s.windowOk v then
    { s with noiseBad := 0, noiseOut := sha384 (toBytes 128 v), noiseRun := (bitRuns v 1024 s.noiseRun s.noiseBit 0).1, noiseBit := v.testBit 1023 }
  else if s.noiseBad + 1 ≥ 3 then { s with noiseBad := 3, noiseRun := 0 }.noiseFail
  else { s with noiseBad := s.noiseBad + 1, noiseRun := 0 }

/-- NOISE_WINDOW. -/
def execNoiseWindow (raw : BitVec 1024) (s : State) : Res := .next (s.noiseWindow raw.toNat)

end Sys2Proof.Machine
end

