-- ==== Sys2Proof/Machine/Snap.lean ====
section
/-! DEFINITION. The live state of a job (R405): taken from and given to a partition's cores, lanes and memories in rank order,
so that any physical units may carry the ranks (R62, R409). -/

namespace Sys2Proof.Machine

/-- Register fields of a matrix core that belong to its sequencer state, with how many of each a core has (R76, R99). -/
def seqFlds : List (Fld × Nat) := [(.mcrStatusBusy, 1), (.mcrStatusSnflush, 1), (.mcrStatusIsat, 1), (.mcrFaultCode, 1),
  (.mcrFaultPc, 1), (.mcrPc, 1), (.mcrFlags, 1), (.mcrStep, 1), (.mcrLen, 4), (.mcrAr, 16), (.mcrLc, 4)]

/-- Register fields of a carding core that belong to its threads (R206). -/
def threadFlds : List (Fld × Nat) := [(.crdStatusTbusy, 1), (.crdStatusSnflush, 1), (.crdStatusStovf, 1), (.crdFaultCode, 1),
  (.crdFaultThread, 1), (.crdFaultPc, 1), (.crdFaultVa, 1), (.crdExit, 1), (.crdPc, 8)]

/-- Lane fields of a skein (R216, R224). -/
def laneFlds : List (Fld × Nat) := [(.sknWhorlStatusSeeded, 1), (.sknWhorlTick, 64)]

/-- Register fields of the units of a list, re-keyed by their place in the list. -/
def State.grabFlds (s : State) (fl : List (Fld × Nat)) (units : List Nat) (m : SMap Nat) : SMap Nat :=
  units.zipIdx.foldl (fun m ur => fl.foldl (fun m f => (List.range f.2).foldl (fun m i =>
    SMap.set 0 m (f.1.key (ur.2 * f.2 + i)) (s.fget f.1 (ur.1 * f.2 + i))) m) m) m

/-- Give register fields back to the units of a list. -/
def State.giveFlds (s : State) (fl : List (Fld × Nat)) (units : List Nat) (m : SMap Nat) : State :=
  units.zipIdx.foldl (fun t ur => fl.foldl (fun t f => (List.range f.2).foldl (fun t i =>
    t.fset f.1 (ur.1 * f.2 + i) (SMap.get 0 m (f.1.key (ur.2 * f.2 + i)))) t) t) s

/-- Records of the units of a list, re-keyed by place; `n` records a unit. -/
def grabRecs {α : Type} [DecidableEq α] (d : α) (m : SMap α) (n : Nat) (units : List Nat) : SMap α :=
  units.zipIdx.foldl (fun a ur => (List.range n).foldl (fun a i =>
    SMap.set d a (ur.2 * n + i) (SMap.get d m (ur.1 * n + i))) a) []

/-- Give records back to the units of a list. -/
def giveRecs {α : Type} [DecidableEq α] (d : α) (src dst : SMap α) (n : Nat) (units : List Nat) : SMap α :=
  units.zipIdx.foldl (fun a ur => (List.range n).foldl (fun a i =>
    SMap.set d a (ur.1 * n + i) (SMap.get d src (ur.2 * n + i))) a) dst

/-- Bytes of a job's memories that are live (R405): core, local and skein memory. -/
structure LiveBytes where
  cm : Nat
  lm : Nat
  sm : Nat

/-- The first bytes of every memory of a partition, moved to the place of its rank; units in rank order keep the list rising. -/
def State.grabMem (s : State) (p : Nat) (l : LiveBytes) : List Host.Cell :=
  let cm := (s.coresOf p).zipIdx.flatMap fun cr => cellsSlice s.mem (coreMem cr.1) l.cm (coreMem cr.2)
  let lm := (s.cardingOf p).zipIdx.flatMap fun nr => cellsSlice s.mem (localMem nr.1) l.lm (localMem nr.2)
  let sm := (s.skeins p).zipIdx.flatMap fun kr => cellsSlice s.mem (skeinMem kr.1) l.sm (skeinMem kr.2)
  cm ++ lm ++ sm

/-- Cells in canonical form: rising addresses, no zero listed. -/
def cellsCanon (m : List Host.Cell) : List Host.Cell := m.foldl (fun a c => SMap.set 0 a c.1 c.2) []

/-- Give the memories back. -/
def State.giveMem (s : State) (p : Nat) (l : LiveBytes) (m : List Host.Cell) : State :=
  let m1 := (s.coresOf p).zipIdx.foldl (fun d cr => cellsCopy m d (coreMem cr.2) l.cm (coreMem cr.1)) s.mem
  let m2 := (s.cardingOf p).zipIdx.foldl (fun d nr => cellsCopy m d (localMem nr.2) l.lm (localMem nr.1)) m1
  let m3 := (s.skeins p).zipIdx.foldl (fun d kr => cellsCopy m d (skeinMem kr.2) l.sm (skeinMem kr.1)) m2
  { s with mem := m3 }

/-- Live sizes of a job, as latched when it opened (R405). -/
def Job.live (j : Job) : LiveBytes := ⟨j.liveCm * 4096, j.liveLm * 4096, j.liveSm * 4096⟩

/-- Bytes of the placed feature-map regions of a job (R405). -/
def Job.x7Bytes (j : Job) : Nat := j.x7.foldl (fun a x => a + x.2.2) 0

/-- Size of the live state of a partition's job now (R405). -/
def State.liveSize (s : State) (p k : Nat) : Nat :=
  let j := s.job k
  let cores := (s.coresOf p).foldl (fun a c =>
    let m := s.mcore c
    let held := ((List.range 4).filter fun b => (SMap.get {} m.banks b).st = 2).length
    a + j.liveCm * 4096 + 16384 * held + (match m.wait with | .tdf _ => 4096 | _ => 0)) 0
  let card := (s.cardingOf p).foldl (fun a n =>
    let w := ((List.range 8).filter fun t => match (s.thread (8 * n + t)).wait with | .flags .. => true | _ => false).length
    a + j.liveLm * 4096 + 8192 * w) 0
  cores + card + (s.skeins p).length * (j.liveSm * 4096 + 2048) + 4096 + j.x7Bytes

/-- Largest live state of a job (R403): every bank held, every core and thread waiting. -/
def State.liveMax (s : State) (p k : Nat) : Nat :=
  let j := s.job k
  (s.coresOf p).length * (j.liveCm * 4096 + 4 * 16384 + 4096) + (s.cardingOf p).length * (j.liveLm * 4096 + 8 * 8192) +
    (s.skeins p).length * (j.liveSm * 4096 + 2048) + 4096 + j.x7Bytes

/-- Everything that lies in skein memory for a job: its live part, and the whole of it when regions are placed there. -/
def Job.liveAll (j : Job) : LiveBytes := if j.x7.isEmpty then j.live else { j.live with sm := 0x2000000 }

/-- The hand-offs of the threads of some carding cores, given to the cores at the same places of another list, in order. -/
def rekeyHandoffs (l : List Handoff) (src dst : List Nat) : List Handoff :=
  l.filterMap fun (h : Handoff) => (src.zip dst).lookup (h.thread / 8) |>.map fun n => { h with thread := 8 * n + h.thread % 8 }

/-- Take the live state of a partition (R405). -/
def State.capture (s : State) (p : Nat) (l : LiveBytes) (bytes : Nat) (bars : SMap Barrier) : Snapshot :=
  let cores := s.coresOf p
  let cards := s.cardingOf p
  let sk := s.skeins p
  { full := true, mem := s.grabMem p l,
    mcores := grabRecs {} s.mcores 1 cores, mtasks := grabRecs {} s.mtasks 1 cores,
    threads := grabRecs {} s.threads 8 cards, ctasks := grabRecs {} s.ctasks 8 cards,
    lanes := grabRecs {} s.lanes 64 sk,
    regs := s.grabFlds laneFlds sk (s.grabFlds threadFlds cards (s.grabFlds seqFlds cores [])),
    handoffs := rekeyHandoffs s.handoffs cards (List.range cards.length),
    barriers := bars, bytes := bytes }

/-- Give a live state to the units that now carry the ranks (R409, R458). -/
def State.restore (s : State) (p : Nat) (l : LiveBytes) (n : Snapshot) : State :=
  let cores := s.coresOf p
  let cards := s.cardingOf p
  let sk := s.skeins p
  let s1 := if n.full then s.giveMem p l n.mem else s
  let s2 := { s1 with mcores := giveRecs {} n.mcores s1.mcores 1 cores, mtasks := giveRecs {} n.mtasks s1.mtasks 1 cores,
                      threads := giveRecs {} n.threads s1.threads 8 cards, ctasks := giveRecs {} n.ctasks s1.ctasks 8 cards,
                      lanes := giveRecs {} n.lanes s1.lanes 64 sk,
                      handoffs := s1.handoffs.filter (fun (h : Handoff) => !cards.contains (h.thread / 8)) ++
                        rekeyHandoffs n.handoffs (List.range cards.length) cards }
  let s3 := ((s2.giveFlds seqFlds cores n.regs).giveFlds threadFlds cards n.regs).giveFlds laneFlds sk n.regs
  cards.foldl (fun t c => t.syncHandoffs c) (cores.foldl (fun t c => t.syncUnits c) s3)

end Sys2Proof.Machine
end

