-- ==== Sys2Proof/Machine/Jobs.lean ====
section
/-! DEFINITION. Jobs: opening (R399), ending (R400), activation and the work that belongs to them (R397 to R402). -/

namespace Sys2Proof.Machine

def State.ring (s : State) (g : Nat) : Ring := SMap.get {} s.rings g
def State.setRing (s : State) (g : Nat) (f : Ring → Ring) : State := { s with rings := SMap.set {} s.rings g (f (s.ring g)) }

/-- Change the record with an index. -/
def State.setRec (s : State) (g idx : Nat) (f : Rec → Rec) : State :=
  s.setRing g fun r => { r with recs := r.recs.map fun x => if x.idx = idx then f x else x }

/-- A record has started (R348); its effect may still wait: for a translation, for room in its engine (R365), or for the end of the open job
(R398). -/
def State.begun (s : State) (g : Nat) (r : Rec) : Bool := r.started || r.parked || s.waitsFor (.record g r.idx)

/-- Record types whose work belongs to a job (R402): GRAPH, COPY, STREAM, VIDEO. -/
def jobType (ty : Nat) : Bool := [1, 2, 7, 8].contains ty

/-- Rings whose records run within a job (R398, R401). -/
def State.jobRings (s : State) (k : Nat) : List Nat :=
  if s.serving (k / 16) then [k] else (List.range 16).map (k / 16 * 16 + ·)

/-- A job has started work that has not ended (R400, R404). -/
def State.jobBusy (s : State) (k : Nat) : Bool :=
  (s.jobRings k).any fun g => (s.ring g).recs.any fun r => s.begun g r && !r.parked && r.outcome.isNone && jobType (byteAt r.data 0)

/-! ## Feature-map regions in skein memory (R174) -/

/-- Bytes of each skein memory below the deckle window. -/
def State.skeinFree (s : State) (p : Nat) : Nat := 0x2000000 - (s.part p).dsm * 0x40000

/-- Where byte `b` of the pool of the skein memories of a list lies: 4 KiB interleave over the skeins. -/
def poolAt (sk : List Nat) (b : Nat) : Nat :=
  let g := b / 4096
  let n := max 1 sk.length
  skeinMem (sk.getD (g % n) 0) + g / n * 4096 + b % 4096

/-- Where byte `b` of the pool of a partition's skein memories lies. -/
def State.poolDpa (s : State) (p b : Nat) : Nat := poolAt (s.skeins p) b

/-- The T1 copy of a region, if it has one. -/
def State.regionBase (s : State) (p i : Nat) : Option Nat := ((s.obj i).refCopy 1 p).map (·.base)

/-- Regions of a partition in order of registration. -/
def State.regionsOf (s : State) (p : Nat) : List (Nat × Obj) :=
  let l := s.objs.filter fun e => e.2.kind = 3 && !e.2.retired && e.2.creator = p
  l.foldl (fun acc e => acc.takeWhile (fun x => x.2.born ≤ e.2.born) ++ [e] ++ acc.dropWhile (fun x => x.2.born ≤ e.2.born)) []

/-- Copy bytes between a region's T1 copy and the pool, 4 KiB at a time. -/
def State.x7Copy (s : State) (p base off bytes : Nat) (toPool : Bool) : State :=
  (List.range (ceilDiv bytes 4096)).foldl (fun t i =>
    let n := min 4096 (bytes - 4096 * i)
    let a := base + 4096 * i
    let b := t.poolDpa p (off + 4096 * i)
    { t with mem := if toPool then cellsCopy t.mem t.mem a n b else cellsCopy t.mem t.mem b n a }) s

/-- Regions that fit whole, in order of registration, with their places in the pool, and the regions that stay in T1: the placement plan
(R174, R38). -/
def State.x7Plan (s : State) (p : Nat) : List (Nat × Nat × Nat) × List Nat :=
  let cap := s.skeinFree p * (s.skeins p).length
  let r := (s.regionsOf p).foldl (fun (acc : List (Nat × Nat × Nat) × List Nat × Nat) e =>
    let n := ceilDiv e.2.bytes 4096 * 4096
    if acc.2.2 + n ≤ cap && (s.regionBase p e.1).isSome then (acc.1 ++ [(e.1, acc.2.2, e.2.bytes)], acc.2.1, acc.2.2 + n)
    else (acc.1, acc.2.1 ++ [e.1], acc.2.2)) ([], [], 0)
  (r.1, r.2.1)

/-- Copy the placed regions of a job in (at job start) or back (at job end). -/
def State.x7Move (s : State) (p k : Nat) (toPool : Bool) : State :=
  (s.job k).x7.foldl (fun t x => match t.regionBase p x.1 with
    | some b => t.x7Copy p b x.2.1 x.2.2 toPool
    | none => t) s

/-- Copy the placed regions of a job that is not active back from its saved live state, which has the skein memories by rank. -/
def State.x7Saved (s : State) (p k : Nat) : State :=
  let saved := (SMap.get {} s.saves k).mem
  let ranks := List.range (s.skeins p).length
  (s.job k).x7.foldl (fun (t : State) x => match t.regionBase p x.1 with
    | none => t
    | some base => (List.range (ceilDiv x.2.2 4096)).foldl (fun (u : State) i =>
        { u with mem := cellsCopy saved u.mem (poolAt ranks (x.2.1 + 4096 * i)) (min 4096 (x.2.2 - 4096 * i)) (base + 4096 * i) }) t) s

/-! ## Opening and ending -/

/-- RING_ACTIVE shows the active job (R415). -/
def State.setActive (s : State) (p : Nat) (k : Option Nat) : State :=
  match k with
  | none => (s.fset .ringActiveValid p 0).fset .ringActiveRing p 0
  | some k => ((s.fset .ringActiveValid p 1).fset .ringActiveRing p (k % 16)).showBarrier p

/-- MCR_MODE and CRD_MODE of a partition's cores show the active job's SUBN (R399, R407). -/
def State.applySubn (s : State) (p v : Nat) : State :=
  let s1 := (s.coresOf p).foldl (fun t c => t.fset .mcrModeSubn c v) s
  (s.cardingOf p).foldl (fun t n => t.fset .crdModeSubn n v) s1

/-- Sticky flags of the partition's cores clear (R399 step 2). -/
def State.clearSticky (s : State) (p : Nat) : State :=
  let s1 := (s.coresOf p).foldl (fun t c => (t.fset .mcrStatusSnflush c 0).fset .mcrStatusIsat c 0) s
  (s.cardingOf p).foldl (fun t n => (t.fset .crdStatusSnflush n 0).fset .crdStatusStovf n 0) s1

/-- Counters that clear at the start of a job when no other is open, and CPLLOST (R399 step 2). -/
def State.clearCounters (s : State) (p : Nat) : State :=
  let s1 := (s.coresOf p).foldl (fun t c => [Fld.mcrStepsA, .mcrStepsB, .mcrCycTask, .mcrStallHaz, .mcrStallMem, .mcrEccCe,
    .mcrSkips].foldl (fun t f => t.fset f c 0) t) s
  let s2 := (s.cardingOf p).foldl (fun t n => [Fld.crdInstr, .crdFlops, .crdSfuElem, .crdHoBytes, .crdEccCe,
    .crdStallMem].foldl (fun t f => t.fset f n 0) t) s1
  let s3 := (s.skeins p).foldl (fun t k => t.fset .sknWhorlWords k 0) s2
  let s4 := [Fld.strmPSlices, .strmPLate, .strmPShadow, .strmPUnavail, .strmPStalled, .strmPStallNs, .strmPShadowSteps,
    .strmPBytes, .strmPMerged, .strmPAborts].foldl (fun t f => t.fset f p 0) s3
  s4.fset .ringPstatusCpllost p 0

/-- A job becomes active (R402, R407, R412). -/
def State.activate (s : State) (k : Nat) : State :=
  let s1 := s.tick.setActive (k / 16) (some k)
  let s2 := s1.setJob k fun j => { j with lastActive := s.stamp, activeSince := s.time }
  (s2.setRing k fun r => { r with age := 0 }).applySubn (k / 16) (s.job k).subn

/-- Bytes of the protected set of a partition (R460). -/
def State.protBytes (s : State) (p : Nat) : Nat := ((s.part p).maps.filter fun m => m.tier = 1).foldl (fun a m => a + m.size) 0

/-- Size of one image (R459); the graph state of running GRAPHs is not known at job start and is left out (DESIGN CHOICE). -/
def State.imageSize (s : State) (p k : Nat) : Nat :=
  let prot := s.protBytes p
  4096 + s.liveMax p k + 16 * 4352 + 8192 + ceilDiv (ceilDiv prot 0x80000) 4096 * 4096 + prot + 0x400000

/-- The channels of a set whose numbers have a parity (R461). -/
def parityChannels (m i : Nat) : Nat := ((List.range 256).filter fun c => m.testBit c && c % 2 = i).foldl (fun a c => a ||| 2 ^ c) 0

/-- Allocate the checkpoint area at job start (R461); without it a CKPT entry is logged. -/
def State.allocImages (s : State) (p k : Nat) : State :=
  if (s.part p).image0 ≠ 0 then s
  else
    let n := s.imageSize p k
    let near := s.fget .tierPHashHmode p = 0
    let none' := s.logFault { cls := 0xB, part := p }
    if !s.withinQuota p 1 (2 * charged n) then none'
    else match s.allocSet p n (parityChannels (s.chset p) 0) near with
      | (_, .inr _) => none'
      | (s1, .inl a) => match s1.allocSet p n (parityChannels (s.chset p) 1) near with
        | (_, .inr _) => none'
        | (s2, .inl b) =>
          (s2.charge p 1 (2 * charged n)).setPart p fun q => { q with image0 := a, image1 := b, imageBytes := 2 * charged n, nextImage := 0 }

/-- Free the checkpoint area at job end (R461). -/
def State.freeImages (s : State) (p : Nat) : State :=
  let q := s.part p
  if q.image0 = 0 then s
  else
    let s1 := ((s.freePlace q.image0).freePlace q.image1).uncharge p 1 q.imageBytes
    { s1.setPart p fun x => { x with image0 := 0, image1 := 0, imageBytes := 0, nextImage := 0 } with
      images := SMap.erase (SMap.erase s1.images (2 * p)) (2 * p + 1) }

/-- The save area of a job of a serving partition (R403): allocated, charged and shown in RING_SAVE, or the status that refuses it. -/
def State.saveArea (s : State) (p k : Nat) : State ⊕ Nat :=
  let size := s.liveMax p k
  if !s.serving p then .inl (s.fset .ringSave k 0)
  else if !s.withinQuota p 1 size then .inr 7
  else match s.allocSet p size (s.liveChannels.foldl (fun m c => m ||| 2 ^ c) 0) false with
    | (t, .inl i) => .inl (((t.charge p 1 size).setJob k fun j => { j with save := i }).fset .ringSave k size)
    | (_, .inr e) => .inr e

/-- Open a job (R399): the state, or the status that the GRAPH completes with. Whether seeding and the save area can succeed is
found before anything changes (DEDUCED: "the job is not opened"). -/
def State.openJob (s : State) (k : Nat) : State ⊕ Nat :=
  let p := k / 16
  let q := s.part p
  let serving := s.serving p
  let behind := serving && (s.activeJob p).isSome
  let other := s.jobOpen p
  match s.takeSeed p with
  | none => .inr 0xB
  | some (s0, seed) =>
    let cm := min 1024 (s.fget .ringLiveCm k)
    let lm := min 64 (s.fget .ringLiveLm k)
    let sm := min 8192 (s.fget .ringLiveSm k)
    let s1 := s0.setJob k fun _ => { isOpen := true, subn := q.subn, residency := q.residency, liveCm := cm, liveLm := lm,
                                     liveSm := sm }
    let s2 := if q.residency = 4 then s1.setJob k fun j => { j with x7 := (s1.x7Plan p).1, x7out := (s1.x7Plan p).2 } else s1
    match s2.saveArea p k with
    | .inr _ => .inr 0xA
    | .inl s4 =>
      let s5 := ((s4.allocImages p k).fset .ringPstatusJob p 1).fset .ringActiveResident p (s4.fget .ringActiveResident p ||| 2 ^ (k % 16))
      if behind then
        let t := { s5 with mem := (s5.x7Move p k true).mem }
        let snap : Snapshot := { lanes := seededLanes seed (s5.skeins p).length,
                                 regs := (s5.skeins p).zipIdx.foldl (fun m kr => SMap.set 0 m (Fld.key .sknWhorlStatusSeeded kr.2) 1) [],
                                 mem := if (s5.job k).x7.isEmpty then [] else t.grabMem p ⟨0, 0, 0x2000000⟩,
                                 full := false, bytes := s5.liveSize p k }
        .inl ({ s5 with saves := SMap.set {} s5.saves k snap }.setJob k fun j => { j with saved := true })
      else
        let s6 := s5.clearSticky p
        let s7 := if other then s6 else s6.clearCounters p
        .inl (((s7.seedAll p seed).x7Move p k true).activate k)

/-- The open job ends (R400), once every task, chain and frame of it has ended. -/
def State.finishJob (s : State) (k : Nat) : State :=
  let p := k / 16
  let s1 := if s.activeJob p = some k then s.x7Move p k false else s.x7Saved p k
  let s2 := (s1.boundaryWork p).jobEndRefs p
  let j := s2.job k
  let s3 := if j.save = 0 then s2 else (s2.freePlace j.save).uncharge p 1 (s2.fget .ringSave k)
  let wasActive := s3.activeJob p = some k
  let s4 := { s3 with saves := SMap.set {} s3.saves k {},
                      ckpts := if wasActive then s3.ckpts.filter fun c => c.1 ≠ p else s3.ckpts,
                      boundaries := if wasActive then s3.boundaries.filter fun b => b.1 ≠ p else s3.boundaries }
  let s5 := (s4.setJob k fun j => { barriers := j.barriers, lastActive := j.lastActive }).fset .ringSave k 0
  let s6 := s5.fset .ringActiveResident p (s5.fget .ringActiveResident p &&& (0xFFFF - 2 ^ (k % 16)))
  let s7 := if wasActive then s6.setActive p none else s6
  if s7.jobOpen p then s7 else (s7.freeImages p).fset .ringPstatusJob p 0

/-- Ask for the end of a job: at once when nothing of it runs and the mill can take its steps (R26), else when that is so. -/
def State.endJob (s : State) (k : Nat) : State :=
  if !(s.job k).isOpen then s
  else if s.jobBusy k || !s.millUp then s.setJob k fun j => { j with ending := true }
  else s.finishJob k

/-- Jobs of a partition that wait to end, end when their work has. -/
def State.settleJobs (s : State) (p : Nat) : State :=
  (List.range 16).foldl (fun t r =>
    let k := 16 * p + r
    if (t.job k).isOpen && (t.job k).ending && !t.jobBusy k && t.millUp then t.finishJob k else t) s

end Sys2Proof.Machine
end

