-- ==== Sys2Proof/Machine/Ring.lean ====
section
/-! DEFINITION. Rings: doorbells, controls, records, signals, completion and guilty-ring reset (R339 to R358, R366 to R371). -/

namespace Sys2Proof.Machine

/-- Number of slots of a ring (R340). -/
def State.ringSlots (s : State) (g : Nat) : Nat := 2 ^ s.fget .ringCfgLog2n g

/-- INFLIGHT follows the records in flight (R341). -/
def State.syncRing (s : State) (g : Nat) : State := s.fset .ringStateInflight g (s.ring g).recs.length

/-- A record has reached its end: its status and details wait for RECORD_COMPLETE. -/
def State.endRec (s : State) (g idx status d0 d1 d2 : Nat) : State :=
  s.setRec g idx fun r => if r.outcome.isSome then r else { r with started := true, outcome := some status, d0 := d0, d1 := d1, d2 := d2 }

/-- The record log of the newest image is full (R459, R465). -/
def State.logFull (s : State) (p : Nat) : Bool :=
  match s.newestImage p with
  | some i => decide ((SMap.get {} s.images i).log.length ≥ 32768)
  | none => false

/-- Enter a fetched record in the record log of the newest image, and of its mirror (R465, R477). -/
def State.logRecord (s : State) (g idx : Nat) (data : List Byte) : State :=
  match s.newestImage (g / 16) with
  | some i =>
    let m := SMap.get {} s.images i
    if m.log.any fun e => e.1 = g && e.2.1 = idx then s
    else
      let s1 : State := { s with images := SMap.set {} s.images i { m with log := m.log ++ [(g, idx, data)] } }
      if s.mirrors' (g / 16) i then
        let off := s.imageAt i + (s.part (g / 16)).imageBytes / 2 - 0x400000 + 128 * m.log.length
        s1.fabSubmit (s1.mirrorReqs (.mirrorLog g idx) (g / 16) i off (padTo 128 (Config.imageLogEntry (g % 16) idx data)))
      else s1
  | none => s

/-- The partition has a skein in a quadrant of a mask. -/
def State.inQuads (s : State) (p mask : Nat) : Bool := (s.skeins p).any fun k => mask.testBit (k / 16)

/-- A recovery of the partition runs (R464). -/
def State.recovering (s : State) (p : Nat) : Bool := s.recoveries.any fun x => x.part = p

/-- A switch, a recovery or a stopped quadrant holds the partition (R407, R464, R487). -/
def State.held (s : State) (p : Nat) : Bool :=
  (s.switching.any fun x => x.1 = p) || s.recovering p || s.inQuads p s.quadStop

/-- Cores of the partition do not advance: it is held, or a shutdown has stopped their clocks (R509). -/
def State.halted (s : State) (p : Nat) : Bool := s.held p || s.fget .pwrStateStage 0 ≠ 0

/-! ## Guilty rings -/

/-- Work of a ring in the units stops (R368 steps 2 and 3): tasks under R98 and R205, chains with ABORTED, video frames commit
(R336), waits of its records leave. -/
def State.abortRing (s : State) (g : Nat) : State :=
  let s1 := s.mtasks.foldl (fun (t : State) (e : Nat × Task) =>
    if e.2.active && e.2.ring = g && e.2.outcome.isNone then t.stopMatrix e.1 9 (t.fget .mcrPc e.1) else t) s
  let s2 := s1.ctasks.foldl (fun (t : State) (e : Nat × Task) =>
    if e.2.active && e.2.ring = g && e.2.outcome.isNone then t.stopThread e.1 8 else t) s1
  let mine (o : ChainOf) : Bool := match o with
    | .record r _ _ => r = g
    | .node r _ _ _ => r = g
    | .none | .command .. => false
  let s3 := { s2 with chainWaits := s2.chainWaits.filter fun w => !mine w.of }
  let s4 := s3.ctxs.foldl (fun (t : State) (e : Nat × Ctx) =>
    if e.2.busy && e.2.ended.isNone && mine e.2.of then t.stopDesc e.1 5 else t) s3
  let s5 := { s4 with videos := s4.videos.map fun (v : VideoJob) => if v.ring = g && !v.stopping then { v with stopping := true, stop := 5 } else v }
  { s5 with waits := s5.waits.filter fun w => match w.req with
      | .fetch x => x ≠ g
      | .record x _ => x ≠ g
      | .node x _ _ => x ≠ g
      | _ => true }

/-- Mark a ring guilty (R367, R368 step 1). A cause that comes while the ring is not ACTIVE or HELD adds nothing; one that comes
during a recovery is applied after it (R466). -/
def State.markGuilty (s : State) (g cause idx : Nat) : State :=
  if s.fget .ringState g ≠ 1 && s.fget .ringState g ≠ 2 then s
  else if s.recovering (g / 16) then { s with guilts := s.guilts ++ [(g, cause, idx)] }
  else
    let s1 := (s.fset .ringState g 4).fset .ringStateWaiting g 0
    -- records whose effect had begun and waited count as started
    let s2 := s1.setRing g fun r => { r with
      cause := cause, causeIdx := idx, gtime := s.time, disabling := false, heldDb := [],
      recs := r.recs.map fun x => if s.begun g x then { x with started := true } else x }
    s2.abortRing g

/-- The guilt record of R371 as the event carries it: bytes 0x20 to 0x3F of the status area. -/
def State.guiltBytes (s : State) (p : Nat) : List Byte :=
  toBytes 8 (s.fget .ringGuilty0Gring p + s.fget .ringGuilty0Gcause p * 2 ^ 4 + s.fget .ringGuilty0Ggen p * 2 ^ 8 +
    s.fget .ringGuilty0Gindex p * 2 ^ 32) ++
  toBytes 8 (s.fget .ringGuilty1Gnode p + s.fget .ringGuilty1Gtask p * 2 ^ 16 + s.fget .ringGuilty1Gcode p * 2 ^ 40 +
    s.fget .ringGuilty1Gkind p * 2 ^ 44) ++
  toBytes 8 (s.fget .ringGtime p) ++ toBytes 8 0

/-- Completion record of a record (R350). -/
def cplBytes (r : Rec) (status : Nat) : List Byte :=
  (r.data.drop 2).take 2 ++ toBytes 1 r.gen ++ toBytes 1 (byteAt r.data 0) ++ toBytes 1 status ++ [0, 0, 0] ++
    toBytes 8 r.d0 ++ toBytes 8 r.d1 ++ toBytes 8 r.d2

/-- Statuses that set ERR (R351, R352). -/
def failing (status : Nat) : Bool := !([0, 7, 0xC, 0xD, 0xE, 0x12].contains status)

/-- The WAIT that holds a ring. -/
def State.waiting (s : State) (g : Nat) : Option Rec :=
  (s.ring g).recs.find? fun r => byteAt r.data 0 = 5 && r.started && r.outcome.isNone

/-- WAITING follows the WAIT that holds the ring (R341). -/
def State.syncWaiting (s : State) (g : Nat) : State := s.fset .ringStateWaiting g (if (s.waiting g).isSome then 1 else 0)

/-- What follows the completion record: the fence write, ERR, counts and the interrupt (R350, R352, R354). -/
def State.afterCpl (s : State) (g : Nat) (r : Rec) (status : Nat) : State :=
  let p := g / 16
  let s1 := if byteAt r.data 0 = 6 && status = 0 && !r.reported then
      (s.fset .ringFenceValue g (fld r.data 24 6)).fset .ringFenceGen g (s.fget .ringStateGen g) else s
  let s2 := if failing status then s1.fset .ringStateErr g 1 else s1
  let s3 := (s2.fadd .ringRecs g 1).setRing g fun q =>
    { q with recs := q.recs.filter (fun x => x.idx ≠ r.idx), reported := if (s.newestImage p).isSome then r.idx :: q.reported else q.reported }
  let s4 := if bitAt (byteAt r.data 1) 2 && s3.fget .ringCfgIrqen g = 1 && !r.reported then s3.raise (p + 1) (g % 16) else s3
  let s5 := (s4.syncRing g).syncWaiting g
  if (s5.ring g).disabling && (s5.ring g).recs.isEmpty then
    (s5.fset .ringState g 0).setRing g fun q => { q with disabling := false }
  else s5

/-- A record completes: `none` while its completion record waits for a translation (R350). -/
def State.completeRec (s : State) (g : Nat) (r : Rec) (status : Nat) : Option State :=
  if bitAt (byteAt r.data 1) 1 && !r.reported then
    match s.vwrite (g / 16) (fld r.data 4 6) (cplBytes r status) with
    | (s1, .ok _) => some (s1.afterCpl g r status)
    | (_, .wait _ _) => none
    | (s1, .bad _ _) => some ((s1.fset .ringPstatusCpllost (g / 16) 1).afterCpl g r status)
  else some (s.afterCpl g r status)

/-- A record that completes now; its completion record follows where the page must first be translated. -/
def State.completeNow (s : State) (g : Nat) (r : Rec) (status : Nat) : State :=
  match s.completeRec g r status with
  | some t => t
  | none =>
    match s.vwrite (g / 16) (fld r.data 4 6) (cplBytes r status) with
    | (s1, .wait a k) => (s1.enterWait ⟨.late (g / 16) (fld r.data 4 6) (cplBytes r status), g / 16, a, true, k⟩).afterCpl g r status
    | (s1, _) => s1.afterCpl g r status

/-- A completion record whose record has left its ring is written, waits again, or is lost. -/
def State.lateCpl (s : State) (p va : Nat) (bytes : List Byte) : State :=
  match s.vwrite p va bytes with
  | (s1, .ok _) => s1
  | (s1, .wait a k) => s1.enterWait ⟨.late p va bytes, p, a, true, k⟩
  | (s1, .bad _ _) => s1.fset .ringPstatusCpllost p 1

/-- The pages that completion records of records are to be written in are asked for; `none` when no record waits for one. -/
def State.askCpls (s : State) (g : Nat) (rs : List Rec) : Option State :=
  let t := rs.foldl (fun (t : State) (x : Rec) =>
    if bitAt (byteAt x.data 1) 1 && !x.reported && !t.waitsFor (.completion g x.idx) then
      match t.vwrite (g / 16) (fld x.data 4 6) (cplBytes x 0) with
      | (_, .wait a k) => t.enterWait ⟨.completion g x.idx, g / 16, a, true, k⟩
      | _ => t
    else t) s
  if rs.any fun x => t.waitsFor (.completion g x.idx) then some t else none

/-- Units still hold work of the ring (R368 step 3): a frame that has not committed. -/
def State.ringBusy (s : State) (g : Nat) : Bool := s.videos.any fun v => v.ring = g && v.cores ≠ []

/-- Status of a started record in step 4 of R368. -/
def guiltStatus (cause causeIdx idx : Nat) : Nat :=
  if idx = causeIdx && (cause = 1 || cause = 2) then 1 else if idx = causeIdx && (cause = 3 || cause = 4) then 9 else 5

/-- SESSIONS and QUEUED of a partition (R338). -/
def State.syncVid (s : State) (p : Nat) : State :=
  let n := (s.vsess.filter fun e => e.2.isOpen && e.2.part = p).length
  let q := (s.videos.filter fun v => v.ring / 16 = p && v.next = 0).length
  (s.fset .vidPSessSessions p n).fset .vidPSessQueued p (min 0xFFFF q)

/-- Tasks of a running GRAPH that have ended and are not reported: DETAIL1 of R350 for each, by outcome rank. -/
def State.endedTasks (s : State) (g idx rank : Nat) : List Nat :=
  let of (kind : Nat) (l : SMap Task) : List Nat := (l.filter fun e =>
    e.2.active && e.2.ring = g && e.2.idx = idx && e.2.outcome = some rank).map fun e =>
      e.2.node + e.2.task * 2 ^ 16 + e.2.code * 2 ^ 40 + kind * 2 ^ 44
  of 0 s.mtasks ++ of 1 s.ctasks

/-- DETAIL0 to DETAIL2 of a record that a reset, the end of its partition's work or a lost unit completes (R350): what it has come to. -/
def State.details (s : State) (g : Nat) (r : Rec) (status : Nat) : Nat × Nat × Nat :=
  let own := (r.d0, r.d1, r.d2)
  match byteAt r.data 0 with
  | 1 =>
    match s.graphs.find? fun x => x.ring = g && x.idx = r.idx with
    | none => own
    | some x =>
      let rank := if status = 1 then 3 else if status = 2 then 2 else if status = 5 then 1 else 0
      (x.done + (s.endedTasks g r.idx 0).length,
       if rank = 0 then 0 else if x.worst = rank then x.d1 else (s.endedTasks g r.idx rank).headD r.d1, 0)
  | 8 =>
    match s.videos.find? fun v => v.ring = g && v.idx = r.idx with
    | some v => (v.written + v.unwritten * 2 ^ 32, 0, 0)
    | none => own
  | _ =>
    let mine (e : Nat × Ctx) : Bool := e.2.busy && match e.2.of with
      | .record h i _ => h = g && i = r.idx
      | _ => false
    match s.ctxs.find? mine with
    | some e => (e.2.bytes, e.2.dva, if e.2.desc.isEmpty then 0 else packCoord (mvCoord e.2.desc e.2.next))
    | none => own

/-- A record completes with the details of what it has come to. -/
def State.completeStopped (s : State) (before : State) (g : Nat) (r : Rec) (status : Nat) : State :=
  let d := before.details g r status
  s.completeNow g { r with d0 := d.1, d1 := d.2.1, d2 := d.2.2 } status

/-- Steps 4 and 5 of guilty-ring reset (R368, R371), and the end of the job that the ring owns (R397). -/
def State.guiltyDone (s : State) (p r : Nat) : State :=
  let g := 16 * p + r
  if s.fget .ringState g ≠ 4 || s.ringBusy g || s.recovering p then s
  else
    let q := s.ring g
    let done := q.recs.filter fun x => x.started || (x.idx = q.causeIdx && q.cause = 1)
    match s.askCpls g done with
    | some t => t
    | none =>
    let s1 := done.foldl (fun (t : State) (x : Rec) => t.completeStopped s g x (guiltStatus q.cause q.causeIdx x.idx)) s
    let named := q.cause ≤ 4
    let s1' := s1.setRing g fun y => { y with recs := [], replay := [], cause := 0, causeIdx := 0, gtask := 0 }
    let s2 : State := { s1' with
                graphs := s1.graphs.filter fun (x : Graph) => x.ring ≠ g, videos := s1.videos.filter fun (v : VideoJob) => v.ring ≠ g }
    let s3 := (s2.fset .ringHead g q.tail).syncRing g
    let s4 := (s3.fadd .ringStateGen g 1)
    let s5 := s4.fset .ringFenceGen g (s4.fget .ringStateGen g)
    let s6 := ((((((s5.fset .ringGuilty0Gring p r).fset .ringGuilty0Gcause p q.cause).fset .ringGuilty0Ggen p
      (s5.fget .ringStateGen g)).fset .ringGuilty0Gindex p (if named then q.causeIdx else s.fget .ringHead g)).fset
      .ringGuilty1Gnode p (bitField q.gtask 0 16)).fset .ringGuilty1Gtask p (bitField q.gtask 16 24)).fset
      .ringGuilty1Gcode p (bitField q.gtask 40 4)
    let s7 := (s6.fset .ringGuilty1Gkind p (bitField q.gtask 44 1)).fset .ringGtime p q.gtime
    let s8 := s7.partEvent p 0x981 (s7.guiltBytes p)
    let s9 := if s8.fget .ringCfgIrqen g = 1 then s8.raise (p + 1) r else s8
    let s10 := (s9.fset .ringState g 3).fset .ringPstatusGuilty p (s9.fget .ringPstatusGuilty p ||| 2 ^ r)
    let s11 := { s10 with guilts := s10.guilts.filter fun x => x.1 ≠ g }
    let ends := (done.filter fun x => byteAt x.data 0 = 1 && bitAt (byteAt x.data 12) 1 && x.job < 16).map fun x => 16 * p + x.job
    ((ends.foldl State.endJob (s11.endJob g)).settleJobs p).syncVid p

/-- Guilts that units have noted are marked (R367). -/
def State.takeGuilts (s : State) : State :=
  s.guilts.foldl (fun (t : State) x => t.markGuilty x.1 x.2.1 x.2.2) { s with guilts := [] }

/-! ## Doorbells and controls -/

/-- A doorbell on an ACTIVE ring (R342). -/
def State.actDoorbell (s : State) (g v : Nat) : State :=
  let t := (s.ring g).tail
  if v = t then s
  else if (v + 2 ^ 32 - s.fget .ringHead g) % 2 ^ 32 ≤ s.ringSlots g then s.setRing g fun r => { r with tail := v }
  else s.markGuilty g 5 (s.fget .ringHead g)

/-- A write of RING_DB (R339, R342). -/
def State.doorbell (s : State) (g v : Nat) : State :=
  if (s.ring g).disabling then s.fadd .ringDbign g 1
  else match s.fget .ringState g with
  | 1 => s.actDoorbell g v
  | 2 => s.setRing g fun r => { r with heldDb := r.heldDb ++ [v] }
  | _ => s.fadd .ringDbign g 1

/-- Recorded doorbells act when a HELD ring becomes ACTIVE (R342). -/
def State.unhold (s : State) (g : Nat) : State :=
  if s.fget .ringState g ≠ 2 then s
  else
    let db := (s.ring g).heldDb
    db.foldl (fun t v => t.doorbell g v) ((s.fset .ringState g 1).setRing g fun r => { r with heldDb := [] })

/-- ENABLE and REARM restart a ring at RING_START (R345); it is HELD where a power state stops the partition (R489). -/
def State.restartRing (s : State) (g : Nat) : State :=
  let st := s.fget .ringStart g
  (((s.fset .ringHead g st).fset .ringState g (if s.inQuads (g / 16) s.quadStop then 2 else 1)).setRing g fun r =>
    { r with tail := st, recs := [], replay := [], heldDb := [] }).syncRing g

/-- ENABLE (R345, R396). -/
def State.enableRing (s : State) (g : Nat) : State :=
  if s.fget .ringState g = 0 && s.formed (g / 16) && (s.part (g / 16)).mask ≠ 0 then s.restartRing g else s

/-- Published records that have not started are discarded, and HEAD becomes P (R345). -/
def State.flushRing (s : State) (g : Nat) : State :=
  let st := s.fget .ringState g
  if st ≠ 1 && st ≠ 2 then s
  else
    let s1 := { s with waits := s.waits.filter fun w => w.req ≠ Requester.fetch g }
    ((s1.setRing g fun r => { r with recs := r.recs.filter (fun x => s.begun g x), replay := [] }).fset .ringHead g (s.ring g).tail).syncRing g

/-- DISABLE (R345). -/
def State.disableRing (s : State) (g : Nat) : State :=
  let st := s.fget .ringState g
  if st ≠ 1 && st ≠ 2 then s
  else
    let s1 := s.flushRing g
    if (s1.ring g).recs.isEmpty then s1.fset .ringState g 0 else s1.setRing g fun r => { r with disabling := true, heldDb := [] }

/-- REARM (R345). -/
def State.rearmRing (s : State) (g : Nat) : State :=
  if s.fget .ringState g = 3 then
    ((s.restartRing g).fset .ringStateErr g 0).fset .ringPstatusGuilty (g / 16)
      (s.fget .ringPstatusGuilty (g / 16) &&& (0xFFFF - 2 ^ (g % 16)))
  else s

/-! ## Records -/

/-- The bytes of a record that its type does not use are zero, and its fields lie in their ranges (R346, R347, R349). -/
def recFieldsBad (d : List Byte) : Bool :=
  let b := byteAt d
  let n := fld d
  match b 0 with
  | 1 => b 12 ≥ 4 || !zeroAt d 13 3 || n 16 6 % 128 ≠ 0 || !zeroAt d 22 2 || n 24 4 = 0 || n 24 4 > 65536 || !zeroAt d 28 36
  | 2 => !zeroAt d 12 4 || n 16 6 % 64 ≠ 0 || !zeroAt d 22 2 || n 24 6 % 64 ≠ 0 || !zeroAt d 30 2 || n 32 8 = 0 ||
      n 32 8 % 64 ≠ 0 || n 32 8 > 2 ^ 40 || !zeroAt d 40 24
  | 3 => b 12 > 1 || b 13 > 2 || b 15 ≠ 0 || (b 12 = 0 && b 14 ≠ 0) || (b 12 = 1 && n 16 6 ≠ 0) || n 16 6 % 8 ≠ 0 ||
      !zeroAt d 22 2 || !zeroAt d 32 32
  | 4 => b 12 > 2 || n 14 2 ≥ 4096 || b 16 ≥ 64 || !zeroAt d 17 7 || !zeroAt d 32 32
  | 5 => b 12 > 1 || b 13 > 1 || b 15 ≠ 0 || (b 12 = 0 && b 14 ≠ 0) || (b 12 = 1 && n 16 6 ≠ 0) || n 16 6 % 8 ≠ 0 ||
      !zeroAt d 22 2 || !zeroAt d 36 28
  | 6 => !zeroAt d 12 12 || !zeroAt d 30 34
  | 7 => b 12 > 3 || !zeroAt d 13 3 || n 16 6 % 64 ≠ 0 || !zeroAt d 22 42
  | 8 => !zeroAt d 12 4 || n 16 6 % 64 ≠ 0 || !zeroAt d 22 42
  | 0xF => !zeroAt d 12 52
  | _ => true

/-- A record is malformed (R349). -/
def recBad (d : List Byte) : Bool :=
  byteAt d 1 ≥ 16 || !zeroAt d 10 2 || fld d 4 6 % 32 ≠ 0 || (bitAt (byteAt d 1) 1 && fld d 4 6 = 0) || recFieldsBad d

/-- Records that start only after every earlier one has completed (R348). -/
def serial (d : List Byte) : Bool := bitAt (byteAt d 1) 0 || [3, 4, 6].contains (byteAt d 0)

/-- Starts, fetch and dispatch of the partition are held (R407, R464, R490). -/
def State.frozen (s : State) (p : Nat) : Bool := s.held p || s.inQuads p s.quadPrep

/-- A COPY, STREAM or VIDEO record may run now (R398, R402). A ring of a serving partition that owns no job runs them while no
job is active (DEDUCED: they are records of no resident job). -/
def State.workAllowed (s : State) (g : Nat) : Bool :=
  let p := g / 16
  if s.serving p then
    if (s.job g).isOpen then decide (s.activeJob p = some g) && !(s.job g).ending else decide (s.activeJob p = none)
  else match s.activeJob p with
    | some k => !(s.job k).ending
    | none => true

/-- The record of a ring that may start next, in index order (R343, R348). -/
def State.nextStart (s : State) (g : Nat) : Option Rec :=
  let q := s.ring g
  if s.fget .ringState g ≠ 1 || s.frozen (g / 16) then none
  else if q.recs.any fun r => byteAt r.data 0 = 5 && r.started && r.outcome.isNone then none
  else match q.recs.find? fun r => !r.started && r.outcome.isNone with
    | none => none
    | some r =>
      -- under peer mirror a record waits for the partner to have its log entry (R465)
      if (serial r.data && (q.recs.head?.map (·.idx)) ≠ some r.idx) || s.fabOpen (.mirrorLog g r.idx) then none else some r

/-- The record does nothing and completes SKIPPED (R353). -/
def State.skips (s : State) (g : Nat) (r : Rec) : Bool := bitAt (byteAt r.data 1) 3 && s.fget .ringStateErr g = 1

/-- Start the next record of ring `r` of partition `p` when it has type `ty`: SKIPPED under R353, else by `f`. -/
def State.startRec (s : State) (p r ty : Nat) (f : State → Nat → Rec → State) : State :=
  let g := 16 * p + r
  match s.nextStart g with
  | none => s
  | some x =>
    if byteAt x.data 0 ≠ ty || s.waitsFor (.record g x.idx) then s
    else if s.skips g x then s.endRec g x.idx 0x12 0 0 0
    else f s g x

/-- Mark a record started. -/
def State.started' (s : State) (g idx : Nat) : State := s.setRec g idx fun r => { r with started := true, parked := false }

/-- The record waits for a translation before its effect. -/
def State.recWait (s : State) (g idx va : Nat) (write : Bool) (k : WaitKind) : State :=
  s.enterWait ⟨.record g idx, g / 16, va, write, k⟩

/-! ## Fetch -/

/-- A ring may fetch (R343, R345). -/
def State.canFetch (s : State) (g : Nat) : Bool :=
  let q := s.ring g
  s.fget .ringState g = 1 && !q.disabling && q.recs.length < 64 && !s.waitsFor (.fetch g) && !s.frozen (g / 16) &&
  (!q.replay.isEmpty || s.fget .ringHead g ≠ q.tail) && !s.logFull (g / 16)

/-- The better of two rings at an arbitration point: effective priority, then the ring granted least recently, then its number
(R411). -/
def State.betterRing (s : State) (stampOf : Ring → Nat) (a b : Nat) : Bool :=
  if s.eprio a ≠ s.eprio b then decide (s.eprio a > s.eprio b)
  else if stampOf (s.ring a) ≠ stampOf (s.ring b) then decide (stampOf (s.ring a) < stampOf (s.ring b))
  else decide (a < b)

/-- The winner among rings. -/
def State.bestRing (s : State) (stampOf : Ring → Nat) (l : List Nat) : Option Nat :=
  l.foldl (fun b g => match b with
    | none => some g
    | some x => if s.betterRing stampOf g x then some g else some x) none

/-- The partition granted least recently, ties to the lower number (R411). -/
def leastRecent (stampOf : Nat → Nat) (l : List Nat) : Option Nat :=
  l.foldl (fun b p => match b with
    | none => some p
    | some x => if stampOf p < stampOf x then some p else some x) none

/-- A fetched record joins the records in flight: malformed under R349, SKIPPED under R353 where it may start at once. -/
def State.takeRec (s : State) (g : Nat) (x : Rec) : State :=
  let s1 := (s.setRing g fun q => { q with recs := q.recs ++ [x], fetchStamp := s.stamp }).syncRing g |>.logRecord g x.idx x.data
  let s2 := (s1.tick.setPart (g / 16) fun q => { q with fetchStamp := s.stamp }).trace 1 (g / 16) (g % 16) 0 (toBytes 4 x.idx)
  if recBad x.data then s2.markGuilty g 1 x.idx
  else if s2.skips g x && (s2.nextStart g).any (fun y => y.idx = x.idx) then s2.endRec g x.idx 0x12 0 0 0
  else s2

/-- Fetch the next record of ring g (R340, R343, R465). -/
def State.fetchRec (s : State) (g : Nat) : State :=
  let q := s.ring g
  let gen := s.fget .ringStateGen g
  match q.replay with
  | x :: rest =>
    let s1 := s.setRing g fun y => { y with replay := rest }
    s1.takeRec g { idx := x.1, gen := gen, data := x.2, replay := true, reported := q.reported.contains x.1 }
  | [] =>
    let h := s.fget .ringHead g
    let va := s.fget .ringBase g * 4096 + 64 * (h % s.ringSlots g)
    match s.vread (g / 16) va 64 with
    | (s1, .ok d) =>
      (s1.fadd .ringHead g 1).takeRec g { idx := h, gen := gen, data := d, reported := q.reported.contains h }
    | (s1, .wait a k) => s1.enterWait ⟨.fetch g, g / 16, a, false, k⟩
    | (s1, .bad _ _) => s1.markGuilty g 6 h

/-- RECORD_FETCH (R343, R411): one record of the partition granted least recently. -/
def State.recordFetch (s : State) : State :=
  let parts := (List.range 64).filter fun p => (List.range 16).any fun r => s.canFetch (16 * p + r)
  match leastRecent (fun p => (s.part p).fetchStamp) parts with
  | none => s
  | some p =>
    match s.bestRing (·.fetchStamp) (((List.range 16).map (16 * p + ·)).filter s.canFetch) with
    | none => s
    | some g => s.fetchRec g

/-- RECORD_FETCH. -/
def execRecordFetch (s : State) : Res := .next s.recordFetch

/-! ## Signals and waits -/

/-- Apply an operation of R356 to a value of `w` bits: 0 SET, 1 MAX, 2 ADD. -/
def signalOp (op w old new : Nat) : Nat := if op = 0 then new else if op = 1 then max old new else (old + new) % 2 ^ w

/-- A write to a signal slot of a partition (R356): whether its generation matched. -/
def State.slotWrite (s : State) (p slot op v : Nat) : State × Bool :=
  let i := 256 * p + slot
  if s.fget .ringSlotGen i = bitField v 56 8 then
    (s.fset .ringSlotValue i (signalOp op 56 (s.fget .ringSlotValue i) (bitField v 0 56)), true)
  else (s.fsat .ringSlotstale i 1, false)

/-- A peer's signal at this module (R355, R357): record status 0 DONE, 8 STALE, 2 FAULT. -/
def State.peerSignal (s : State) (src p slot op v : Nat) : State × Nat :=
  let i := 256 * p + slot
  if !s.formed p then (s, 2)
  else if s.fget .ringSlotaclEn i = 1 && (s.fget .ringSlotaclAny i = 1 || s.fget .ringSlotaclSrc i = src) then
    let r := s.slotWrite p slot op v
    (r.1, if r.2 then 0 else 8)
  else (s.fsat .ringSlotstale i 1, 2)

/-- SIGNAL_LOCAL (R356). -/
def State.signalLocal (s : State) (g : Nat) (r : Rec) : State :=
  let p := g / 16
  let d := r.data
  if r.reported then s.endRec g r.idx 0 0 0 0
  else if byteAt d 12 = 1 then
    let q := s.slotWrite p (byteAt d 14) (byteAt d 13) (fld d 24 8)
    q.1.endRec g r.idx (if q.2 then 0 else 8) 0 0 0
  else
    let a := fld d 16 6
    match s.vread p a 8 with
    | (s1, .wait x k) => s1.recWait g r.idx x false k
    | (s1, .bad _ _) => s1.endRec g r.idx 2 0 0 0
    | (s1, .ok b) =>
      match s1.vwrite p a (toBytes 8 (signalOp (byteAt d 13) 64 (ofBytes b) (fld d 24 8))) with
      | (s2, .wait x k) => s2.recWait g r.idx x true k
      | (s2, .bad _ _) => s2.endRec g r.idx 2 0 0 0
      | (s2, .ok _) => s2.endRec g r.idx 0 0 0 0

/-- SIGNAL_LOCAL. -/
def execSignalLocal (p : Fin 64) (r : Fin 16) (s : State) : Res := .next (s.startRec p r 3 State.signalLocal)

/-- The condition of a WAIT (R358). -/
inductive WaitRes where
  | holds | no | fault
  | wait (va : Nat) (k : WaitKind)
  deriving DecidableEq, Repr

def State.waitCond (s : State) (p : Nat) (d : List Byte) : State × WaitRes :=
  let cmp (x y : Nat) : WaitRes := if (if byteAt d 13 = 0 then decide (x ≥ y) else decide (x = y)) then .holds else .no
  if byteAt d 12 = 1 then
    let i := 256 * p + byteAt d 14
    let v := fld d 24 8
    (s, if s.fget .ringSlotGen i = bitField v 56 8 then cmp (s.fget .ringSlotValue i) (bitField v 0 56) else .no)
  else match s.vread p (fld d 16 6) 8 with
    | (s1, .ok b) => (s1, cmp (ofBytes b) (fld d 24 8))
    | (s1, .wait a k) => (s1, .wait a k)
    | (s1, .bad _ _) => (s1, .fault)

/-- A WAIT looks at its condition (R358). -/
def State.pollWait (s : State) (g : Nat) (r : Rec) : State :=
  match s.waitCond (g / 16) r.data with
  | (s1, .holds) => (s1.endRec g r.idx 0 0 0 0).fset .ringStateWaiting g 0
  | (s1, .fault) => (s1.endRec g r.idx 2 0 0 0).fset .ringStateWaiting g 0
  | (s1, .no) => (s1.started' g r.idx).fset .ringStateWaiting g 1
  | (s1, .wait a k) => ((s1.started' g r.idx).fset .ringStateWaiting g 1).recWait g r.idx a false k

/-- WAIT. -/
def execWait (p : Fin 64) (r : Fin 16) (s : State) : Res := .next (s.startRec p r 5 State.pollWait)

/-- WAIT_WAKE (R358): a slot write or a poll finds the condition. -/
def State.waitWake (s : State) (g : Nat) : State :=
  match s.waiting g with
  | none => s
  | some r =>
    if s.fget .ringState g ≠ 1 || s.waitsFor (.record g r.idx) then s
    else match s.waitCond (g / 16) r.data with
      | (_, .no) => s
      | _ => s.pollWait g r

/-- WAIT_WAKE. -/
def execWaitWake (p : Fin 64) (r : Fin 16) (s : State) : Res := .next (s.waitWake (16 * p + r))

/-- WAIT_TIMEOUT (R358): TO_US runs out first. -/
def State.waitTimeout (s : State) (g : Nat) : State :=
  match s.waiting g with
  | none => s
  | some r => if fld r.data 32 4 = 0 then s else s.markGuilty g 4 r.idx

/-- WAIT_TIMEOUT. -/
def execWaitTimeout (p : Fin 64) (r : Fin 16) (s : State) : Res := .next (s.waitTimeout (16 * p + r))

/-! ## FENCE, NOP, COPY, STREAM -/

/-- FENCE (R354): it starts once every earlier record has completed; its counter is written when it completes. -/
def execFence (p : Fin 64) (r : Fin 16) (s : State) : Res := .next (s.startRec p r 6 fun t g x => t.endRec g x.idx 0 0 0 0)

/-- NOP (R347). -/
def execNop (p : Fin 64) (r : Fin 16) (s : State) : Res := .next (s.startRec p r 0xF fun t g x => t.endRec g x.idx 0 0 0 0)

/-- Owner ring of the job that a record's chain belongs to. -/
def State.jobOf (s : State) (g : Nat) : Nat := match s.activeJob (g / 16) with | some k => k % 16 | none => 16

/-- COPY (R347): a single MOVE on the stream engine of the home quadrant. -/
def State.startCopy (s : State) (g : Nat) (r : Rec) : State :=
  if !s.workAllowed g then s
  else
    let d := r.data
    (s.started' g r.idx).startChain { engine := s.homeQuad (g / 16), part := g / 16, job := s.jobOf g,
                                        of := .record g r.idx r.gen, dva := 0,
                                        desc := copyDesc (fld d 16 6) (fld d 24 6) (fld d 32 8 / 64) }

/-- COPY. -/
def execCopy (p : Fin 64) (r : Fin 16) (s : State) : Res := .next (s.startRec p r 2 State.startCopy)

/-- STREAM (R347, R253, R261). -/
def State.startStream (s : State) (g : Nat) (r : Rec) : State :=
  if !s.workAllowed g then s
  else
    let d := r.data
    (s.started' g r.idx).startChain { engine := byteAt d 12, part := g / 16, job := s.jobOf g,
                                        of := .record g r.idx r.gen, dva := fld d 16 6 }

/-- STREAM. -/
def execStream (p : Fin 64) (r : Fin 16) (s : State) : Res := .next (s.startRec p r 7 State.startStream)

/-! ## Completion, watchdog, ageing -/

/-- RECORD_COMPLETE (R350 to R354, R370). -/
def State.recordComplete (s : State) (g idx : Nat) : State :=
  match (s.ring g).recs.find? fun r => r.idx = idx with
  | none => s
  | some r =>
    match r.outcome with
    | none => s
    | some st =>
      -- the fence counter of a HELD ring holds (R339); a GRAPH that ends a job waits for the mill (R26)
      let holds := (s.fget .ringState g = 2 && byteAt r.data 0 = 6) || (byteAt r.data 0 = 1 && bitAt (byteAt r.data 12) 1 && !s.millUp)
      if (s.fget .ringState g ≠ 1 && s.fget .ringState g ≠ 2) || holds || s.waitsFor (.completion g idx) || s.recovering (g / 16) then s
      else match s.completeRec g r st with
        | some t => t.settleJobs (g / 16)
        | none =>
          match s.vwrite (g / 16) (fld r.data 4 6) (cplBytes r st) with
          | (s1, .wait a k) => s1.enterWait ⟨.completion g idx, g / 16, a, true, k⟩
          | _ => s

/-- RECORD_COMPLETE. -/
def execRecordComplete (p : Fin 64) (r : Fin 16) (idx : BitVec 32) (s : State) : Res :=
  .next (s.recordComplete (16 * p + r) idx.toNat)

/-- The watchdog of a ring runs (R366); it pauses during a recovery, a power-state entry and a shutdown (R464, R490, R509). -/
def State.watchdogRuns (s : State) (g : Nat) : Bool :=
  let open' := (s.ring g).recs.filter fun r => s.begun g r
  s.fget .ringState g = 1 && !open'.isEmpty && !(match (s.ring g).recs with | [r] => byteAt r.data 0 == 5 | _ => false) &&
  !s.recovering (g / 16) && s.fget .pwrStateStage 0 = 0 && !s.inQuads (g / 16) (s.quadPrep ||| s.quadStop)

/-- RING_WATCHDOG_EXPIRY (R366): the oldest uncompleted record is named. -/
def State.watchdogExpiry (s : State) (g : Nat) : State :=
  if s.watchdogRuns g then
    match (s.ring g).recs.find? fun r => s.begun g r with
    | some r => s.markGuilty g 3 r.idx
    | none => s
  else s

/-- RING_WATCHDOG_EXPIRY. -/
def execRingWatchdogExpiry (p : Fin 64) (r : Fin 16) (s : State) : Res := .next (s.watchdogExpiry (16 * p + r))

/-- GUILTY_RESET_DONE. -/
def execGuiltyResetDone (p : Fin 64) (r : Fin 16) (s : State) : Res := .next (if s.millUp then s.guiltyDone p r else s)

/-- Ring r waits under R412. -/
def State.ringWaits (s : State) (g : Nat) : Bool :=
  (s.graphs.any fun x => x.ring = g && x.worst = 0 && x.nodes.any fun n => n.ready && n.next < n.ntask) ||
  (s.serving (g / 16) && (s.job g).isOpen && s.activeJob (g / 16) ≠ some g && s.candidate g)

/-- AGE_TICK (R412). -/
def State.ageTick (s : State) (g : Nat) : State :=
  if s.fget .ringSched (g / 16) ≠ 0 && s.ringWaits g then s.setRing g fun r => { r with age := min 7 (r.age + 1) } else s

/-- AGE_TICK. -/
def execAgeTick (p : Fin 64) (r : Fin 16) (s : State) : Res := .next (s.ageTick (16 * p + r))

end Sys2Proof.Machine
end

