-- ==== Sys2Proof/Machine/GraphEng.lean ====
section
/-! DEFINITION. The graph engine (R359 to R365): nodes, indirect entries, dispatch, task ends; and the serving switch (R402 to
R409). -/

namespace Sys2Proof.Machine

/-! ## Nodes -/

/-- KIND of an indirect entry, its source and offset (R361). -/
def indKind (d : List Byte) (i : Nat) : Nat := bitField (fld d (72 + 8 * i) 8) 57 3
def indSrc (d : List Byte) (i : Nat) : Nat := bitField (fld d (72 + 8 * i) 8) 0 48
def indOfs (d : List Byte) (i : Nat) : Nat := bitField (fld d (72 + 8 * i) 8) 48 9

/-- An indirect entry breaks R361. -/
def indBad (d : List Byte) (i : Nat) : Bool :=
  let k := indKind d i
  bitField (fld d (72 + 8 * i) 8) 60 4 ≠ 0 || k > 5 ||
  (1 ≤ k && k ≤ 4 && (indOfs d i % 4 ≠ 0 || indOfs d i + (if k = 2 then 8 else 4) > fld d 22 2))

/-- A node breaks the table of R360, before its successors are looked at. -/
def nodeBad (d : List Byte) : Bool :=
  let b := byteAt d
  let n := fld d
  let kind := b 0
  let counts := ([0, 1, 2, 3].filter fun i => indKind d i = 5).length
  kind = 0 || kind > 4 || b 1 > 1 || b 2 > 2 || (kind ≥ 3 && b 2 ≠ 0) || (if kind = 3 then b 3 > 3 else b 3 ≠ 0) ||
  n 4 4 > 2 ^ 24 || (kind = 3 && n 4 4 ≠ 1) || (kind = 4 && n 4 4 ≠ 0) ||
  (kind = 1 && n 8 6 % 16 ≠ 0) || (kind = 3 && n 8 6 % 64 ≠ 0) ||
  (if kind = 1 then n 14 2 = 0 || n 14 2 > 4095 else n 14 2 ≠ 0) || n 16 6 % 64 ≠ 0 ||
  (if kind = 1 then n 22 2 ≠ 384 else if kind = 2 then n 22 2 < 64 || n 22 2 > 512 || n 22 2 % 64 ≠ 0 else n 22 2 ≠ 0) ||
  n 24 4 % 64 ≠ 0 || !zeroAt d 34 2 || !zeroAt d 60 4 || !zeroAt d 70 2 || !zeroAt d 104 24 ||
  ([0, 1, 2, 3].any fun i => indBad d i) || (b 1 = 1 && counts ≠ 1)

/-- The 16-bit indices of a list. -/
def halves (d : List Byte) (n : Nat) : List Nat := (List.range n).map fun i => fld d (2 * i) 2

/-- Why the nodes of a GRAPH could not be taken. -/
inductive NodeStop where
  | wait (va : Nat) (k : WaitKind)
  | fault (node : Nat)
  | malformed (node : Nat)
  deriving DecidableEq, Repr

/-- Successors of a node: in the node, or in its list (R360). -/
def State.succsOf (s : State) (p : Nat) (d : List Byte) (i : Nat) : State × (List Nat ⊕ NodeStop) :=
  let n := fld d 32 2
  if n ≤ 12 then (s, .inl (halves (d.drop 36) n))
  else match s.vread p (fld d 64 6) (2 * n) with
    | (s1, .ok l) => (s1, .inl (halves l n))
    | (s1, .wait a k) => (s1, .inr (.wait a k))
    | (s1, .bad _ _) => (s1, .inr (.fault i))

/-- Read every node of a GRAPH with its successor list (R359). -/
def State.readNodes (s : State) (p va total : Nat) : Nat → List Node → State × (List Node ⊕ NodeStop)
  | 0, acc => (s, .inl acc.reverse)
  | left + 1, acc =>
    let i := total - (left + 1)
    match s.vread p (va + 128 * i) 128 with
    | (s1, .wait a k) => (s1, .inr (.wait a k))
    | (s1, .bad _ _) => (s1, .inr (.fault i))
    | (s1, .ok d) =>
      if nodeBad d then (s1, .inr (.malformed i))
      else match s1.succsOf p d i with
        | (s2, .inr e) => (s2, .inr e)
        | (s2, .inl l) =>
          if l.any fun x => x ≥ total then (s2, .inr (.malformed i))
          else s2.readNodes p va total left ({ data := d, succ := l, pending := fld d 30 2, ntask := fld d 4 4 } :: acc)

/-- The running GRAPH of a record. -/
def State.graphOf (s : State) (g idx : Nat) : Option Graph := s.graphs.find? fun x => x.ring = g && x.idx = idx

/-- Change the running GRAPH of a record. -/
def State.setGraph (s : State) (g idx : Nat) (f : Graph → Graph) : State :=
  { s with graphs := s.graphs.map fun x => if x.ring = g && x.idx = idx then f x else x }

/-- Change a node of a GRAPH. -/
def Graph.setNode (x : Graph) (n : Nat) (f : Node → Node) : Graph := { x with nodes := x.nodes.set n (f (x.nodes.getD n { data := [] })) }

def Graph.node (x : Graph) (n : Nat) : Node := x.nodes.getD n { data := [] }

/-- A bad outcome of a task or node (R363): 1 ABORTED, 2 FAULT, 3 MALFORMED; the earliest of the highest rank is kept. -/
def Graph.note (x : Graph) (rank d1 : Nat) : Graph := if rank > x.worst then { x with worst := rank, d1 := d1 } else x

/-- What a GRAPH's end means for its job: with JEND the job ends, whatever the status (R397), else an Idle boundary may follow (R404). -/
def State.graphJobEnd (s : State) (g : Nat) (r : Rec) : State :=
  let p := g / 16
  let k := 16 * p + r.job
  let s1 := (if bitAt (byteAt r.data 12) 1 && r.job < 16 then s.endJob k else s).settleJobs p
  if r.job < 16 && (s1.job k).isOpen && !s1.jobBusy k then s1.boundaryWork p else s1

/-- The GRAPH ends when every node has completed, or when it has failed and nothing of it runs (R359, R363). -/
def State.graphEnd (s : State) (g idx : Nat) : State :=
  match s.graphOf g idx with
  | none => s
  | some x =>
    let failed := x.worst ≠ 0 && x.running = 0
    let whole := x.worst = 0 && x.nodes.all (·.complete)
    if failed || whole then
      let st := if x.worst = 0 then 0 else if x.worst = 3 then 1 else if x.worst = 2 then 2 else 5
      let r := (s.ring g).recs.find? fun r => r.idx = idx
      let s1 := { s with graphs := s.graphs.filter fun y => !(y.ring = g && y.idx = idx) }
      let s2 := s1.endRec g idx st x.done (if x.worst = 0 then 0 else x.d1) 0
      match r with
      | none => s2
      | some r => s2.graphJobEnd g r
    else s

/-- Outcome of resolving a node's entries (R361). -/
inductive Resolve where
  | ready (count : Option Nat) (patch : List (Nat × Byte)) (slices : List (Nat × Nat × Nat))
  | wait (va : Nat) (k : WaitKind)
  | fault
  | malformed
  deriving DecidableEq, Repr

/-- Read one source of an indirect entry. -/
def State.indRead (s : State) (p va n : Nat) (f : List Byte → Resolve) : State × Resolve :=
  match s.vread p va n with
  | (s1, .ok d) => (s1, f d)
  | (s1, .wait a k) => (s1, .wait a k)
  | (s1, .bad _ _) => (s1, .fault)

/-- Resolve the entries of a node, first to last (R361). A slice entry is decided at dispatch (R275). -/
def State.resolveEntries (s : State) (p : Nat) (d : List Byte) : List Nat → Option Nat → List (Nat × Byte) → List (Nat × Nat × Nat) →
    State × Resolve
  | [], c, pt, sl => (s, .ready c pt sl)
  | i :: rest, c, pt, sl =>
    let src := indSrc d i
    let ofs := indOfs d i
    let bytes (l : List Byte) : List (Nat × Byte) := l.zipIdx.map fun b => (ofs + b.2, b.1)
    match indKind d i with
    | 0 => s.resolveEntries p d rest c pt sl
    | 1 => match s.indRead p src 4 fun l => .ready c (pt ++ bytes l) sl with
      | (s1, .ready c1 pt1 sl1) => s1.resolveEntries p d rest c1 pt1 sl1
      | r => r
    | 2 => match s.indRead p src 8 fun l => .ready c (pt ++ bytes l) sl with
      | (s1, .ready c1 pt1 sl1) => s1.resolveEntries p d rest c1 pt1 sl1
      | r => r
    | 5 =>
      if byteAt d 1 = 0 then s.resolveEntries p d rest c pt sl
      else match s.indRead p src 4 fun l => if ofBytes l > 2 ^ 24 then .malformed else .ready (some (ofBytes l)) pt sl with
      | (s1, .ready c1 pt1 sl1) => s1.resolveEntries p d rest c1 pt1 sl1
      | r => r
    | k => match s.indRead p src 64 fun _ => .ready c pt (sl ++ [(src, ofs, if k = 4 then 1 else 0)]) with
      | (s1, .ready c1 pt1 sl1) => s1.resolveEntries p d rest c1 pt1 sl1
      | r => r

/-- A malformed node fails its GRAPH and makes the ring guilty (R360). -/
def State.nodeMalformed (s : State) (g idx n : Nat) : State :=
  ((s.setGraph g idx fun x => x.note 3 n).setRec g idx fun r => { r with d1 := n }).noteGuilt g 1 idx

/-- A node becomes ready: its entries are resolved once (R361). Answers whether it completes at once (NTASK = 0). -/
def State.readyNode (s : State) (g idx n : Nat) : State × Bool :=
  match s.graphOf g idx with
  | none => (s, false)
  | some x =>
    let nd := x.node n
    if nd.resolved then (s, false)
    else match s.resolveEntries (g / 16) nd.data [0, 1, 2, 3] none [] [] with
      | (s1, .wait a k) => (s1.enterWait ⟨.node g idx n, g / 16, a, false, k⟩, false)
      | (s1, .fault) => ((s1.setGraph g idx fun x => x.note 2 n).setGraph g idx fun x => x.setNode n fun q => { q with resolved := true }, false)
      | (s1, .malformed) => (s1.nodeMalformed g idx n, false)
      | (s1, .ready c pt sl) =>
        let count := c.getD nd.ntask
        let s2 := s1.tick.setGraph g idx fun x => x.setNode n fun q =>
          { q with ready := true, resolved := true, readyAt := s1.stamp, ntask := count, patch := pt, slices := sl }
        (s2, count = 0)

/-- Nodes complete: successors are counted down and readied, and those with no task complete in turn (R359). -/
def State.nodesDone (s : State) (g idx : Nat) : Nat → List Nat → State
  | 0, _ => s
  | _, [] => s
  | fuel + 1, n :: rest =>
    match s.graphOf g idx with
    | none => s
    | some x =>
      let nd := x.node n
      if nd.complete then s.nodesDone g idx fuel rest
      else
        let x1 := x.setNode n fun q => { q with complete := true }
        let x2 := nd.succ.foldl (fun (y : Graph) m => y.setNode m fun q => { q with got := q.got + 1, pending := q.pending - 1 }) x1
        let excess := nd.succ.find? fun m => (x2.node m).got > fld (x2.node m).data 30 2
        let s1 := s.setGraph g idx fun _ => x2
        match excess with
        | some m => s1.nodeMalformed g idx m
        | none =>
          let fresh := (List.range x2.nodes.length).filter fun m =>
            nd.succ.contains m && (x2.node m).pending = 0 && !(x2.node m).resolved
          let r := if x2.worst ≠ 0 then (s1, []) else fresh.foldl (fun (acc : State × List Nat) m =>
            let q := acc.1.readyNode g idx m
            (q.1, if q.2 then acc.2 ++ [m] else acc.2)) (s1, [])
          r.1.nodesDone g idx fuel (rest ++ r.2)

/-- Ready the nodes of a list and finish those that complete at once. -/
def State.readyAll (s : State) (g idx : Nat) (l : List Nat) : State :=
  let r := l.foldl (fun (acc : State × List Nat) m =>
    let q := acc.1.readyNode g idx m
    (q.1, if q.2 then acc.2 ++ [m] else acc.2)) (s, [])
  ((r.1.nodesDone g idx 131072 r.2).graphEnd g idx).takeGuilts

/-- A resolution that waited is tried again. -/
def State.retryNode (s : State) (g idx n : Nat) : State := s.readyAll g idx [n]

/-! ## GRAPH -/

/-- Running GRAPH records and nodes of the engine of a quadrant (R365). -/
def State.engineLoad (s : State) (q : Nat) : Nat × Nat :=
  let l := s.graphs.filter fun x => s.homeQuad (x.ring / 16) = q
  (l.length, l.foldl (fun a x => a + x.nodes.length) 0)

/-- The job step of a GRAPH (R397 to R402): the state with the job that the record runs in, `none` while it waits, or the status
that ends it. -/
def State.graphJob (s : State) (g : Nat) (r : Rec) : State × (Option Nat ⊕ Nat) :=
  let p := g / 16
  let jstart := bitAt (byteAt r.data 12) 0
  -- a record that opens a job waits for the mill (R26), and for the end of a test of its skeins (R539)
  let open' (t : State) : State × (Option Nat ⊕ Nat) :=
    if !t.millUp || ((t.part p).mask &&& t.testSkeins) ≠ 0 then (t, .inl none)
    else match t.openJob g with
    | .inr st => (t, .inr st)
    | .inl t1 =>
      let t2 := t1.setRec g r.idx fun x => { x with job := g % 16 }
      (t2, .inl (if t2.activeJob p = some g then some g else none))
  if r.job < 16 then
    let k := 16 * p + r.job
    (s, .inl (if s.activeJob p = some k then some k else none))
  else if s.serving p then
    if !(s.job g).isOpen then open' s
    else if s.activeJob p ≠ some g || (s.job g).ending then (s, .inl none)
    else if jstart then
      let t := s.endJob g
      if (t.job g).isOpen then (t, .inl none) else open' t
    else (s.setRec g r.idx fun x => { x with job := g % 16 }, .inl (some g))
  else match s.activeJob p with
    | none => open' s
    | some k =>
      if (s.job k).ending then (s, .inl none)
      else if jstart then
        if k = g then
          let t := s.endJob g
          if (t.job g).isOpen then (t, .inl none) else open' t
        else (s, .inl none)
      else (s.setRec g r.idx fun x => { x with job := k % 16 }, .inl (some k))

/-- A GRAPH that has started waits at its place, and its ring's watchdog runs (R365, R366, R398). -/
def State.park (s : State) (g idx : Nat) : State := s.setRec g idx fun r => { r with parked := true }

/-- GRAPH (R359, R397, R399): its job step, then every node is read and the nodes with no predecessor become ready. -/
def State.startGraph (s : State) (g : Nat) (r : Rec) : State :=
  let p := g / 16
  let nn := fld r.data 24 4
  let load := s.engineLoad (s.homeQuad p)
  if load.1 ≥ 64 || load.2 + nn > 1048576 then s.park g r.idx
  else match s.graphJob g r with
    | (s1, .inr st) => s1.endRec g r.idx st 0 0 0
    | (s1, .inl none) =>
      -- a JSTART waits for the end of the job that is open
      let open' := (s1.activeJob p).any fun k => !s1.serving p || k = g
      if bitAt (byteAt r.data 12) 0 && open' then s1.park g r.idx else s1
    | (s1, .inl (some k)) =>
      match s1.readNodes p (fld r.data 16 6) nn nn [] with
      | (s2, .inr (.wait a k)) => s2.recWait g r.idx a false k
      | (s2, .inr (.fault n)) => ((s2.started' g r.idx).endRec g r.idx 2 0 n 0).graphJobEnd g { r with job := k % 16 }
      | (s2, .inr (.malformed n)) => (((s2.started' g r.idx).setRec g r.idx fun x => { x with d1 := n }).noteGuilt g 1 r.idx).takeGuilts
      | (s2, .inl nodes) =>
        let x : Graph := { ring := g, idx := r.idx, gen := r.gen, nodes := nodes, stamp := s2.stamp }
        let s3 := { s2.tick with graphs := s2.graphs ++ [x] }.started' g r.idx
        s3.readyAll g r.idx ((List.range nn).filter fun i => (x.node i).pending = 0)

/-- GRAPH. -/
def execGraph (p : Fin 64) (r : Fin 16) (s : State) : Res := .next (s.startRec p r 1 State.startGraph)

/-! ## Dispatch -/

/-- Where a task can go (R364). -/
inductive Target where
  | matrix (c : Nat)
  | carding (n t : Nat)
  | stream
  deriving DecidableEq, Repr

/-- Lowest free thread of a carding core (R184). -/
def State.freeThread (s : State) (n : Nat) : Option Nat := (List.range 8).find? fun t => !(s.ctask (8 * n + t)).active

/-- The target of task `i` of a node, when it is free (R364). -/
def State.target (s : State) (p : Nat) (d : List Byte) (i : Nat) : Option Target :=
  let kind := byteAt d 0
  let place := byteAt d 2
  let sb := fld d 28 2
  let sk := s.skeins p
  let free (c : Nat) : Bool := !(s.mtask c).active
  match kind with
  | 1 =>
    let cores := s.coresOf p
    let cands := if place = 0 then (skeinsOf (s.part p).mask).flatMap fun k => (List.range 8).map (8 * k + ·)
      else if place = 1 then (List.range 8).map (8 * sk.getD ((sb + i) % max 1 sk.length) 0 + ·)
      else [cores.getD ((sb + i) % max 1 cores.length) 0]
    if sk.isEmpty then none else (cands.find? free).map .matrix
  | 2 =>
    let cores := s.cardingOf p
    let cands := if place = 0 then (skeinsOf (s.part p).mask).flatMap fun k => (List.range 32).map (32 * k + ·)
      else if place = 1 then (List.range 32).map (32 * sk.getD ((sb + i) % max 1 sk.length) 0 + ·)
      else [cores.getD ((sb + i) % max 1 cores.length) 0]
    if sk.isEmpty then none
    else match cands.find? fun n => (s.freeThread n).isSome with
      | some n => (s.freeThread n).map fun t => .carding n t
      | none => none
  | 3 => some .stream
  | _ => none

/-- A parameter block with the resolved bytes in place (R361, R362). -/
def patched (d : List Byte) (l : List (Nat × Byte)) : List Byte := l.foldl (fun d x => d.set x.1 x.2) d

/-- Decisions of the slice entries of a node at dispatch (R275, R276): the bytes they give, `none` while one is held, or FAILED. -/
def State.decideSlices (s : State) (p : Nat) : List (Nat × Nat × Nat) → List (Nat × Byte) → State × (Option (List (Nat × Byte)) ⊕ Unit)
  | [], acc => (s, .inl (some acc))
  | e :: rest, acc =>
    match s.askSlice p e.1 with
    | (s1, none) => (s1, .inl none)
    | (s1, some 3) => (s1, .inr ())
    | (s1, some _) =>
      let w := s1.ssbRead p e.1 (if e.2.2 = 1 then 12 else 8) 4
      s1.decideSlices p rest (acc ++ (toBytes 4 w).zipIdx.map fun b => (e.2.1 + b.2, b.1))

/-- The task record of a dispatched task. -/
def taskOf (g idx gen n i : Nat) : Task := { active := true, ring := g, idx := idx, gen := gen, node := n, task := i }

/-- A matrix task starts on core c (R76, R77, R362). -/
def State.startMatrix (s : State) (c : Nat) (t : Task) (prog : List Byte) (d : List Byte) : State :=
  let n := prog.length / 16
  let m : MCore := {
    prog := (List.range n).map fun i => fld prog (16 * i) 16,
    ars := (List.range 64).foldl (fun a i => SMap.set 0 a i (fld d (32 + 2 * i) 2)) [],
    mas := (List.range 8).foldl (fun a i => SMap.set 0 a i (fld d (160 + 8 * i) 6)) [],
    mss := (List.range 32).foldl (fun a i => SMap.set 0 a i (fld d (224 + 4 * i) 4)) [],
    halo := fld d 376 8 }
  let s1 := (s.setMcore c fun _ => m).setMtask c fun _ => t
  let s2 := ((((s1.fset .mcrStatusBusy c 1).fset .mcrFaultCode c 0).fset .mcrFaultPc c 0).fset .mcrPc c 0).fset .mcrFlags c 0
  let s3 := (List.range 16).foldl (fun u i => u.fset .mcrAr (16 * c + i) (fld d (2 * i) 2)) s2
  let s4 := (List.range 4).foldl (fun u i => (u.fset .mcrLen (4 * c + i) (fld d (352 + 4 * i) 4)).fset .mcrLc (4 * c + i) 0) s3
  let s5 := (s4.fset .mcrStep c (fld d 368 4)).syncUnits c
  if n > 2048 then s5.stopMatrix c 6 0 else s5

/-- A carding task starts on a thread (R184, R362): its block is written into the local window. -/
def State.startCarding (s : State) (n t : Nat) (k : Task) (entry : Nat) (d : List Byte) : State :=
  let th := 8 * n + t
  let va := 0xFFFFFFFFF000 + 512 * t
  let regs : SMap Nat := [(10, va), (11, k.task), (12, n), (13, t)].foldl (fun m e => SMap.set 0 m e.1 e.2) []
  let own (h : Thread) : Thread := { x := regs, xceps := h.xceps, instret := h.instret, vcsr := h.vcsr, vstart := h.vstart }
  let s1 := ((s.setThread th own).setCtask th fun _ => k).st (localMem n + 0x3F000 + 512 * t) d
  let s2 := (s1.fset .crdPc th entry).fset .crdStatusTbusy n (s1.fget .crdStatusTbusy n ||| 2 ^ t)
  if s2.fget .crdFaultThread n = t then (((s2.fset .crdFaultCode n 0).fset .crdFaultThread n 0).fset .crdFaultPc n 0).fset .crdFaultVa n 0
  else s2

/-- What a dispatch came to. -/
inductive DispRes where
  | done
  | held
  deriving DecidableEq, Repr

/-- A read at dispatch failed: the task ends before it starts, MEMFAULT (R362). -/
def State.dispatchFault (s : State) (tg : Target) (t : Task) (va : Nat) : State :=
  match tg with
  | .matrix c =>
    ((s.setMcore c fun _ => {}).setMtask c fun _ => { t with outcome := some 2, code := 7 }).fset .mcrFaultCode c 7 |>.fset .mcrFaultPc c 0
  | .carding n th =>
    -- the start of the task clears what this thread had recorded; what another has is kept (R205, R206)
    let s1 := s.setCtask (8 * n + th) fun _ => { t with outcome := some 2, code := 3 }
    if s.fget .crdFaultCode n = 0 || s.fget .crdFaultThread n = th then
      (((s1.fset .crdFaultCode n 3).fset .crdFaultThread n th).fset .crdFaultVa n (va % 2 ^ 48)).fset .crdFaultPc n 0
    else s1
  | .stream => s

/-- Start one task on its target (R362): its program and its block are read, and the task's effect begins. -/
def State.launch (s : State) (p g : Nat) (x : Graph) (n i : Nat) (nd : Node) (tg : Target) (patch : List (Nat × Byte)) : State × DispRes :=
  let t := taskOf g x.idx x.gen n i
  let d := nd.data
  let wait (s1 : State) (a : Nat) (k : WaitKind) : State × DispRes := (s1.enterWait ⟨.node g x.idx n, p, a, false, k⟩, .held)
  match tg with
  | .stream => (s.startChain { engine := byteAt d 3, part := p, job := s.jobOf g, of := .node g x.idx x.gen n, dva := fld d 8 6 }, .done)
  | _ =>
    match s.vread p (fld d 16 6 + i * fld d 24 4) (fld d 22 2) with
    | (s1, .wait a k) => wait s1 a k
    | (s1, .bad a _) => (s1.dispatchFault tg t a, .done)
    | (s1, .ok blk) =>
      match tg with
      | .carding c th => (s1.startCarding c th t (fld d 8 6) (patched blk patch), .done)
      | .matrix c =>
        match s1.vread p (fld d 8 6) (16 * fld d 14 2) with
        | (s2, .wait a k) => wait s2 a k
        | (s2, .bad a _) => (s2.dispatchFault tg t a, .done)
        | (s2, .ok prog) => (s2.startMatrix c t prog (patched blk patch), .done)
      | .stream => (s1, .done)

/-- Whether the node could dispatch its next task now. -/
def State.nodeGo (s : State) (p : Nat) (g : Nat) (x : Graph) (n : Nat) : Bool :=
  let nd := x.node n
  nd.ready && nd.next < nd.ntask && (s.target p nd.data nd.next).isSome && !s.waitsFor (.node g x.idx n) &&
  !(nd.slices.any fun e => s.slices.any fun q => q.part = p && q.ssb = e.1)

/-- Ready nodes of a ring that can dispatch, in the order of R364: by readiness, then node index. -/
def State.goNodes (s : State) (p g : Nat) : List (Graph × Nat) :=
  let l := (s.graphs.filter fun x => x.ring = g && x.worst = 0).flatMap fun x =>
    ((List.range x.nodes.length).filter fun n => s.nodeGo p g x n).map fun n => (x, n)
  l.foldl (fun acc e => acc.takeWhile (fun y => (y.1.node y.2).readyAt ≤ (e.1.node e.2).readyAt) ++ [e] ++
    acc.dropWhile (fun y => (y.1.node y.2).readyAt ≤ (e.1.node e.2).readyAt)) []

/-- Tasks of a ring may be dispatched: the ring is ACTIVE, nothing holds the partition, and in a serving partition its job is the
active one (R402, R407). -/
def State.mayDispatch (s : State) (p g : Nat) : Bool :=
  s.fget .ringState g = 1 && !s.frozen p && (!s.serving p || s.activeJob p = some g)

/-- Dispatch one task of a node (R364, R275, R412). -/
def State.dispatchNode (s : State) (p g : Nat) (x : Graph) (n : Nat) : State :=
  let nd := x.node n
  match s.decideSlices p nd.slices [] with
  | (s1, .inl none) => s1
  | (s1, .inr ()) =>
    -- a FAILED decision: the task does not run and its outcome is FAULT (R277)
    (s1.setGraph g x.idx fun y => (y.note 2 (n + nd.next * 2 ^ 16)).setNode n fun q => { q with next := q.next + 1 }).graphEnd g x.idx
  | (s1, .inl (some extra)) =>
    let s1 := s1.setGraph g x.idx fun y => y.setNode n fun q => { q with slices := [], patch := q.patch ++ extra }
    match s1.target p nd.data nd.next with
    | none => s1
    | some tg =>
      match s1.launch p g x n nd.next nd tg (nd.patch ++ extra) with
      | (s2, .held) => s2
      | (s2, .done) =>
        let s3 := s2.tick.setGraph g x.idx fun y =>
          { y.setNode n fun q => { q with next := q.next + 1 } with running := y.running + 1 }
        let s4 := (s3.setRing g fun q => { q with age := 0, dispStamp := s2.stamp }).setPart p fun q => { q with dispStamp := s2.stamp }
        s4.trace 2 p (g % 16) 0 (toBytes 4 n ++ toBytes 4 nd.next)

/-- TASK_DISPATCH (R364, R411): the engine of quadrant q grants one task. -/
def State.taskDispatch (s : State) (q : Nat) : State :=
  let rings (p : Nat) : List Nat := ((List.range 16).map (16 * p + ·)).filter fun g => s.mayDispatch p g && !(s.goNodes p g).isEmpty
  let parts := (List.range 64).filter fun p => s.formed p && s.homeQuad p = q && !(rings p).isEmpty
  match leastRecent (fun p => (s.part p).dispStamp) parts with
  | none => s
  | some p =>
    match s.bestRing (·.dispStamp) (rings p) with
    | none => s
    | some g =>
      match s.goNodes p g with
      | [] => s
      | e :: _ => s.dispatchNode p g e.1 e.2

/-- TASK_DISPATCH. -/
def execTaskDispatch (q : Fin 4) (s : State) : Res := .next (s.taskDispatch q)

/-! ## Task ends -/

/-- Status of a chain as a task outcome (R266, R363): the ranking of R363 has three bad outcomes; a stopped chain that is neither
MALFORMED nor ABORTED counts as FAULT (DEDUCED). -/
def chainOutcome (st : Nat) : Nat := if st = 0 || st = 7 then 0 else if st = 1 then 3 else if st = 5 then 1 else 2

/-- A task has ended (R363): rank 0 DONE, 1 ABORTED, 2 FAULT, 3 MALFORMED; `kind` 0 matrix, 1 carding, with its fault code. -/
def State.taskEnded (s : State) (t : Task) (rank kind : Nat) : State :=
  let g := t.ring
  if s.fget .ringStateGen g ≠ t.gen then (s.fadd .ringStale g 1).fadd .ringPstale (g / 16) 1
  else match s.graphOf g t.idx with
    | none => s
    | some _ =>
      let d1 := t.node + t.task * 2 ^ 16 + t.code * 2 ^ 40 + kind * 2 ^ 44
      let s1 := (s.setGraph g t.idx fun x =>
        let y := { x with running := x.running - 1, done := if rank = 0 then x.done + 1 else x.done }
        (if rank = 0 then y else y.note rank d1).setNode t.node fun q => { q with ended := q.ended + 1 }).trace 3 (g / 16) (g % 16) 0
          (toBytes 4 t.node ++ toBytes 4 t.task)
      if rank = 3 then
        (((s1.setRec g t.idx fun r => { r with d1 := d1 }).setRing g fun q => { q with gtask := d1 }).markGuilty g 2 t.idx).graphEnd g t.idx
      else
        let whole := match s1.graphOf g t.idx with
          | some x => decide ((x.node t.node).ended ≥ (x.node t.node).ntask)
          | none => false
        let s2 := if whole then s1.nodesDone g t.idx 131072 [t.node] else s1
        (s2.graphEnd g t.idx).takeGuilts

/-- TASK_COMPLETE (R363): of a matrix core, of a carding thread, of the chain of a STREAM node. -/
def State.taskComplete (s : State) (r : TaskRef) : State :=
  match r with
  | .matrix c =>
    let t := s.mtask c
    match t.active, t.outcome with
    | true, some o => (s.setMtask c fun _ => {}).taskEnded t o 0
    | _, _ => s
  | .carding id =>
    let th := 8 * id.core.val + id.thread.val
    let t := s.ctask th
    match t.active, t.outcome with
    | true, some o => (s.setCtask th fun _ => {}).taskEnded t o 1
    | _, _ => s
  | .streamNode e c =>
    let x := 136 * e.val + c.val
    let q := s.ctx x
    match q.busy, q.ended, q.of with
    | true, some st, .node g idx gen n =>
      let s1 := ((s.setCtx x fun _ => {}).syncCtx e q.part).pumpChains e 64
      s1.taskEnded { active := true, ring := g, idx := idx, gen := gen, node := n, task := 0, code := 0 } (chainOutcome st) 0
    | _, _, _ => s

/-- TASK_COMPLETE. -/
def execTaskComplete (t : TaskRef) (s : State) : Res := .next (s.taskComplete t)

/-! ## The serving switch -/

/-- Chains of a partition's active job that write T0 (R407): their destination translates to a T0 window. -/
def State.t0Chains (s : State) (p : Nat) : Bool :=
  s.ctxs.any fun c => c.2.busy && c.2.ended.isNone && c.2.part = p && byteAt c.2.desc 0 = 1 &&
    match s.translate p (mvDst c.2.desc 0).toNat true with
    | .dpa a => decide (a ≥ coreMemBase)
    | _ => false

/-- A batch-step boundary of the active job (R404): a released STEP barrier, or nothing of the job running; no active job counts
as End. -/
def State.atBoundary (s : State) (p : Nat) : Option Bool :=
  match s.activeJob p with
  | none => some true
  | some k =>
    if s.boundaries.any fun b => b.1 = p then some false
    else if !s.jobBusy k then some true
    else none

/-- SERVING_SWITCH (R406, R407): at a boundary the scheduler decides; a switch saves the live state of the outgoing job. Where it
does not switch, the TDFs that wait at the boundary are released. -/
def State.servingSwitch (s : State) (p : Nat) : State :=
  if !s.serving p || s.frozen p then s
  else match s.atBoundary p with
    | none => s
    | some free =>
      match s.switchTo p free with
      | none =>
        let mine := s.boundaries.filter fun b => b.1 = p
        mine.foldl (fun t b => t.releaseTdf p b.2) { s with boundaries := s.boundaries.filter fun b => b.1 ≠ p }
      | some k =>
        if s.t0Chains p then s
        else
          let s1 := match s.activeJob p with
            | none => s
            | some c =>
              let j := s.job c
              let n := s.liveSize p c
              let snap := s.capture p j.liveAll n []
              { s.setJob c (fun j => { j with saved := true, held := (s.boundaries.filter fun (b : Nat × Nat) => b.1 = p).map Prod.snd }) with
                saves := SMap.set {} s.saves c snap, boundaries := s.boundaries.filter fun (b : Nat × Nat) => b.1 ≠ p }
          { s1.fset .ringActiveSwitching p 1 with switching := s1.switching ++ [(p, k, s1.time)] }

/-- SERVING_SWITCH. -/
def execServingSwitch (p : Fin 64) (s : State) : Res := .next (s.servingSwitch p)

/-- Reload the instruction buffers of waiting tasks from their nodes' programs (R405, R407 step 4). -/
def State.reloadPrograms (s : State) (p : Nat) : State :=
  (s.coresOf p).foldl (fun t c =>
    let k := t.mtask c
    match (t.mcore c).wait, t.graphOf k.ring k.idx with
    | .tdf _, some x =>
      let d := (x.node k.node).data
      match t.vread p (fld d 8 6) (16 * fld d 14 2) with
      | (t1, .ok prog) => t1.setMcore c fun m => { m with prog := (List.range (prog.length / 16)).map fun i => fld prog (16 * i) 16 }
      | _ => t
    | _, _ => t) s

/-- SWITCH_COMPLETE (R407 steps 4 and 5): the incoming live state is restored, the job becomes active and its waiting TDFs are
released. -/
def State.switchComplete (s : State) (p : Nat) : State :=
  match s.switching.find? fun x => x.1 = p with
  | none => s
  | some x =>
    let k := x.2.1
    let j := s.job k
    let snap := SMap.get {} s.saves k
    let out := match s.activeJob p with | some c => (SMap.get {} s.saves c).bytes | none => 0
    let s0 := { s with switching := s.switching.filter fun y => y.1 ≠ p }
    let s1 := if snap.full then s0.restore p j.liveAll snap
      else (if snap.mem.isEmpty then s0 else s0.giveMem p ⟨0, 0, 0x2000000⟩ snap.mem).restore p ⟨0, 0, 0⟩ snap
    let s1' : State := { s1 with saves := SMap.set ({} : Snapshot) s1.saves k {} }
    let s2 := (s1'.reloadPrograms p).activate k
    let s3 := j.held.foldl (fun t b => t.releaseTdf p b) (s2.setJob k fun j => { j with held := [], saved := false })
    let ns := 40 * (s3.time - x.2.2)
    let s4 := ((s3.fset .ringActiveSwitching p 0).fadd .ringSwitches p 1).fadd .ringSwNs p ns
    (s4.fset .ringSwmaxNs p (max (s4.fget .ringSwmaxNs p) ns)).fadd .ringSwBytes p (out + snap.bytes)

/-- SWITCH_COMPLETE. -/
def execSwitchComplete (p : Fin 64) (s : State) : Res := .next (s.switchComplete p)

end Sys2Proof.Machine
end

