-- ==== Sys2Proof/Machine/Operands.lean ====
section
/-! DEFINITION. The operand forms of register accesses: which register an access reaches and by whose right (R9, R99, R206,
R224 to R226, R549, R550), what a register reads as, and what a write does to its fields (R10 to R12). -/

namespace Sys2Proof.Machine

/-- What an access reaches. -/
inductive Loc where
  /-- A register block, its instance and the offset in it. -/
  | reg (b : Blk) (inst off : Nat)
  /-- A message slot byte range of a mailbox (R373). -/
  | slot (m off : Nat)
  /-- The MSI-X table or pending-bit array of a function (R552). -/
  | msixTable (func off : Nat)
  | msixPend (func off : Nat)
  /-- Memory of a DPA. -/
  | mem (dpa : Nat)
  /-- Refused or unbacked (R226). -/
  | refused
  /-- Refused by a power state, and counted in PWR_BLOCKED (R489). -/
  | blocked
  /-- The debug window (R528). -/
  | debug (off : Nat)
  /-- The function is in D3hot: Unsupported Request (R546). -/
  | asleep
  /-- In no listed block (R551). -/
  | unmapped
  deriving DecidableEq, Repr

/-- The map of R550: VF BAR0 of partition p. -/
def vfLoc (p off : Nat) : Loc :=
  match off / 0x10000 with
  | 0 | 1 | 3 | 4 | 5 | 6 => .reg .ring p off
  | 2 => if off % 0x10000 < 0x1000 then .reg .mbx p (off % 0x10000) else .slot p (off % 0x10000)
  | 0xE => .msixTable (p + 1) (off % 0x10000)
  | 0xF => .msixPend (p + 1) (off % 0x10000)
  | _ => .unmapped

/-- The map of R549: PF BAR0. -/
def pfLoc (off : Nat) : Loc :=
  if off < 0x100000 then
    match off / 0x10000 with
    | 0 => .reg .glb 0 off
    | 1 => .reg .pwr 0 (off % 0x10000)
    | 2 => .reg .sec 0 (off % 0x10000)
    | 3 => .reg .bist 0 (off % 0x10000)
    | 4 => if off % 0x10000 < 0x1000 then .reg .mbx 64 (off % 0x10000) else .slot 64 (off % 0x10000)
    | 5 => .reg .pci 0 (off % 0x10000)
    | 6 => .reg .flk 0 (off % 0x10000)
    | 7 => if off % 0x10000 < 0x8000 then .msixTable 0 (off % 0x8000) else .msixPend 0 (off % 0x8000)
    | 8 => .reg .tier 0 (off % 0x10000)
    | 0xA => .reg .strm 0 (off % 0x10000)
    | 0xC => .reg .ftl 0 (off % 0x10000)
    | 0xE => .reg .vid 0 (off % 0x10000)
    | _ => .unmapped
  else if off < 0x110000 then .reg .ring ((off - 0x100000) / 0x400) ((off - 0x100000) % 0x400)
  else if off < 0x1000000 then .unmapped
  else if off < 0x5000000 then vfLoc ((off - 0x1000000) / 0x100000) (off % 0x100000)
  else if off < 0x8000000 then .unmapped
  else if off < 0x10000000 then .debug (off - 0x8000000)
  else .unmapped

/-- A carding core of partition p reaches a register block (R99, R206, R224, R284, R452). -/
def State.cardReaches (s : State) (p : Nat) (b : Blk) (inst off : Nat) : Bool :=
  match b with
  | .mcr => s.owner (inst / 8) == some p
  | .crd => s.owner (inst / 32) == some p
  | .skn => s.owner inst == some p
  | .strm => 0x1000 + 0x80 * p ≤ off && off < 0x1080 + 0x80 * p
  | .flk => 0x2000 + 0x40 * p ≤ off && off < 0x2040 + 0x40 * p
  | _ => false

/-- What lies at a DPA for an agent inside the module. -/
def State.dpaLoc (s : State) (ag : Agent) (dpa : Nat) : Loc :=
  match s.region dpa with
  | .regs b inst off =>
    match ag with
    | .mill => .reg b inst off
    | .part p => if s.cardReaches p b inst off then .reg b inst off else .refused
    | .host => .refused
  | .unbacked => .refused
  | _ => if s.reaches ag dpa then .mem dpa else .refused

/-- VF p is present (R547): NumVFs and VF Enable stand in configuration space. -/
def State.vfPresent (s : State) (p : Nat) : Bool := s.vfEnable && decide (p < s.numVfs)

/-! ## Registers of a block -/

/-- A register found at an offset: its row, its two indices, and whether the offset names its high half. -/
structure RegHit where
  row : RegRow
  i : Nat
  j : Nat
  hi : Bool
  deriving DecidableEq, Repr

/-- The hit of an offset in one row. -/
def RegRow.hit (r : RegRow) (off : Nat) : Option RegHit :=
  if off < r.off then none
  else
    let d := off - r.off
    let i := if r.s1 = 0 then 0 else d / r.s1
    let d1 := if r.s1 = 0 then d else d % r.s1
    let j := if r.s2 = 0 then 0 else d1 / r.s2
    let d2 := if r.s2 = 0 then d1 else d1 % r.s2
    if i < r.n1 && j < r.n2 && (d2 = 0 || (d2 = 4 && r.wide)) then some ⟨r, i, j, d2 = 4⟩ else none

/-- The register at an offset of a block. -/
def regAt (b : Blk) (off : Nat) : Option RegHit := b.rows.findSome? fun r => r.hit off

/-! ## Power states -/

/-- Quadrant whose units hold a register block of the cores. -/
def blkQuad (b : Blk) (inst : Nat) : Option Nat :=
  match b with
  | .mcr => some (inst / 128)
  | .crd => some (inst / 512)
  | .skn => some (inst / 16)
  | _ => none

/-- What BAR0 still reaches in P4 (R489): GLB, PWR, request slots, and the doorbells of mailboxes and rings. -/
def deepReaches (l : Loc) : Bool :=
  match l with
  | .reg .glb _ _ | .reg .pwr _ _ => true
  | .slot _ off => 0x1000 ≤ off && off < 0x2000
  | .reg b _ off => (regAt b off).any fun h => h.row.fields.any fun f => f.fld = .ringDb || f.fld = .mbxReqdb
  | _ => false

/-- What a power state leaves reachable (R489). -/
def State.powered (s : State) (host : Bool) (l : Loc) : Loc :=
  match l with
  | .reg b inst off =>
    if (blkQuad b inst).any fun q => !s.quadRuns q then .blocked
    else if host && s.fget .pwrState 0 = 4 && !deepReaches l then .blocked else .reg b inst off
  | .unmapped | .refused | .asleep => l
  | _ => if host && s.fget .pwrState 0 = 4 && !deepReaches l then .blocked else l

/-- What an access reaches. -/
def State.locate (s : State) : Access → Loc
  | .pf off => if s.d3hot.contains 0 then .asleep else s.powered true (pfLoc off)
  | .vf p off => if s.d3hot.contains (p.val + 1) then .asleep else s.powered true (if s.vfPresent p && off < 0x100000 then vfLoc p off else .unmapped)
  | .carding p dpa => s.powered false (s.dpaLoc (.part p) dpa)
  | .mill dpa => s.powered false (s.dpaLoc .mill dpa)

/-! ## Fields of a register -/

/-- Instance number of a field of a register. -/
def RegHit.index (h : RegHit) (inst : Nat) (f : FieldAt) : Nat :=
  ((inst * h.row.n1 + h.i) * h.row.n2 + h.j) * h.row.subs + f.sub

/-- What a field shows. Fields that are functions of others are computed here and nowhere stored: the ORs of R371, READY of R373, the effective
priorities of R410 and R415, the polynomial constants, the errors that T1 channels have corrected (physical, free values), and the fields loaded from fuses. -/
def State.fshow (s : State) (f : Fld) (i : Nat) : Nat :=
  let b (x : Bool) : Nat := if x then 1 else 0
  match f with
  | .ringPstatusSnflush => b ((s.coresOf i).any (fun c => s.fget .mcrStatusSnflush c = 1) ||
      (s.cardingOf i).any fun n => s.fget .crdStatusSnflush n = 1)
  | .ringPstatusIsat => b ((s.coresOf i).any fun c => s.fget .mcrStatusIsat c = 1)
  | .ringPstatusStovf => b ((s.cardingOf i).any fun n => s.fget .crdStatusStovf n = 1)
  | .ringEprioE => s.eprio i
  | .mbxStatusReady => b (bitAt (s.fget .glbReadyStatus 0) 1 && s.fget .mbxStatusRestarting i = 0)
  | .ringEprioW => b (s.ringWaits i)
  | .sknWhorlPolyLo => lanePoly (i % 64) % 2 ^ 64
  | .sknWhorlPolyHi => lanePoly (i % 64) / 2 ^ 64
  | .tierChCe => if s.t1Reads = 0 then 0 else min 0xFFFF (Config.channelCorrected i s.t1Reads)
  | .mcrIdRev | .crdIdRev | .glbIdRev => Config.fuseRev.toNat
  | _ => s.fget f i

/-- The value of a register (R10, R12): write-only fields and reserved bits read as zero. -/
def State.regVal (s : State) (inst : Nat) (h : RegHit) : Nat :=
  h.row.fields.foldl (fun v f => if f.acc = .wo then v else v + s.fshow f.fld (h.index inst f) * 2 ^ f.lo) 0

/-- Read 4 or 8 bytes of a block; a register that is not listed reads as zero. The read-only copies of R371 read as their
originals. -/
def State.regRead (s : State) (b : Blk) (inst off : Nat) (wide : Bool) : Nat :=
  let go (b : Blk) (inst off : Nat) : Nat :=
    match regAt b off with
    | none => 0
    | some h =>
      let v := s.regVal inst h
      if h.hi then v / 2 ^ 32 else if wide then v else v % 2 ^ 32
  let one (off : Nat) : Nat :=
    if b = .ring && 0x30100 ≤ off && off < 0x30140 then go .tier 0 (0x1000 + 0x40 * inst + (off - 0x30100))
    else if b = .ring && 0x30200 ≤ off && off < 0x30280 then go .strm 0 (0x1000 + 0x80 * inst + (off - 0x30200))
    else if b = .ring && 0x30300 ≤ off && off < 0x30340 then go .vid 0 (0x1000 + 0x40 * inst + (off - 0x30300))
    else go b inst off
  -- a 64-bit access to two 32-bit registers reads both
  if wide && (match regAt b off with | some h => !h.row.wide | none => true) then one off % 2 ^ 32 + one (off + 4) % 2 ^ 32 * 2 ^ 32
  else one off

/-! ## Writes -/

/-- The value a field takes for a written one (R10); `none` where its description says that the write is ignored. -/
def State.taken (s : State) (f : Fld) (i v : Nat) : Option Nat :=
  match f with
  | .ringBase => if s.fget .ringState i = 0 then some v else none
  | .ringCfgLog2n => if s.fget .ringState i = 0 then some (if 4 ≤ v && v ≤ 16 then v else 4) else none
  | .ringWdog => some (max 1000 v)
  | .ringLiveCm => if (s.job i).isOpen then none else some (min 1024 v)
  | .ringLiveLm => if (s.job i).isOpen then none else some (min 64 v)
  | .ringLiveSm => if (s.job i).isOpen then none else some (min 8192 v)
  | .ftlBglimit | .flkRoutingHopmax | .flkE2eTo | .flkCreditToDeadMs | .flkCollTo => some (max 1 v)
  | .pwrMclkMax | .pwrBrakeMclk => some (min 1800 (max 600 (v / 25 * 25)))
  | .secDbgTrace => if s.fget .secDbgApplied 0 = 0 then none else some v
  | .secAper => some (v / 2 ^ 26 % 2 ^ 26 * 2 ^ 26)
  | .vidCoreEn => none
  | _ => some v

/-- Write one field of a register: `mask` has the register bits that the access carries, `v` the register's new bits, `sets` the bits that
hardware sets at the same moment. Hardware wins at a W1C bit; a written RW field takes the written value (R11). -/
def State.writeField (s : State) (i : Nat) (f : FieldAt) (mask v : Nat) (sets : Nat := 0) : State :=
  let w := f.fld.width
  let m := bitField mask f.lo w
  let x := bitField v f.lo w
  if m = 0 then s
  else match f.acc with
  | .ro | .wo | .rwl => s
  | .w1c => s.fset f.fld i ((s.fget f.fld i - (s.fget f.fld i &&& x &&& m)) ||| bitField sets f.lo w)
  | .rw =>
    let old := s.fget f.fld i
    match s.taken f.fld i ((old - (old &&& m)) + (x &&& m)) with
    | none => s
    | some y => s.fset f.fld i y

/-- Write the fields of one register (R10 to R12): `v` and `mask` in the register's own bits. -/
def State.writeReg (s : State) (inst : Nat) (h : RegHit) (mask v : Nat) (sets : Nat := 0) : State :=
  let t := h.row.fields.foldl (fun t f => t.writeField (h.index inst f) f mask v sets) s
  -- the barrier registers follow BARSEL (R284)
  if h.row.fields.any fun f => f.fld = .strmPBarsel then t.showBarrier h.i else t

/-- Write 4 or 8 bytes of a block; `sets` as in `State.writeField`. -/
def State.regWrite (s : State) (b : Blk) (inst off : Nat) (wide : Bool) (v : Nat) (sets : Nat := 0) : State :=
  match regAt b off with
  | none => s
  | some h =>
    if h.hi then s.writeReg inst h ((2 ^ 32 - 1) * 2 ^ 32) (v % 2 ^ 32 * 2 ^ 32) (sets % 2 ^ 32 * 2 ^ 32)
    else if h.row.wide then s.writeReg inst h (if wide then 2 ^ 64 - 1 else 2 ^ 32 - 1) v sets
    else
      let t := s.writeReg inst h (2 ^ 32 - 1) (v % 2 ^ 32) (sets % 2 ^ 32)
      -- a 64-bit access to two 32-bit registers writes both
      if wide then match regAt b (off + 4) with
        | some h2 => if h2.row.wide then t else t.writeReg inst h2 (2 ^ 32 - 1) (v / 2 ^ 32) (sets / 2 ^ 32)
        | none => t
      else t

/-- A row of the opcode table other than REGISTER_WRITE describes a write that triggers something: the access is at the register
that holds this write-only field. -/
def locHits (l : Loc) (f : Fld) : Option (Nat × RegHit) :=
  match l with
  | .reg b inst off =>
    match regAt b off with
    | some h => if h.row.fields.any (fun x => x.fld = f) && !h.hi then some (inst, h) else none
    | none => none
  | _ => none

/-- Instance of the field that an access triggers. -/
def State.trigger (s : State) (a : Access) (f : Fld) : Option Nat :=
  match locHits (s.locate a) f with
  | some (inst, h) => (h.row.fields.find? fun x => x.fld = f).map fun x => h.index inst x
  | none => none

/-- MSI-X table words (R552): address, data and the mask bit of vector control; clearing the mask of a pending vector is
MSIX_UNMASK's. -/
def State.msixWrite (s : State) (func off v : Nat) : State :=
  let vec := off / 16
  let word := off % 16 / 4
  if vec ≥ (if func = 0 then 3 else 18) then s
  else if word = 3 then
    if bitAt v 0 then { s with msixMask := SMap.set true s.msixMask (func * 32 + vec) true }
    else if SMap.get false s.msixPend (func * 32 + vec) then s
    else { s with msixMask := SMap.set true s.msixMask (func * 32 + vec) false }
  else { s with msixTable := SMap.set 0 s.msixTable (func * 128 + 4 * vec + word) (v % 2 ^ 32) }

/-- Store in the request slots of a mailbox (R373); response and event slots ignore writes. -/
def State.slotStore (s : State) (m off : Nat) (wide : Bool) (v : Nat) : State :=
  if 0x1000 ≤ off && off < 0x2000 then
    { s with slots := cellsSet s.slots (0x4000 * m + off) (toBytes (if wide then 8 else 4) v) }
  else s

/-- Byte offset or address of an access, and whether the host makes it. -/
def accessAt : Access → Nat
  | .pf off => off
  | .vf _ off => off
  | .carding _ dpa => dpa
  | .mill dpa => dpa
def accessByHost : Access → Bool
  | .pf _ => true
  | .vf .. => true
  | .carding .. => false
  | .mill _ => false

/-- REGISTER_WRITE (R10 to R12); a write that is not naturally aligned is discarded, and one of the host is counted (R9). -/
def State.registerWrite (s : State) (a : Access) (wide : Bool) (v : Nat) (sets : Nat := 0) : State :=
  if accessAt a % (if wide then 8 else 4) ≠ 0 && s.locate a ≠ .asleep then
    (if accessByHost a then s.pciError .pciBadsize else s)
  else match s.locate a with
  | .reg b inst off => s.regWrite b inst off wide v sets
  | .slot m off => s.slotStore m off wide v
  | .msixTable f off =>
    let t := s.msixWrite f off (v % 2 ^ 32)
    if wide then t.msixWrite f (off + 4) (v / 2 ^ 32) else t
  | .blocked => s.fadd .pwrBlocked 0 1
  | _ => s

/-- REGISTER_WRITE. -/
def execRegisterWrite (a : Access) (wide : Bool) (w : Written) (s : State) : Res :=
  .next (s.registerWrite a wide w.value.toNat w.sets.toNat)

/-- The function is in D3hot. -/
def State.asleep (s : State) (f : Func) : Bool :=
  s.d3hot.contains (match f with
    | .pf0 => 0
    | .vf p => p.val + 1)

/-- A memory request to a function in D3hot ends with Unsupported Request (R546). -/
def State.unsupported (s : State) (write : Bool) : State := if write then s else s.emit (.readStatus 0)

/-- BAD_SIZE_ACCESS (R9): a read returns all ones, a write is discarded, and either is counted. -/
def execBadSizeAccess (f : Func) (off size : Nat) (write : Bool) (s : State) : Res :=
  .next (if s.asleep f then s.unsupported write
    else if (size = 4 || size = 8) && off % size = 0 then s
    else
      let t := s.pciError .pciBadsize
      if write then t else t.emit (.readData size (2 ^ (8 * size) - 1)))

/-- BAR_UNMAPPED_ACCESS (R551): reads zero, a write is ignored, and either is counted. -/
def execBarUnmappedAccess (f : Func) (off : Nat) (wide write : Bool) (s : State) : Res :=
  let l := match f with
    | .pf0 => pfLoc off
    | .vf p => if off < 0x100000 then vfLoc p off else .unmapped
  .next (if s.asleep f then s.unsupported write
    else if l = .unmapped && off % (if wide then 8 else 4) = 0 then
      let t := s.pciError .pciUnmapped
      if write then t else t.emit (.readData (if wide then 8 else 4) 0)
    else s)

/-- UNBACKED_DPA_ACCESS (R226): a refused or unbacked access reads all ones, discards writes and is counted. -/
def execUnbackedDpaAccess (a : Access) (size : Nat) (write : Bool) (s : State) : Res :=
  .next (if s.locate a = .refused then
      let t := s.fadd .tierUnbacked 0 1
      if write then t else t.emit (.readData size (2 ^ (8 * size) - 1))
    else s)

/-! ## Triggers that need no chapter of their own -/

/-- MCR_FLAG_SET (R99). -/
def execMcrFlagSet (a : Access) (mask : BitVec 16) (s : State) : Res :=
  .next (match s.trigger a .mcrFlagSet with
    | some c => s.for' .mcrFlags c mask.toNat
    | none => s)

/-- MCR_FLAG_CLR (R99, R90): a set in the same MCLK wins. -/
def execMcrFlagClr (a : Access) (mask sameMclkSet : BitVec 16) (s : State) : Res :=
  .next (match s.trigger a .mcrFlagClr with
    | some c => s.fset .mcrFlags c ((BitVec.ofNat 16 (s.fget .mcrFlags c) &&& ~~~mask) ||| sameMclkSet).toNat
    | none => s)

/-- A write of SKN_WHORL_CMD with its OP (R215, R576). -/
def State.whorlAccess (s : State) (a : Access) (wide : Bool) (v : Nat) (seek : Bool) : State :=
  match s.trigger a .sknWhorlCmdLane with
  | some k =>
    let x := if wide then v else v % 2 ^ 32
    if bitAt x 6 = seek then s.whorlWrite k x else s
  | none => s

/-- WHORL_JUMP. -/
def execWhorlJump (a : Access) (wide : Bool) (value : BitVec 64) (s : State) : Res := .next (s.whorlAccess a wide value.toNat false)

/-- WHORL_SEEK. -/
def execWhorlSeek (a : Access) (wide : Bool) (value : BitVec 64) (s : State) : Res := .next (s.whorlAccess a wide value.toNat true)

/-- STRM_P_ARRIVE (R273). -/
def execStrmPArrive (a : Access) (bar : BitVec 8) (s : State) : Res :=
  .next (match a, s.trigger a .strmPArrive with
    | .carding _ _, some p => s.arrive p bar.toNat
    | _, _ => s)

/-- RING_DB. -/
def execRingDb (a : Access) (v : BitVec 32) (s : State) : Res :=
  .next (match s.trigger a .ringDb with
    | some g => s.doorbell g v.toNat
    | none => s)

/-- A RING_CTL operation on the ring that an access names. -/
def State.ringCtl (s : State) (a : Access) (f : State → Nat → State) : State :=
  match s.trigger a .ringCtl with
  | some g => f s g
  | none => s

/-- ENABLE. -/
def execEnable (a : Access) (s : State) : Res := .next (s.ringCtl a State.enableRing)
/-- DISABLE. -/
def execDisable (a : Access) (s : State) : Res := .next (s.ringCtl a State.disableRing)
/-- FLUSH. -/
def execFlush (a : Access) (s : State) : Res := .next (s.ringCtl a State.flushRing)
/-- REARM. -/
def execRearm (a : Access) (s : State) : Res := .next (s.ringCtl a State.rearmRing)
/-- CLRERR. -/
def execClrerr (a : Access) (s : State) : Res := .next (s.ringCtl a fun t g => t.fset .ringStateErr g 0)

/-- VID_CORE_EN (R338): cores whose bit is clear take no new frame. -/
def execVidCoreEn (a : Access) (en : BitVec 24) (s : State) : Res :=
  .next (match s.trigger a .vidCoreEn with
    | some i => s.fset .vidCoreEn i en.toNat
    | none => s)

/-! ## Mailbox doorbells -/

/-- A mailbox doorbell (R374): a copy of the slot is taken, or the doorbell is ignored and counted. -/
def State.mbxDoorbell (s : State) (m slot : Nat) : State :=
  if m ≥ 65 then s
  else if s.fget .mbxStatusInflight m ≥ 16 then s.fadd .mbxDbign m 1
  else s.acceptRequest m slot (cellsGet s.slots (0x4000 * m + 0x1000 + 0x100 * slot) 256)

/-- MBX_REQDB. -/
def execMbxReqdb (m : Mbx) (slot : Fin 16) (s : State) : Res := .next (s.mbxDoorbell (mbxNum m) slot)

/-- MAILBOX_RESET (R378). -/
def execMailboxReset (m : Mbx) (s : State) : Res := .next (if mbxNum m < 65 then s.raiseGen (mbxNum m) else s)

/-- MAILBOX_RESPONSE_DEFERRED (R375): room has come, and what waited is written. -/
def execMailboxResponseDeferred (m : Mbx) (s : State) : Res := .next (s.flushMbx (mbxNum m) 17)

end Sys2Proof.Machine
end

