-- ==== Sys2Proof/Machine/Num.lean ====
section
/-! DEFINITION. Number formats and their conversions (spec/02_number_formats.md): exact values, storage formats (R39 to R41),
rounding (R55 to R57), exact products and group sums (R49 to R52), and the FP32 operations that the other units use. -/

namespace Sys2Proof.Machine

/-- An exact value: (-1)^neg * m * 2^e, an infinity, or NaN. -/
inductive Val where
  | nan
  | inf (neg : Bool)
  | fin (neg : Bool) (m : Nat) (e : Int)
  deriving DecidableEq, Repr, Inhabited

/-- Rounding: to nearest even, toward zero, down, up, to nearest with ties away, or stochastic with 16 bits (R57). -/
inductive Rnd where
  | rne | rtz | rdn | rup | rmm
  | sr (r : Nat)
  deriving DecidableEq, Repr

/-- A floating-point format: exponent and fraction widths; `fn`: no infinity, NaN only at all ones; `sat`: finite overflow
saturates (R39, R56). -/
structure Flt where
  eb : Nat
  mb : Nat
  fn : Bool := false
  sat : Bool := false
  deriving DecidableEq, Repr

def fp8e4 : Flt := { eb := 4, mb := 3, fn := true, sat := true }
def fp8e5 : Flt := { eb := 5, mb := 2, sat := true }
def fp16 : Flt := { eb := 5, mb := 10 }
def bf16 : Flt := { eb := 8, mb := 7 }
def fp32 : Flt := { eb := 8, mb := 23 }
def fp64 : Flt := { eb := 11, mb := 52 }

def Flt.width (f : Flt) : Nat := 1 + f.eb + f.mb
def Flt.bias (f : Flt) : Int := 2 ^ (f.eb - 1) - 1
/-- Word of the canonical NaN (R41). -/
def Flt.nan (f : Flt) : Nat := if f.fn then 2 ^ (f.eb + f.mb) - 1 else (2 ^ f.eb - 1) * 2 ^ f.mb + 2 ^ (f.mb - 1)
/-- Word of the largest finite value. -/
def Flt.maxWord (f : Flt) : Nat := if f.fn then 2 ^ (f.eb + f.mb) - 2 else (2 ^ f.eb - 1) * 2 ^ f.mb - 1
def Flt.infWord (f : Flt) : Nat := if f.fn then f.maxWord else (2 ^ f.eb - 1) * 2 ^ f.mb
/-- Sign bit in place. -/
def Flt.signBit (f : Flt) (neg : Bool) : Nat := if neg then 2 ^ (f.eb + f.mb) else 0

/-- The value of a word (R39). -/
def Flt.dec (f : Flt) (w : Nat) : Val :=
  let m := w % 2 ^ f.mb
  let e := w / 2 ^ f.mb % 2 ^ f.eb
  let neg := w.testBit (f.eb + f.mb)
  if e = 2 ^ f.eb - 1 && (!f.fn || m = 2 ^ f.mb - 1) then (if m = 0 && !f.fn then .inf neg else .nan)
  else if e = 0 then .fin neg m (1 - f.bias - f.mb)
  else .fin neg (2 ^ f.mb + m) (e - f.bias - f.mb)

/-- A word is a nonzero subnormal. -/
def Flt.subnormal (f : Flt) (w : Nat) : Bool := w / 2 ^ f.mb % 2 ^ f.eb = 0 && w % 2 ^ f.mb ≠ 0

/-- An integer from `m * 2^sh` under a rounding, and whether a part was lost. -/
def roundMant (rnd : Rnd) (neg : Bool) (m : Nat) (sh : Int) : Nat × Bool :=
  if 0 ≤ sh then (m * 2 ^ sh.toNat, false)
  else
    let d := 2 ^ (-sh).toNat
    let q := m / d
    let r := m % d
    let up := match rnd with
      | .rne => decide (2 * r > d) || (decide (2 * r = d) && q % 2 = 1)
      | .rtz => false
      | .rdn => neg && decide (r ≠ 0)
      | .rup => !neg && decide (r ≠ 0)
      | .rmm => decide (2 * r ≥ d)
      | .sr b => decide (b < r * 65536 / d)
    (if up then q + 1 else q, decide (r ≠ 0))

/-- Magnitude word of a finite nonzero value before the overflow rule, and whether it is inexact. -/
def Flt.mag (f : Flt) (rnd : Rnd) (neg : Bool) (m : Nat) (e : Int) : Nat × Bool :=
  let top : Int := Nat.log2 m + e
  let q := max (top - f.mb) (1 - f.bias - f.mb)
  let r := roundMant rnd neg m (e - q)
  ((q + f.mb + f.bias - 1).toNat * 2 ^ f.mb + r.1, r.2)

/-- A finite value lies beyond the largest finite one. -/
def Flt.beyond (f : Flt) (m : Nat) (e : Int) : Bool :=
  m ≠ 0 && (let r := f.mag .rtz false m e; decide (r.1 > f.maxWord) || (decide (r.1 = f.maxWord) && r.2))

/-- Overflow gives the largest finite value rather than infinity. -/
def Flt.clips (f : Flt) (rnd : Rnd) (neg : Bool) : Bool :=
  f.sat || (match rnd with | .rtz => true | .rdn => !neg | .rup => neg | _ => false)

/-- The word of a value under a rounding (R56, R57). -/
def Flt.enc (f : Flt) (rnd : Rnd) (v : Val) : Nat :=
  match v with
  | .nan => f.nan
  | .inf neg => f.signBit neg + f.infWord
  | .fin neg m e =>
    if m = 0 then f.signBit neg
    else
      let rnd' := match rnd with | .sr b => if f.beyond m e then .rne else .sr b | x => x
      let w := (f.mag rnd' neg m e).1
      f.signBit neg + (if w > f.maxWord then (if f.clips rnd' neg then f.maxWord else f.infWord) else w)

/-- A value is not a value of the format, so that stochastic rounding consumes bits (R57). -/
def Flt.inexact (f : Flt) (v : Val) : Bool :=
  match v with
  | .fin neg m e => m ≠ 0 && !f.beyond m e && (f.mag .rtz neg m e).2
  | _ => false

/-! ## Exact arithmetic -/

def Val.isNan : Val → Bool
  | .nan => true
  | _ => false

def Val.isZero : Val → Bool
  | .fin _ 0 _ => true
  | _ => false

def Val.isNeg : Val → Bool
  | .nan => false
  | .inf n => n
  | .fin n _ _ => n

def Val.neg : Val → Val
  | .nan => .nan
  | .inf n => .inf !n
  | .fin n m e => .fin (!n) m e

def Val.abs : Val → Val
  | .nan => .nan
  | .inf _ => .inf false
  | .fin _ m e => .fin false m e

def zero : Val := .fin false 0 0

/-- A signed integer times a power of two; a zero is +0. -/
def ofInt (i : Int) (e : Int) : Val := .fin (decide (i < 0)) i.natAbs e

/-- Exact product; an infinity times zero is NaN (R49). -/
def Val.mul : Val → Val → Val
  | .nan, _ => .nan
  | _, .nan => .nan
  | .inf a, .inf b => .inf (a != b)
  | .inf a, .fin b m _ => if m = 0 then .nan else .inf (a != b)
  | .fin a m _, .inf b => if m = 0 then .nan else .inf (a != b)
  | .fin a m e, .fin b n f => .fin (a != b) (m * n) (e + f)

/-- A finite value as an integer in units of 2^q, `q` at or below its exponent. -/
def unitsOf (neg : Bool) (m : Nat) (e q : Int) : Int :=
  let n : Int := m * 2 ^ (e - q).toNat
  if neg then -n else n

/-- Exact sum; unlike infinities give NaN; a zero sum of unlike signs is +0 (`down`: -0). -/
def Val.addR (down : Bool) : Val → Val → Val
  | .nan, _ => .nan
  | _, .nan => .nan
  | .inf a, .inf b => if a = b then .inf a else .nan
  | .inf a, .fin .. => .inf a
  | .fin .., .inf b => .inf b
  | .fin a m e, .fin b n f =>
    if m = 0 && n = 0 then .fin (if a = b then a else down) 0 0
    else if m = 0 then .fin b n f
    else if n = 0 then .fin a m e
    else
      let q := min e f
      let t := unitsOf a m e q + unitsOf b n f q
      if t = 0 then .fin down 0 0 else ofInt t q

def Val.add (x y : Val) : Val := x.addR false y
def Val.sub (x y : Val) : Val := x.add y.neg

/-- Order of numbers: less than, NaN below nothing. -/
def Val.lt : Val → Val → Bool
  | .nan, _ => false
  | _, .nan => false
  | .inf a, .inf b => a && !b
  | .inf a, .fin .. => a
  | .fin .., .inf b => !b
  | .fin a m e, .fin b n f =>
    let q := min e f
    decide (unitsOf a m e q < unitsOf b n f q)

/-- Equal as numbers (zeros of both signs are equal). -/
def Val.eqv (x y : Val) : Bool := !x.isNan && !y.isNan && !x.lt y && !y.lt x
def Val.le (x y : Val) : Bool := x.lt y || x.eqv y

/-- Bits kept of a quotient or root beyond the operands', the last a sticky bit, so that one rounding of the result is exact. -/
def guard : Nat := 160

/-- Quotient, to `guard` bits and a sticky bit. -/
def Val.div : Val → Val → Val
  | .nan, _ => .nan
  | _, .nan => .nan
  | .inf _, .inf _ => .nan
  | .inf a, .fin b _ _ => .inf (a != b)
  | .fin a _ _, .inf b => .fin (a != b) 0 0
  | .fin a m e, .fin b n f =>
    if n = 0 then (if m = 0 then .nan else .inf (a != b))
    else if m = 0 then .fin (a != b) 0 0
    else
      let k := guard + Nat.log2 n
      let x := m * 2 ^ k
      .fin (a != b) (2 * (x / n) + (if x % n = 0 then 0 else 1)) (e - f - k - 1)

/-- Square root, to `guard` bits and a sticky bit; of a negative number NaN. -/
def Val.sqrt : Val → Val
  | .nan => .nan
  | .inf n => if n then .nan else .inf false
  | .fin neg m e =>
    if m = 0 then .fin neg 0 0
    else if neg then .nan
    else
      let odd := e % 2 ≠ 0
      let x := (if odd then 2 * m else m) * 2 ^ (2 * guard)
      let r := Nat.sqrt x
      .fin false (2 * r + (if r * r = x then 0 else 1)) ((if odd then e - 1 else e) / 2 - guard - 1)

/-! ## FP32 on words -/

abbrev v32 (w : Nat) : Val := fp32.dec w
/-- One rounding to FP32, nearest even (R55). -/
def r32 (v : Val) : Nat := fp32.enc .rne v
def add32 (a b : Nat) : Nat := r32 ((v32 a).add (v32 b))
def sub32 (a b : Nat) : Nat := r32 ((v32 a).sub (v32 b))
def mul32 (a b : Nat) : Nat := r32 ((v32 a).mul (v32 b))
def div32 (a b : Nat) : Nat := r32 ((v32 a).div (v32 b))
/-- Fused: one rounding of `a * b + c`. -/
def fma32 (a b c : Nat) : Nat := r32 (((v32 a).mul (v32 b)).add (v32 c))
def ofInt32 (i : Int) : Nat := r32 (ofInt i 0)
def one32 : Nat := 0x3F800000

/-! ## Storage formats by code (R39) -/

def fmtFlt : Nat → Option Flt
  | 4 => some fp8e4
  | 5 => some fp8e5
  | 6 => some fp16
  | 7 => some bf16
  | 8 => some fp32
  | _ => none

/-- Width in bits of an element of a format. -/
def fmtWidth : Nat → Nat
  | 0 => 1
  | 1 => 2
  | 2 => 4
  | 3 => 8
  | 4 => 8
  | 5 => 8
  | 6 => 16
  | 7 => 16
  | _ => 32

/-- Integer formats: INT1, INT2, INT4, INT8, INT32. -/
def fmtInt (c : Nat) : Bool := c ≤ 3 || c = 9

/-- The value of an element's bits in a format (R39). -/
def decFmt (c w : Nat) : Val :=
  match fmtFlt c with
  | some f => f.dec w
  | none => if c = 0 then ofInt (1 - 2 * (w % 2 : Nat)) 0 else ofInt (signedOf (fmtWidth c) w) 0

/-- Least and largest value of an integer format. -/
def intRange (c : Nat) : Int × Int := (-(2 ^ (fmtWidth c - 1) : Nat), (2 ^ (fmtWidth c - 1) : Nat) - 1)

/-- INT1 rounding (R56, R57): the bit. -/
def encBit (rnd : Rnd) (v : Val) : Nat :=
  match v with
  | .nan => 0
  | .inf n => if n then 1 else 0
  | .fin n m e =>
    match rnd with
    | .sr r =>
      let big := ((Val.fin false m e).lt (ofInt 1 0))
      if !big then (if n then 1 else 0)
      else
        -- floor ((x + 1) / 2 * 2^16), a number from 0 to 65,535
        let x := (Val.fin n m e).add (ofInt 1 0)
        let f16 := match x with | .fin _ a b => (roundMant .rtz false a (b + 15)).1 | _ => 0
        if r < f16 then 0 else 1
    | _ => if n && m ≠ 0 then 1 else 0

/-- Conversion to a storage format (R56, R57): the bits of the element. -/
def encFmt (c : Nat) (rnd : Rnd) (v : Val) : Nat :=
  match fmtFlt c with
  | some f => f.enc rnd v
  | none =>
    if c = 0 then encBit rnd v
    else
      let (lo, hi) := intRange c
      let clamp (i : Int) : Nat := wrapInt (fmtWidth c) (if i < lo then lo else if i > hi then hi else i)
      match v with
      | .nan => 0
      | .inf n => clamp (if n then lo else hi)
      | .fin n m e =>
        let out := v.lt (ofInt lo 0) || (ofInt hi 0).lt v
        if out then clamp (if n then lo else hi)
        else
          let q := (roundMant rnd n m e).1
          clamp (if n then -(q : Int) else q)

/-- The conversion consumes bits under stochastic rounding (R57). -/
def inexactFmt (c : Nat) (v : Val) : Bool :=
  match fmtFlt c with
  | some f => f.inexact v
  | none =>
    match v with
    | .fin n m e =>
      if c = 0 then (Val.fin false m e).lt (ofInt 1 0)
      else
        let (lo, hi) := intRange c
        !(v.lt (ofInt lo 0)) && !((ofInt hi 0).lt v) && (roundMant .rtz n m e).2
    | _ => false

/-- The bits of a word are a nonzero subnormal of its format. -/
def subFmt (c w : Nat) : Bool := match fmtFlt c with | some f => f.subnormal w | none => false

/-- The word with its sign and zero elsewhere: what FLUSH makes of a subnormal (R59). -/
def flushWord (c w : Nat) : Nat := match fmtFlt c with | some f => w / 2 ^ (f.eb + f.mb) % 2 * 2 ^ (f.eb + f.mb) | none => w

/-- FLUSH of one element: the word, and whether a value was replaced (R59, R60). -/
def flushFmt (fl : Bool) (c w : Nat) : Nat × Bool := if fl && subFmt c w then (flushWord c w, true) else (w, false)

/-- Conversion with FLUSH of the rounded result (R56, R59). -/
def convert (fl : Bool) (c : Nat) (rnd : Rnd) (v : Val) : Nat × Bool := flushFmt fl c (encFmt c rnd v)

/-- Element `i` of a packed run (R40). -/
def elemOf (c : Nat) (b : List Byte) (i : Nat) : Nat :=
  let w := fmtWidth c
  if w < 8 then (b.getD (i * w / 8) 0).toNat / 2 ^ (i * w % 8) % 2 ^ w else ofBytes ((b.drop (i * (w / 8))).take (w / 8))

/-- Pack elements of a format, lowest index first (R5, R40): `n` bytes. -/
def packFmt (c n : Nat) (l : List Nat) : List Byte :=
  toBytes n (l.foldr (fun x a => a * 2 ^ fmtWidth c + x % 2 ^ fmtWidth c) 0)

/-! ## Block scales (R42 to R44, R58) -/

/-- The value of a scale byte: 0 none, 1 E8, 2 FP8 E4M3 (R42). -/
def scaleVal (sc b : Nat) : Val :=
  match sc with
  | 0 => ofInt 1 0
  | 1 => if b = 0xFF then .nan else .fin false 1 (b - 127)
  | _ => fp8e4.dec b

/-- A product of two elements and the scales that apply (R44, R49): zero times an infinity is NaN, NaN is NaN. -/
def product (l : List Val) : Val :=
  if l.any Val.isNan then .nan
  else
    let infs := l.any fun v => match v with | .inf _ => true | _ => false
    if infs && l.any Val.isZero then .nan else l.foldl Val.mul (ofInt 1 0)

/-! ## Groups and accumulation (R50 to R52) -/

/-- Sum of a group of products (R50): the largest finite exponent, truncation below 2^(e - 39), exact sum. -/
def groupSum (l : List Val) : Val :=
  if l.any Val.isNan then .nan
  else
    let pos := l.any fun v => v == .inf false
    let neg := l.any fun v => v == .inf true
    if pos && neg then .nan
    else if pos then .inf false
    else if neg then .inf true
    else
      let tops : List Int := l.filterMap fun v => match v with
        | .fin _ m e => if m = 0 then none else some ((Nat.log2 m : Int) + e)
        | _ => none
      match tops with
      | [] => zero
      | t :: ts =>
        let q := ts.foldl max t - 39
        ofInt (l.foldl (fun a v => match v with
          | .fin n m e => let x := (roundMant .rtz n m (e - q)).1; if n then a - x else a + x
          | _ => a) 0) q

/-- A group sum is added to an FP32 accumulator with one rounding (R51); an exact zero leaves it unchanged. FLUSH applies to
the result (R59). -/
def accumulate (fl : Bool) (a : Nat) (t : Val) : Nat × Bool :=
  if t.isZero then (a, false) else flushFmt fl 8 (r32 ((v32 a).add t))

/-- A group sum is added to an INT32 accumulator with saturation (R52): the accumulator and whether it saturated. -/
def accumulateInt (a : Nat) (t : Int) : Nat × Bool :=
  let s := signedOf 32 a + t
  if s < -2147483648 then (0x80000000, true) else if s > 2147483647 then (0x7FFFFFFF, true) else (wrapInt 32 s, false)

/-- Largest magnitude of a format's elements for the quantizing stage (R58). -/
def qmax (c : Nat) : Val :=
  match c with
  | 0 => ofInt 1 0
  | 1 => ofInt 1 0
  | 2 => ofInt 7 0
  | 3 => ofInt 127 0
  | 4 => ofInt 448 0
  | _ => ofInt 57344 0

/-- Largest magnitude of a block; NaN where it holds one. -/
def amaxOf (l : List Val) : Val := l.foldl (fun a v => if a.isNan || v.isNan then .nan else if a.lt v.abs then v.abs else a) zero

/-- The E8 code of a block (R58). -/
def e8Code (q a : Val) : Nat :=
  ((List.range 255).find? fun (c : Nat) => a.le (q.mul (.fin false 1 ((c : Int) - 127)))).getD 254

/-- The E4M3 scale of a block (R58): amax over Q_max toward +infinity, at most 448, at least 2^-9, a subnormal raised to 2^-6
under FLUSH. -/
def e4Code (fl : Bool) (q a : Val) : Nat :=
  let w := fp8e4.enc .rup (a.div q)
  let w1 := if w = 0 then 1 else w
  if fl && fp8e4.subnormal w1 then 8 else w1

/-- The scale byte of a block under the quantizing rule (R58): kind 1 E8, 2 E4M3. -/
def scaleCode (fl : Bool) (kind c : Nat) (l : List Val) : Nat :=
  let a := amaxOf l
  if a.isNan then (if kind = 1 then 0xFF else 0x7F)
  else if a.isZero then (if kind = 1 then 0x7F else 0x38)
  else if kind = 1 then e8Code (qmax c) a
  else match a with
    | .inf _ => 0x7E
    | _ => e4Code fl (qmax c) a

/-- The value that an element of a quantized block is converted from (R58). -/
def quantVal (kind code : Nat) (zeroOrNan : Bool) (v : Val) : Val :=
  if zeroOrNan then v
  else if kind = 1 then v.mul (.fin false 1 (127 - (code : Int)))
  else v32 (r32 (v.div (fp8e4.dec code)))

end Sys2Proof.Machine
end

