-- ==== Sys2Proof/Machine/Video.lean ====
section
/-! DEFINITION. The video engines (spec/12_video.md): sessions (R313 to R315), jobs (R316 to R319), frames on cores (R310, R324 to
R331), picture layouts (R320 to R323) and interruptions (R336, R337). What the standards of R311 compute is opaque. -/

namespace Sys2Proof.Machine

/-! ## Frames and their units -/

/-- More parallel units than R311 allows a decode frame: slices of H.264; tiles and slices of HEVC; tiles of AV1. -/
def manyUnits (codec : Nat) (i : FrameInfo) : Bool :=
  match codec with
  | 1 => i.slices > 256
  | 2 => i.tileCols > 20 || i.tileRows > 22 || i.slices > 600
  | _ => i.tileCols > 16 || i.tileCols * i.tileRows > 128

/-- Independent units of a decode frame (R326). -/
def decodeUnits (codec : Nat) (i : FrameInfo) : Nat :=
  match codec with
  | 1 => i.slices
  | 2 => if i.wppRows ≠ 0 then i.wppRows else i.tileCols * i.tileRows
  | _ => i.tileCols * i.tileRows

def VSess.dir (v : VSess) : Nat := byteAt v.block 0
def VSess.standard (v : VSess) : Nat := byteAt v.block 1
/-- The session block without SPLIT, on which no sample and no coded byte depends (R326, R327). -/
def VSess.asked (v : VSess) : List Byte := patchAt v.block 15 [0]
def VSess.maxW (v : VSess) : Nat := fld v.block 4 2
def VSess.maxH (v : VSess) : Nat := fld v.block 6 2
def VSess.depth (v : VSess) : Nat := byteAt v.block 8
def VSess.chroma (v : VSess) : Nat := byteAt v.block 9
def VSess.packed (v : VSess) : Bool := byteAt v.block 10 = 1
def VSess.pitch (v : VSess) : Nat := fld v.block 16 4
def VSess.padW (v : VSess) : Nat := fld v.block 28 2
def VSess.padH (v : VSess) : Nat := fld v.block 30 2

def ceil64 (n : Nat) : Nat := ceilDiv n 64 * 64

/-- Pictures of a reference store (R315). -/
def storePics (b : List Byte) : Nat := if byteAt b 0 = 1 then byteAt b 59 + 1 else if byteAt b 1 = 3 then 9 else 17

/-- Twice the samples per luma sample, over all planes (R315). -/
def chroma2 (c : Nat) : Nat := if c = 0 then 2 else if c = 1 then 3 else 6

/-- Bytes of the reference store (R315). -/
def storeBytes (b : List Byte) : Nat :=
  let w := if byteAt b 8 = 8 then 1 else 2
  storePics b * ceil64 (fld b 4 2) * ceil64 (fld b 6 2) * chroma2 (byteAt b 9) * w * 17 / 32 + 0x400000

def State.vs (s : State) (i : Nat) : VSess := SMap.get {} s.vsess i
def State.setVs (s : State) (i : Nat) (f : VSess → VSess) : State := { s with vsess := SMap.set {} s.vsess i (f (s.vs i)) }

/-! ## The reference store: samples of two bytes, planes one after another (DESIGN CHOICE: nothing else reads the store) -/

/-- Width and height of a plane of the store. -/
def VSess.planeW (v : VSess) (pl : Nat) : Nat := if pl ≠ 0 && v.chroma = 1 then v.maxW / 2 else v.maxW
def VSess.planeH (v : VSess) (pl : Nat) : Nat := if pl ≠ 0 && v.chroma = 1 then v.maxH / 2 else v.maxH
/-- Planes of a picture. -/
def VSess.planes (v : VSess) : Nat := if v.chroma = 0 then 1 else 3

/-- Bytes of one sample in the store. -/
def VSess.sampleBytes (v : VSess) : Nat := if v.depth = 8 then 1 else 2

/-- DPA of a sample in the store. -/
def State.refAddr (s : State) (v : VSess) (pos pl x y : Nat) : Nat :=
  let size := v.maxW * v.maxH
  let csize := v.planeW 1 * v.planeH 1
  (s.place v.store).base + (pos * size * chroma2 v.chroma / 2 + (if pl = 0 then 0 else size + (pl - 1) * csize) +
    y * v.planeW pl + x) * v.sampleBytes

/-- A sample of a stored picture. -/
def State.refSample (s : State) (v : VSess) (pos pl x y : Nat) : Nat := s.ldNat (s.refAddr v pos pl x y) v.sampleBytes

/-- 16 x 16 blocks in a row of the error map (R330). -/
def VSess.ew (v : VSess) : Nat := ceilDiv v.maxW 16

/-- The block of a sample. -/
def VSess.blockOf (v : VSess) (pl x y : Nat) : Nat :=
  let f := if pl ≠ 0 && v.chroma = 1 then 2 else 1
  y * f / 16 * v.ew + x * f / 16

/-- Width and height of a frame, limited to the session's. -/
def VSess.frameW (v : VSess) (i : FrameInfo) : Nat := min v.maxW i.width
def VSess.frameH (v : VSess) (i : FrameInfo) : Nat := min v.maxH i.height

/-- A sample as the decoder leaves it: concealed under R329, else as the standard gives it with no filter at the edges of what is
concealed. -/
def State.newSample (s : State) (v : VSess) (f : VFrame) (pl x y : Nat) : Nat :=
  if f.concealed.contains (v.blockOf pl x y) then
    match (if bitAt (byteAt v.block 13) 1 then none else v.latest) with
    | some q => s.refSample v q pl x y
    | none => 2 ^ (v.depth - 1)
  else (Config.videoSample f.codec f.concealed pl x y).toNat % 2 ^ v.depth

/-- Write rows `lo` to `hi - 1` (luma) of a frame's picture into its place in the store. -/
def State.storeRows (s : State) (v : VSess) (f : VFrame) (lo hi : Nat) : State :=
  (List.range v.planes).foldl (fun t pl =>
    let k := if pl ≠ 0 && v.chroma = 1 then 2 else 1
    (List.range' (lo / k) (hi / k - lo / k)).foldl (fun u y =>
      u.st (u.refAddr v f.pos pl 0 y) ((List.range (v.planeW pl)).flatMap fun x => toBytes v.sampleBytes (s.newSample v f pl x y))) t) s

/-! ## Picture layouts (R320 to R323) -/

/-- FP32 of a fraction. -/
def frac32 (n d : Nat) : Nat := r32 ((ofInt n 0).div (ofInt d 0))

/-- Kr and Kb of a colour matrix (R321). -/
def kr (m : Nat) : Nat := if m = 1 then frac32 299 1000 else if m = 2 then frac32 2126 10000 else frac32 2627 10000
def kb (m : Nat) : Nat := if m = 1 then frac32 114 1000 else if m = 2 then frac32 722 10000 else frac32 593 10000

def two32 : Nat := 0x40000000
def int32f (n : Nat) : Nat := ofInt32 n

/-- Channels 0 to 2 of a decoded pixel (R321), every operation rounded once to FP32. -/
def decodeChannels (cmat d : Nat) (full : Bool) (y cb cr : Nat) : Nat × Nat × Nat :=
  if cmat = 0 then (int32f y, int32f cb, int32f cr)
  else
    let mid := int32f (2 ^ (d - 1))
    let top := int32f (2 ^ d - 1)
    let sc := 2 ^ (d - 8)
    let (yn, pb, pr) :=
      if full then (div32 (int32f y) top, div32 (sub32 (int32f cb) mid) top, div32 (sub32 (int32f cr) mid) top)
      else (div32 (sub32 (int32f y) (int32f (16 * sc))) (int32f (219 * sc)), div32 (sub32 (int32f cb) mid) (int32f (224 * sc)),
        div32 (sub32 (int32f cr) mid) (int32f (224 * sc)))
    let r := kr cmat
    let b := kb cmat
    let c0 := add32 yn (mul32 (mul32 two32 (sub32 one32 r)) pr)
    let c2 := add32 yn (mul32 (mul32 two32 (sub32 one32 b)) pb)
    let c1 := div32 (sub32 (sub32 yn (mul32 r c0)) (mul32 b c2)) (sub32 (sub32 one32 r) b)
    (c0, c1, c2)

/-- A written sample of a plane: film grain where it is asked for (R313, R325). -/
def State.outSample (s : State) (v : VSess) (codec : Nat) (grain : Bool) (pos pl x y : Nat) : Nat :=
  let q := s.refSample v pos pl x y
  if grain then (Config.videoGrain codec (pl * 2 ^ 40 + y * 2 ^ 20 + x) q v.depth).toNat % 2 ^ v.depth else q

/-- The element of one channel in the slot (R321). -/
def packElem (b : List Byte) (c w : Nat) : Nat :=
  encFmt (byteAt b 11) .rne (v32 (mul32 (sub32 w (fld b (44 + 4 * c) 4)) (fld b (32 + 4 * c) 4)))

/-- One row of a PACK4 picture: padding is zero (R321, R322). -/
def State.packRow (s : State) (v : VSess) (i : FrameInfo) (codec pos y : Nat) : List Byte :=
  let g := bitAt (byteAt v.block 13) 2 && i.grain
  let els := (List.range v.padW).flatMap fun x =>
    if x < v.frameW i && y < v.frameH i then
      let at' (pl : Nat) : Nat :=
        if v.chroma = 0 then 2 ^ (v.depth - 1)
        else if v.chroma = 1 then s.outSample v codec g pos pl (x / 2) (y / 2) else s.outSample v codec g pos pl x y
      let c := decodeChannels (byteAt v.block 12) v.depth (bitAt (byteAt v.block 13) 0) (s.outSample v codec g pos 0 x y) (at' 1) (at' 2)
      [packElem v.block 0 c.1, packElem v.block 1 c.2.1, packElem v.block 2 c.2.2, 0]
    else [0, 0, 0, 0]
  packFmt (byteAt v.block 11) (v.padW * 4 * fmtWidth (byteAt v.block 11) / 8) els

/-- One row of a PLANAR plane (R320, R322). -/
def State.planeRow (s : State) (v : VSess) (i : FrameInfo) (codec pos pl y : Nat) : List Byte :=
  let k := if pl ≠ 0 && v.chroma = 1 then 2 else 1
  let g := bitAt (byteAt v.block 13) 2 && i.grain
  (List.range (v.padW / k)).flatMap fun x =>
    toBytes v.sampleBytes (if x < ceilDiv (v.frameW i) k && y < ceilDiv (v.frameH i) k then s.outSample v codec g pos pl x y else 0)

/-- The writes of rows `lo` to `hi - 1` of a slot: address and bytes of each row. -/
def State.slotRows (s : State) (v : VSess) (i : FrameInfo) (codec pos base lo hi : Nat) : List (Nat × List Byte) :=
  if v.packed then (List.range' lo (hi - lo)).map fun y => (base + y * v.pitch, s.packRow v i codec pos y)
  else (List.range v.planes).flatMap fun pl =>
    let k := if pl ≠ 0 && v.chroma = 1 then 2 else 1
    let off := if pl = 0 then 0 else if pl = 1 then fld v.block 20 4 else fld v.block 24 4
    (List.range' (lo / k) (hi / k - lo / k)).map fun y => (base + off + y * v.pitch, s.planeRow v i codec pos pl y)

/-- Make a list of writes, all or none. -/
def State.vwriteAll (s : State) (p : Nat) : List (Nat × List Byte) → State × XRes
  | [] => (s, .ok [])
  | w :: ws =>
    match s.vprobe p w.1 true w.2.length (w.2.length / 4096 + 2) with
    | (s1, .ok _) =>
      match s1.vwriteAll p ws with
      | (s2, .ok _) => (s2.vstoreGo p w.1 w.2 (w.2.length / 4096 + 2), .ok [])
      | r => r
    | r => r

/-- A value to a sample (R323): nearest even, limited to the depth; NaN gives 0. -/
def toSample (d w : Nat) : Nat :=
  match v32 w with
  | .nan => 0
  | .inf n => if n then 0 else 2 ^ d - 1
  | .fin n m e => let q := (roundMant .rne n m e).1; if n then 0 else min q (2 ^ d - 1)

/-- The samples Y, Cb, Cr of an input pixel of a PACK4 slot (R323). -/
def encodeChannels (b : List Byte) (x : List Nat) : Nat × Nat × Nat :=
  let d := byteAt b 8
  let cmat := byteAt b 12
  let ch (c : Nat) : Nat := add32 (div32 (r32 (decFmt (byteAt b 11) (x.getD c 0))) (fld b (32 + 4 * c) 4)) (fld b (44 + 4 * c) 4)
  if cmat = 0 then (toSample d (ch 0), toSample d (ch 1), toSample d (ch 2))
  else
    let r := kr cmat
    let k := kb cmat
    let yn := add32 (add32 (mul32 r (ch 0)) (mul32 (sub32 (sub32 one32 r) k) (ch 1))) (mul32 k (ch 2))
    let pb := div32 (sub32 (ch 2) yn) (mul32 two32 (sub32 one32 k))
    let pr := div32 (sub32 (ch 0) yn) (mul32 two32 (sub32 one32 r))
    let mid := int32f (2 ^ (d - 1))
    let sc := 2 ^ (d - 8)
    let full := bitAt (byteAt b 13) 0
    let gy := if full then int32f (2 ^ d - 1) else int32f (219 * sc)
    let gc := if full then int32f (2 ^ d - 1) else int32f (224 * sc)
    let y0 := mul32 yn gy
    (toSample d (if full then y0 else add32 y0 (int32f (16 * sc))), toSample d (add32 (mul32 pb gc) mid), toSample d (add32 (mul32 pr gc) mid))

/-- The 4:2:0 samples of an input picture read from its slot rows (R323). -/
def inputSamples (b : List Byte) (rows : List (List Byte)) (planes : List (List (List Byte))) : List Nat :=
  let w := fld b 4 2
  let h := fld b 6 2
  if byteAt b 10 = 1 then
    let px (x y : Nat) : Nat × Nat × Nat :=
      encodeChannels b ((List.range 4).map fun c => elemOf (byteAt b 11) (rows.getD y []) (4 * x + c))
    let avg (f : Nat × Nat × Nat → Nat) : List Nat := (List.range (h / 2)).flatMap fun y => (List.range (w / 2)).map fun x =>
      (f (px (2 * x) (2 * y)) + f (px (2 * x + 1) (2 * y)) + f (px (2 * x) (2 * y + 1)) + f (px (2 * x + 1) (2 * y + 1)) + 2) / 4
    ((List.range h).flatMap fun y => (List.range w).map fun x => (px x y).1) ++ avg (·.2.1) ++ avg (·.2.2)
  else
    let sb := if byteAt b 8 = 8 then 1 else 2
    planes.flatMap fun pl => pl.flatMap fun row => (List.range (row.length / sb)).map fun x => fld row (sb * x) sb % 2 ^ byteAt b 8

/-- Rows that an encode frame reads from its slot: address and bytes. -/
def VSess.inputRows (v : VSess) (base : Nat) : List (List (Nat × Nat)) :=
  if v.packed then [(List.range v.maxH).map fun y => (base + y * v.pitch, v.maxW * 4 * fmtWidth (byteAt v.block 11) / 8)]
  else (List.range v.planes).map fun pl =>
    let off := if pl = 0 then 0 else if pl = 1 then fld v.block 20 4 else fld v.block 24 4
    (List.range (v.planeH pl)).map fun y => (base + off + y * v.pitch, v.planeW pl * v.sampleBytes)

/-- Read rows of partition memory. -/
def State.readRows (s : State) (p : Nat) : List (Nat × Nat) → List (List Byte) → State × (List (List Byte) ⊕ XRes)
  | [], acc => (s, .inl acc.reverse)
  | r :: rs, acc =>
    match s.vread p r.1 r.2 with
    | (s1, .ok d) => s1.readRows p rs (d :: acc)
    | (s1, e) => (s1, .inr e)

def State.readPlanes (s : State) (p : Nat) : List (List (Nat × Nat)) → List (List (List Byte)) → State × (List (List (List Byte)) ⊕ XRes)
  | [], acc => (s, .inl acc.reverse)
  | r :: rs, acc =>
    match s.readRows p r [] with
    | (s1, .inl d) => s1.readPlanes p rs (d :: acc)
    | (s1, .inr e) => (s1, .inr e)

/-! ## Jobs -/

/-- A job descriptor breaks R14, R15, R316 or R317; `v` is its session. -/
def State.vidBad (s : State) (p : Nat) (d : List Byte) (v : VSess) : Bool :=
  let b := byteAt d
  let n := fld d
  let va (o : Nat) : Bool := n o 8 % 64 = 0 && n o 8 < 2 ^ 48
  let lba := bitAt (b 1) 0
  let rowB (pl : Nat) : Nat := (if pl ≠ 0 && v.chroma = 1 then v.padW / 2 else v.padW) * v.sampleBytes
  let off (pl : Nat) : Nat := if pl = 0 then 0 else if pl = 1 then fld v.block 20 4 else fld v.block 24 4
  let rows (pl : Nat) : Nat := if pl ≠ 0 && v.chroma = 1 then v.padH / 2 else v.padH
  -- rows a and b of two planes share a byte, for some a - b
  let meet (i j : Nat) : Bool := (List.range (rows i + rows j)).any fun k =>
    let d : Int := (off i : Int) - off j + ((k : Int) - rows j) * v.pitch
    decide (d < rowB j) && decide (0 < d + rowB i) && decide (0 < k)
  let pls := List.range v.planes
  b 0 = 0 || b 0 > 2 || b 1 ≥ 8 || (b 0 = 2 && lba) || (b 2 ≥ 16 && b 2 ≠ 0xFF) || (!lba && !va 8) || !va 24 || !va 40 || !va 48 ||
  n 20 4 % 64 ≠ 0 || n 32 2 = 0 || n 36 2 % 16 ≠ 0 || n 38 2 ≠ 0 || (b 0 = 2 && n 48 8 ≠ 0) || !zeroAt d 56 72 ||
  b 0 ≠ v.dir + 1 || (b 2 ≠ 0xFF && b 34 ≥ (s.skeins p).length) ||
  (if v.packed then v.pitch * v.padH > n 20 4 || v.pitch < v.padW * 4 * fmtWidth (byteAt v.block 11) / 8
   else v.pitch < rowB 0 || (pls.any fun i => off i + (rows i - 1) * v.pitch + rowB i > n 20 4) ||
     (pls.any fun i => pls.any fun j => i < j && meet i j))

/-- Status of a record for a status of R325 (R351). -/
def vidStatus (st : Nat) : Nat :=
  match st with
  | 0 => 0
  | 1 => 0xC
  | 2 => 0xD
  | 3 => 0xE
  | 4 => 4
  | 5 => 5
  | 6 => 2
  | _ => 0xF

/-- The one status of a job: the first of FAULT, POWER_ABORT, ABORTED, OVERFLOW, UNSUPPORTED, WATCHDOG, DAMAGED and DONE that occurs
among its frames (R325). -/
def jobStatus (seen : List Nat) : Nat := ([6, 4, 5, 7, 3, 2, 1].find? seen.contains).getD 0

/-- Change a job. -/
def State.setVid (s : State) (g idx : Nat) (f : VideoJob → VideoJob) : State :=
  { s with videos := s.videos.map fun (v : VideoJob) => if v.ring = g && v.idx = idx then f v else v }

/-- A job ends: its record gets its outcome, counted stale under an old generation (R370). -/
def State.endVid (s : State) (j : VideoJob) (st : Nat) : State :=
  let s1 := { s with videos := s.videos.filter fun (v : VideoJob) => !(v.ring = j.ring && v.idx = j.idx) }
  let s2 := if s.fget .ringStateGen j.ring ≠ j.gen then (s1.fadd .ringStale j.ring 1).fadd .ringPstale (j.ring / 16) 1
    else s1.endRec j.ring j.idx st (j.written + j.unwritten * 2 ^ 32) 0 0
  s2.syncVid (j.ring / 16)

/-- VIDEO (R316 to R318, R402): the descriptor is read and checked, and the job joins its session's queue. -/
def State.startVideo (s : State) (g : Nat) (r : Rec) : State :=
  let p := g / 16
  if !s.workAllowed g then s
  else match s.vread p (fld r.data 16 6) 128 with
  | (s1, .wait a k) => s1.recWait g r.idx a false k
  | (s1, .bad _ _) => s1.endRec g r.idx 2 0 0 0
  | (s1, .ok d) =>
    let h := fld d 4 4
    let v := s1.vs (h % 2 ^ 24)
    if !v.isOpen || v.closing || v.gen ≠ h / 2 ^ 24 || v.part ≠ p then s1.endRec g r.idx 8 0 0 0
    else if s1.vidBad p d v then s1.endRec g r.idx 1 0 0 0
    else
      let j : VideoJob := { ring := g, idx := r.idx, gen := r.gen, sess := h % 2 ^ 24, desc := d }
      ({ s1.started' g r.idx with videos := s1.videos ++ [j] }).syncVid p

/-- VIDEO. -/
def execVideo (p : Fin 64) (r : Fin 16) (s : State) : Res := .next (s.startRec p r 8 State.startVideo)

/-! ## Starting a frame -/

/-- The next frame of a session waits for a core: none of the session's frames holds one. A decode job that names no byte takes its turn
too, for what its end puts out (R316). -/
def State.vidReady (s : State) (i : Nat) : Option VideoJob :=
  if s.vframes.any fun f => f.sess = i then none
  else match s.videos.find? fun v => v.sess = i with
    | some j => if j.stopping then none else some j
    | none => none

/-- Cores of an I/O die in service (R336, R338, R472). -/
def State.liveVid (s : State) (die : Nat) : List Nat :=
  if s.vidHold.testBit die then []
  else (List.range' (12 * die) 12).filter fun k => (s.fget .vidCoreEn 0).testBit k && !s.vidDead.contains k

/-- Cores of an I/O die that may take a frame (R310). -/
def State.freeVid (s : State) (die : Nat) : List Nat := (s.liveVid die).filter fun k => s.fget .vidCStatusState k = 0

/-- Cores that a frame asks for (R326, R327), at most as many as some die has in service (DESIGN CHOICE, log
entry 65). -/
def State.coresAsked (s : State) (v : VSess) (i : FrameInfo) : Nat :=
  let u := if v.dir = 1 then byteAt v.block 67 else decodeUnits v.standard i
  max 1 (min (min (byteAt v.block 15) u) (max (s.liveVid 0).length (s.liveVid 1).length))

/-- Cores that a frame takes, the die of the partition's home quadrant first (R310); a die in `shut` is kept for an earlier frame. -/
def State.vidCores (s : State) (p n : Nat) (shut : List Nat) : Option (List Nat) :=
  let home := s.homeQuad p / 2
  ([home, 1 - home].find? fun d => !shut.contains d && n ≤ (s.freeVid d).length).map fun d => (s.freeVid d).take n

/-- The die that a frame without cores waits for: of its home quadrant where that has as many in service. -/
def State.dieFor (s : State) (p n : Nat) (shut : List Nat) : Nat :=
  let home := s.homeQuad p / 2
  if !shut.contains home && n ≤ (s.liveVid home).length then home else 1 - home

/-- Lists of one length in order of their first difference. -/
def lexLess : List Nat → List Nat → Bool
  | x :: xs, y :: ys => decide (x < y) || (decide (x = y) && lexLess xs ys)
  | _, _ => false

/-- Order of service (R310): partitions in turn, and the sessions of each in turn; ties to the lower number. -/
def State.vidBefore (s : State) (a b : Nat × VideoJob) : Bool :=
  let key (x : Nat × VideoJob) : List Nat :=
    let v := s.vs x.1
    [(s.part v.part).vidStamp, v.part, v.stamp, x.1]
  lexLess (key a) (key b)

/-- Sessions with a frame that waits, in order of service. -/
def State.vidQueue (s : State) : List (Nat × VideoJob) :=
  let put (x : Nat × VideoJob) (l : List (Nat × VideoJob)) : List (Nat × VideoJob) :=
    (l.takeWhile fun y => s.vidBefore y x) ++ x :: (l.dropWhile fun y => s.vidBefore y x)
  s.vsess.foldr (fun e l => match s.vidReady e.1 with | some j => put (e.1, j) l | none => l) []

/-- The frame that starts, and its cores. A frame that finds too few on a die keeps that die for itself, so that it waits no longer than
the frames that run there (DESIGN CHOICE, log entry 65); the frames after it use the other. -/
def State.vidPick (s : State) (i : FrameInfo) : List (Nat × VideoJob) → List Nat → Option (Nat × VideoJob × List Nat)
  | [], _ => none
  | x :: xs, shut =>
    let v := s.vs x.1
    let n := s.coresAsked v i
    match s.vidCores v.part n shut with
    | some c => some (x.1, x.2, c)
    | none => s.vidPick i xs (s.dieFor v.part n shut :: shut)

/-- The session served next. -/
def State.vidNext (s : State) (i : FrameInfo) : Option (Nat × VideoJob × List Nat) := s.vidPick i s.vidQueue []

/-- A place of the store that holds neither the latest nor a held picture. -/
def VSess.freePos (v : VSess) : Nat :=
  ((List.range (storePics v.block)).find? fun i => v.latest ≠ some i && !v.held.any fun h => h.pos = i).getD 0

/-- Bytes of an error map (R330). -/
def VSess.emb (v : VSess) : Nat := ceilDiv (v.ew * ceilDiv v.maxH 16) 256 * 64

/-- Code of a block: concealed, else its mark. -/
def markOf (conc : List Nat) (marks : List (Nat × Nat)) (b : Nat) : Nat :=
  if conc.contains b then 3 else (SMap.get 0 marks b)

/-- Marks of a frame's blocks (R330): prediction that reads a sample that is not CLEAN taints, a stand-in reference marks MISSING_REF,
and a block keeps its highest code. `pics`: the pictures before it, latest first. -/
def readMarks (pics : List (List (Nat × Nat))) (conc : List Nat) (reads : List BlockRead) : List (Nat × Nat) :=
  reads.foldl (fun m r =>
    let code : Nat := match r.src with
      | .here b => if markOf conc m b = 0 then 0 else 1
      | .earlier back b => match pics[back - 1]? with
        | some q => if SMap.get 0 q b = 0 then 0 else 1
        | none => 2
      | .absent => 2
    SMap.set 0 m r.block (max (SMap.get 0 m r.block) code)) []

/-- Marks with the concealed blocks among them, as later pictures read them. -/
def allMarks (conc : List Nat) (marks : List (Nat × Nat)) : List (Nat × Nat) := conc.foldl (fun m b => SMap.set 0 m b 3) marks

/-- A block lies in the frame. -/
def VSess.inFrame (v : VSess) (i : FrameInfo) (b : Nat) : Bool :=
  b % v.ew < ceilDiv (v.frameW i) 16 && b / v.ew < ceilDiv (v.frameH i) 16

/-- The error map of a frame. -/
def VSess.errorMap (v : VSess) (i : FrameInfo) (conc : List Nat) (marks : List (Nat × Nat)) : List Byte :=
  (List.range v.emb).map fun k => BitVec.ofNat 8 ((List.range 4).foldl (fun a q =>
    let b := 4 * k + q
    a + (if v.inFrame i b then markOf conc marks b * 4 ^ q else 0)) 0)

/-- Blocks of a frame with a code. -/
def VSess.count (v : VSess) (i : FrameInfo) (conc : List Nat) (marks : List (Nat × Nat)) (c : Nat) : Nat :=
  ((List.range (v.ew * ceilDiv v.maxH 16)).filter fun b => v.inFrame i b && markOf conc marks b = c).length

/-- A frame status block (R325) without ROWS_DONE and STATUS: bytes 1 to 7, and bytes 12 to 63. -/
def fsbBytes (ftype flags w h order nc nt nm bytes bsoff cyc : Nat) : List Byte × List Byte :=
  (toBytes 1 ftype ++ toBytes 1 flags ++ [0] ++ toBytes 2 w ++ toBytes 2 h,
   padTo 52 (toBytes 4 order ++ toBytes 4 nc ++ toBytes 4 nt ++ toBytes 4 nm ++ toBytes 4 bytes ++ toBytes 4 bsoff ++ toBytes 4 cyc))

/-- The frame is outside the decode rows of R311, or larger than the session (R312). -/
def VSess.outside (v : VSess) (i : FrameInfo) : Bool :=
  i.unsupported || manyUnits v.standard i || i.width < 16 || i.height < 16 || i.width > v.maxW || i.height > v.maxH

def VSess.allBlocks (v : VSess) : List Nat := List.range (v.ew * ceilDiv v.maxH 16)

/-- Read the coded bytes of a decode frame: by address, or by LBA under R289 and R319. Answers the bytes, and the blocks of the flash
store that were lost, whose bytes are missing; `inr` tells a fault. -/
def State.codedBytes (s : State) (p : Nat) (d : List Byte) (off n : Nat) : State × (List Byte × List Nat ⊕ XRes) :=
  if bitAt (byteAt d 1) 0 then
    let a := fld d 8 8 * 4096 + off
    let lbas := List.range' (a / 4096) (ceilDiv (off % 4096 + n) 4096)
    if lbas.all fun l => s.lbaOk p l then
      let r := lbas.foldl (fun (t : State × List Nat) l =>
        let q := t.1.flashRead l
        (q.1, if q.2 then t.2 else l :: t.2)) (s, [])
      let part (l : Nat) : List Byte :=
        let lo := max a (4096 * l)
        if r.2.contains l then [] else cellsGet s.flash lo (min (a + n) (4096 * l + 4096) - lo)
      let bytes := lbas.flatMap part
      (r.1.fadd .ftlReadBytes 0 bytes.length, .inl (bytes, r.2))
    else (s, .inr (.bad 0 false))
  else match s.vread p (fld d 8 8 + off) n with
    | (s1, .ok b) => (s1, .inl (b, []))
    | (s1, e) => (s1, .inr e)

/-- Blocks that a frame is known to conceal (R328, R329): all of them outside R311, behind an unusable header or a parameter set that was
discarded; the ends of segments that bytes missing at the end of the input or in a lost block damage; and what the syntax shows. -/
def VSess.concealed (v : VSess) (i : FrameInfo) (codec short : Nat) (lost : List Nat) : List Nat :=
  if v.outside i || i.badHeader || (i.uses.any v.lostSets.contains) then v.allBlocks
  else
    let nx := ceilDiv (v.frameW i) 16
    let ny := ceilDiv (v.frameH i) 16
    let last := (ny - 1) * v.ew + (nx - 1)
    let seg (l : Nat) : Nat := let b := Config.videoSegment codec l % max 1 (nx * ny); b / nx * v.ew + b % nx
    i.concealed ++ (if short > 0 then [last] else []) ++ lost.map seg

def State.frameOn (s : State) (k : Nat) : Option VFrame := s.vframes.find? fun f => f.core = k

def State.setFrame (s : State) (k : Nat) (g : VFrame → VFrame) : State :=
  { s with vframes := s.vframes.map fun f => if f.core = k then g f else f }

def State.vidJob (s : State) (g idx : Nat) : Option VideoJob := s.videos.find? fun j => j.ring = g && j.idx = idx

/-- Put a frame on its cores. -/
def State.runFrame (s : State) (f : VFrame) (state : Nat) : State :=
  let s1 := f.cores.foldl (fun t k => (t.fset .vidCStatusState k state).fset .vidCStatusPart k f.part) s
  let s2 := { s1.tick with vframes := s1.vframes ++ [f] }.setVid f.ring f.idx fun j => { j with cores := f.cores, next := j.next + 1 }
  ((s2.setVs f.sess fun v => { v with stamp := s1.stamp }).setPart f.part fun q => { q with vidStamp := s1.stamp }).syncVid f.part

/-- A job whose frame met an unserved fault is stopped with FAULT (R336). -/
def State.vidFault (s : State) (g idx : Nat) : State := s.setVid g idx fun j => { j with stopping := true, stop := 6 }

/-- Matrix cores that receive FLAG (R316, R324): the cores of FMASK in the skein of rank FSKEIN. -/
def State.flagCores (s : State) (p : Nat) (d : List Byte) : List Nat :=
  if byteAt d 2 = 0xFF then []
  else match (s.skeins p)[byteAt d 34]? with
    | some k => ((List.range 8).filter fun b => (byteAt d 35).testBit b).map fun b => 8 * k + b
    | none => []

def State.setVidFlags (s : State) (p : Nat) (d : List Byte) : State :=
  (s.flagCores p d).foldl (fun t c => t.for' .mcrFlags c (2 ^ byteAt d 2)) s

/-- The progress steps of R324 that are left from row `lo`: first row and end of each. -/
def bandSteps (band lo hi : Nat) : List (Nat × Nat) :=
  if band = 0 then (if lo < hi then [(lo, hi)] else [])
  else (List.range (ceilDiv (hi - lo) band)).map fun k => (lo + k * band, min hi (lo + (k + 1) * band))

/-- ORDER of a slot of a job (R325). -/
def VideoJob.orderOf (j : VideoJob) (slot : Nat) : Nat := j.order + (slot - j.from')

/-- The writes that finish a decoded picture in a slot, in order (R324): the rows of each step left with ROWS_DONE after them, the error
map, the status block, and STATUS last. -/
def State.pictureWrites (s : State) (v : VSess) (d : List Byte) (h : HeldPic) (slot order lo : Nat) : List (Nat × List Byte) :=
  let fsb := fld d 40 8 + 64 * slot
  let base := fld d 24 8 + slot * fld d 20 4
  let n (c : Nat) : Nat := v.count h.info h.concealed h.marks c
  let ftype : Nat := if v.outside h.info || h.info.badHeader then 3 else h.info.ftype
  let parts := fsbBytes ftype h.flags h.info.width h.info.height order (n 3) (n 1) (n 2) h.bytes 0 (Config.videoCycles s.fresh).toNat
  ((bandSteps (fld d 36 2) lo v.padH).flatMap fun x =>
      s.slotRows v h.info h.codec h.pos base x.1 x.2 ++ [(fsb + 8, toBytes 4 x.2)]) ++
    (if fld d 48 8 = 0 then [] else [(fld d 48 8 + slot * v.emb, v.errorMap h.info h.concealed h.marks)]) ++
    [(fsb + 1, parts.1), (fsb + 12, parts.2), (fsb, [BitVec.ofNat 8 h.status])]

/-- Put the first held picture out to a slot of a job (R316, R324, R325): beyond NPIC it is counted and not written. -/
def State.outputHeld (s : State) (i : Nat) (j : VideoJob) (h : HeldPic) (slot : Nat) : State × XRes :=
  let v := s.vs i
  let drop (t : State) : State := t.setVs i fun x => { x with held := x.held.filter fun q => q.pos ≠ h.pos }
  let note (t : State) (w u : Nat) : State := (drop t).setVid j.ring j.idx fun x =>
    { x with written := x.written + w, unwritten := x.unwritten + u, slots := max x.slots (slot + 1), seen := h.status :: x.seen }
  if slot ≥ fld j.desc 32 2 then (note s 0 1, .ok [])
  else match s.vwriteAll v.part (s.pictureWrites v j.desc h slot (j.orderOf slot) 0) with
    | (s1, .ok _) => (note (s1.draw.setVidFlags v.part j.desc) 1 0, .ok [])
    | r => r

/-- Held pictures take slots, in output order, while their writes are served: whether all have (R316). -/
def State.putOuts (s : State) (f : VFrame) : List Nat → State × Bool
  | [] => (s.setFrame f.core fun x => { x with outs := [] }, true)
  | slot :: rest =>
    match (s.vs f.sess).held, s.vidJob f.ring f.idx with
    | h :: _, some j =>
      match s.outputHeld f.sess j h slot with
      | (t, .ok _) => t.putOuts f rest
      | (t, .wait a w) => ((t.setFrame f.core fun x => { x with outs := slot :: rest }).enterWait ⟨.video f.core, f.part, a, true, w⟩, false)
      | (t, .bad _ _) => ((t.setFrame f.core fun x => { x with outs := slot :: rest }).vidFault f.ring f.idx, false)
    | _, _ => (s.setFrame f.core fun x => { x with outs := [] }, true)

/-- The coded bytes of a decode frame are at hand: its samples go to the store (R319, R328 to R330). -/
def State.decodeInput (s : State) (f : VFrame) (j : VideoJob) (n : Nat) (bytes : List Byte) (lost : List Nat) : State :=
  let v := s.vs f.sess
  let info := f.info
  let sets := (v.lostSets.filter fun x => !info.sets.contains x) ++ info.badSets
  let codec := Config.videoFrame v.codec v.asked bytes
  let conc := { v with lostSets := sets }.concealed info codec (info.codedBytes - n) lost
  let out := v.outside info
  let f1 : VFrame := { f with
    phase := 1, off := j.off, coded := bytes, codec := codec, pos := v.freePos, concealed := conc, marks := readMarks v.pics conc info.reads,
    status := if out then 3 else 0,
    flags := (if info.width > v.maxW || info.height > v.maxH then 2 else 0) + (if lost.isEmpty then 0 else 4) + (if info.grain then 8 else 0) }
  let s1 := (s.setVid f.ring f.idx fun x => { x with off := x.off + n }).fadd .vidPBsBytes f.part n
  ((s1.setVs f.sess fun x => { x with lostSets := sets }).setFrame f.core fun _ => f1).storeRows v f1 0 v.maxH

/-- Numbers that the coding of a frame takes from the session (R333, R334): whether it is a key frame, its place k in the sweep (the sweep's
block size 0 without one), the first block column or row of the intra band and the one after it, the first sample that blocks before the band
may not read of the previous frame, the frames of the recovery that the first frame of a sweep announces, and the picture order. -/
def VSess.refresh (v : VSess) (key : Bool) : List Nat :=
  let mode := byteAt v.block 66
  if mode = 0 || key then [if key then 1 else 0, 0, 0, 0, 0, 0, 0, v.gop]
  else
    let size := if v.standard = 1 then 16 else if v.standard = 2 then 32 else 64
    let c := ceilDiv (if mode = 1 then v.maxW else v.maxH) size
    let period := fld v.block 68 2
    let k := v.sweep
    let lo := k * c / period
    [0, k, size, lo, (k + 1) * c / period, size * lo - 8, if k = 0 then period - 1 else 0, v.gop]

/-- A frame that holds its cores puts out the pictures that precede it and takes its input (R310, R316, R319, R323). What must first be
translated is waited for, and this is tried again. -/
def State.frameInput (s : State) (k : Nat) : State :=
  match s.frameOn k with
  | none => s
  | some f =>
    match s.vidJob f.ring f.idx with
    | none => s
    | some j =>
      if j.stopping || f.phase ≠ 0 || s.waitsFor (.video k) then s
      else if byteAt j.desc 0 = 1 then
        match s.putOuts f f.outs with
        | (s1, false) => s1
        | (s1, true) =>
          let n := min f.info.codedBytes (fld j.desc 16 4 - j.off)
          match s1.codedBytes f.part j.desc j.off n with
          | (s2, .inr (.wait a w)) => s2.enterWait ⟨.video k, f.part, a, false, w⟩
          | (s2, .inr _) => s2.vidFault f.ring f.idx
          | (s2, .inl (bytes, lost)) => s2.decodeInput f ((s2.vidJob f.ring f.idx).getD j) n bytes lost
      else
        let v := s.vs f.sess
        match s.readPlanes f.part (v.inputRows (fld j.desc 24 8 + f.slot.getD 0 * fld j.desc 20 4)) [] with
        | (s1, .inr (.wait a w)) => s1.enterWait ⟨.video k, f.part, a, false, w⟩
        | (s1, .inr _) => s1.vidFault f.ring f.idx
        | (s1, .inl pls) =>
          let x := inputSamples v.block (pls.headD []) pls
          let st := if f.key then 0 else v.codec
          let how := v.refresh f.key
          s1.setFrame k fun y => { y with phase := 1, coded := Config.videoCode st v.asked how x, codec := Config.videoCoded st v.asked how x }

/-- VIDEO_FRAME_START of a decode frame (R310, R316, R335). -/
def State.startDecode (s : State) (i : Nat) (j : VideoJob) (info : FrameInfo) (cores : List Nat) : State :=
  let v := s.vs i
  let left := fld j.desc 16 4 - j.off
  let s0 := if j.next = 0 then s.setVid j.ring j.idx fun x => { x with order := v.order } else s
  let frame : VFrame := { core := cores.headD 0, cores := cores, ring := j.ring, idx := j.idx, sess := i, part := v.part, info := info, off := j.off }
  -- no byte is left: only the job's end remains
  if left = 0 then s0.runFrame { frame with phase := 2, cores := cores.take 1 } 1
  else if info.codedBytes = 0 then s
  -- RASL pictures of the picture at which decoding started are skipped
  else if info.rasl && v.skipRasl then
    (s0.setVid j.ring j.idx fun x => { x with off := x.off + min info.codedBytes left, next := x.next + 1 }).fadd .vidPBsBytes v.part
      (min info.codedBytes left)
  else (s0.runFrame { frame with slot := info.slot, outs := info.outputs } 1).frameInput frame.core

/-- VIDEO_FRAME_START of an encode frame (R310, R323, R327, R333, R334). -/
def State.startEncode (s : State) (i : Nat) (j : VideoJob) (cores : List Nat) : State :=
  let v := s.vs i
  let gop := fld v.block 64 2
  let key := v.fresh || (gop ≠ 0 && v.gop ≥ gop)
  let frame : VFrame := { core := cores.headD 0, cores := cores, ring := j.ring, idx := j.idx, sess := i, part := v.part, info := default,
                          off := j.off, slot := some j.next, key := key,
                          flags := if byteAt v.block 66 ≠ 0 && !key && v.sweep = 0 then 16 else 0 }
  (s.runFrame frame 2).frameInput frame.core

/-- VIDEO_FRAME_START (R310, R316 to R319, R335). -/
def State.videoFrameStart (s : State) (info : FrameInfo) : State :=
  if s.vidDrain || s.fget .pwrStateStage 0 ≠ 0 then s
  else match s.vidNext info with
    | none => s
    | some (i, j, cores) => if byteAt j.desc 0 = 1 then s.startDecode i j info cores else s.startEncode i j cores

/-- VIDEO_FRAME_START. -/
def execVideoFrameStart (info : FrameInfo) (s : State) : Res := .next (s.videoFrameStart info)

/-! ## Bands, commits and stops -/

/-- The slot that a frame writes: none beyond NPIC, none for a held frame (R316). -/
def slotOf (f : VFrame) (d : List Byte) : Option Nat :=
  match f.slot with
  | some n => if n < fld d 32 2 then some n else none
  | none => none

/-- VIDEO_BAND_DONE (R324): the rows of the band are written, then ROWS_DONE, then FLAG is set. A frame that has not its input yet tries for
it. -/
def State.videoBandDone (s : State) (k : Nat) : State :=
  match s.frameOn k with
  | none => s
  | some f =>
    match s.vidJob f.ring f.idx with
    | none => s
    | some j =>
      let d := j.desc
      let v := s.vs f.sess
      let band := fld d 36 2
      if f.phase = 0 then s.frameInput k
      else match slotOf f d with
      | none => s
      | some slot =>
        if j.stopping || f.phase ≠ 1 || byteAt d 0 = 2 || band = 0 || f.rows ≥ v.padH || s.waitsFor (.video k) then s
        else
          let hi := min v.padH (f.rows + band)
          let ws := s.slotRows v f.info f.codec f.pos (fld d 24 8 + slot * fld d 20 4) f.rows hi ++ [(fld d 40 8 + 64 * slot + 8, toBytes 4 hi)]
          match s.vwriteAll f.part ws with
          | (s1, .ok _) => (s1.setFrame k fun x => { x with rows := hi }).setVidFlags f.part d
          | (s1, .wait a w) => s1.enterWait ⟨.video k, f.part, a, true, w⟩
          | (s1, .bad _ _) => s1.vidFault j.ring j.idx

/-- VIDEO_BAND_DONE. -/
def execVideoBandDone (k : Fin 24) (s : State) : Res := .next (s.videoBandDone k)

/-- The cores of a frame are free again (R310); a core out of service reads OFF (R472). -/
def State.freeFrame (s : State) (f : VFrame) : State :=
  let s1 := f.cores.foldl (fun t k => (t.fset .vidCStatusState k (if t.vidDead.contains k then 3 else 0)).fset .vidCStatusPart k 0) s
  { s1 with vframes := s1.vframes.filter fun x => x.core ≠ f.core, waits := s1.waits.filter fun w => w.req ≠ Requester.video f.core }.setVid
    f.ring f.idx fun j => { j with cores := [] }

/-- The reference state of a session is cleared (R314, R336). -/
def VSess.clear (v : VSess) : VSess :=
  { v with codec := 0, latest := none, held := [], pics := [], lostSets := [], skipRasl := false, gop := 0, sweep := 0, fresh := true }

/-- A reset that waited for the frame boundary takes place (R314): ORDER begins again, for the job that runs too (R325). -/
def State.frameBoundary (s : State) (i : Nat) : State :=
  if (s.vs i).resetDue then
    let s1 := s.setVs i fun v => { v.clear with resetDue := false, order := 0 }
    { s1 with videos := s1.videos.map fun (j : VideoJob) => if j.sess = i then { j with order := 0, from' := j.slots } else j }
  else s

/-- Counters of a committed frame (R338). -/
def State.countFrame (s : State) (f : VFrame) (st px : Nat) (enc : Bool) : State :=
  let s1 := f.cores.foldl (fun t k => (t.fadd .vidCFrames k 1).fadd .vidCPixels k
    (if f.cores.length = 1 then px else (Config.videoShare s.fresh k).toNat)) s
  let s2 := s1.draw.fadd (if enc then .vidPEncFrames else .vidPDecFrames) f.part 1
  match st with
  | 1 => s2.fadd .vidPDamaged f.part 1
  | 2 => s2.fadd .vidPWatchdog f.part 1
  | 3 => s2.fadd .vidPUnsupp f.part 1
  | _ => s2

/-- The last frame of a decode job has committed: what FLUSH puts out is put out, ARRIVE counts, and the record ends (R316, R324,
R325). -/
def State.finishVid (s : State) (k : Nat) : State :=
  match s.frameOn k with
  | none => s
  | some f =>
    match s.putOuts f f.outs with
    | (s1, false) => s1
    | (s1, true) =>
      match s1.vidJob f.ring f.idx with
      | none => s1
      | some j =>
        let s2 := (s1.freeFrame f).setVs f.sess fun v => { v with order := j.orderOf j.slots }
        let s3 := s2.frameBoundary f.sess
        let s4 := if bitAt (byteAt j.desc 1) 1 then s3.arrive f.part (byteAt j.desc 3) else s3
        s4.endVid j (vidStatus (jobStatus j.seen))

/-- The job of a decode frame has no frame left: its end begins. -/
def State.lastFrame (s : State) (f : VFrame) (j : VideoJob) : State :=
  let held := (s.vs f.sess).held.length
  let outs := if bitAt (byteAt j.desc 1) 2 then List.range' j.slots held else []
  (s.setFrame f.core fun x => { x with phase := 2, outs := outs }).finishVid f.core

/-- A held picture joins those held before it in output order. -/
def holdPic (h : HeldPic) (l : List HeldPic) : List HeldPic :=
  (l.takeWhile fun q => q.info.order ≤ h.info.order) ++ h :: (l.dropWhile fun q => q.info.order ≤ h.info.order)

/-- Commit of a decode frame (R324, R325, R330, R335). -/
def State.commitDecode (s : State) (f : VFrame) (j : VideoJob) : State :=
  let d := j.desc
  let v := s.vs f.sess
  let bad := v.allBlocks.any fun b => v.inFrame f.info b && markOf f.concealed f.marks b ≠ 0
  let st := if f.status ≠ 0 then f.status else if bad then 1 else 0
  let pic : HeldPic := { pos := f.pos, info := f.info, concealed := f.concealed, marks := f.marks, bytes := f.coded.length,
                         flags := f.flags + (if bad then 0 else 1), status := st, codec := f.codec }
  let done (t : State) (w u sl : Nat) : State :=
    let t1 := t.countFrame f st (v.frameW f.info * v.frameH f.info) false
    let t2 := t1.setVs f.sess fun x =>
      { x with frames := x.frames + 1, codec := Config.videoNext f.codec f.concealed, latest := some f.pos,
               skipRasl := if f.info.cleanStart then x.fresh else x.skipRasl, fresh := false,
               pics := (allMarks f.concealed f.marks :: x.pics).take (storePics x.block),
               held := if f.slot.isNone then holdPic pic x.held else x.held }
    let t3 := t2.setVid f.ring f.idx fun x =>
      { x with written := x.written + w, unwritten := x.unwritten + u, slots := max x.slots sl, seen := st :: x.seen }
    if j.off ≥ fld d 16 4 then t3.lastFrame f ((t3.vidJob f.ring f.idx).getD j) else (t3.freeFrame f).frameBoundary f.sess
  match slotOf f d with
  | none => done s 0 (if f.slot.isNone then 0 else 1) (match f.slot with | some n => n + 1 | none => 0)
  | some slot =>
    match s.vwriteAll f.part (s.pictureWrites v d pic slot (j.orderOf slot) f.rows) with
    | (s1, .ok _) => done (if f.rows < v.padH then s1.draw.setVidFlags f.part d else s1.draw) 1 0 (slot + 1)
    | (s1, .wait a w) => s1.enterWait ⟨.video f.core, f.part, a, true, w⟩
    | (s1, .bad _ _) => s1.vidFault f.ring f.idx

/-- Commit of an encode frame (R325, R333, R337): bytes that exceed the room left discard the frame with OVERFLOW, an expired
budget with WATCHDOG; later frames then do not start. -/
def State.commitEncode (s : State) (f : VFrame) (j : VideoJob) : State :=
  let d := j.desc
  let v := s.vs f.sess
  let room := fld d 16 4 - j.off
  let big := f.coded.length > room
  let st := if f.status = 2 then 2 else if big then 7 else 0
  let slot := f.slot.getD 0
  let fsb := fld d 40 8 + 64 * slot
  let bytes := if st = 0 then f.coded.length else 0
  let parts := fsbBytes (if f.key then 0 else 1) f.flags v.maxW v.maxH v.order 0 0 0 bytes j.off (Config.videoCycles s.fresh).toNat
  let data := if f.status = 2 then [] else f.coded.take room
  let ws := (if data.isEmpty then [] else [(fld d 8 8 + j.off, data)]) ++
    [(fsb + 1, parts.1), (fsb + 12, parts.2), (fsb, [BitVec.ofNat 8 st])]
  match s.vwriteAll f.part ws with
  | (s1, .wait a w) => s1.enterWait ⟨.video f.core, f.part, a, true, w⟩
  | (s1, .bad _ _) => s1.vidFault f.ring f.idx
  | (s1, .ok _) =>
    let t1 := (s1.draw.freeFrame f).countFrame f st (v.maxW * v.maxH) true
    let t2 := if st ≠ 0 then t1 else (t1.setVs f.sess fun x =>
      { x with frames := x.frames + 1, order := x.order + 1, codec := f.codec, fresh := false,
               gop := if f.key then 1 else x.gop + 1,
               -- a sweep starts after every key frame
               sweep := if f.key then 0 else (x.sweep + 1) % max 1 (fld v.block 68 2) }).fadd .vidPBsBytes f.part bytes
    let t3 := (t2.setVid f.ring f.idx fun x =>
      { x with off := x.off + bytes, written := x.written + (if st = 0 then 1 else 0), seen := st :: x.seen }).frameBoundary f.sess
    if st ≠ 0 || slot + 1 ≥ fld d 32 2 then
      match t3.vidJob f.ring f.idx with
      | none => t3
      | some j1 =>
        let t4 := if bitAt (byteAt d 1) 1 then t3.arrive f.part (byteAt d 3) else t3
        t4.endVid j1 (vidStatus (jobStatus j1.seen))
    else t3

/-- VIDEO_FRAME_COMMIT: a frame that has its input commits; of one that has committed the job's end goes on; another tries for its
input. -/
def State.videoFrameCommit (s : State) (k : Nat) : State :=
  match s.frameOn k with
  | none => s
  | some f =>
    match s.vidJob f.ring f.idx with
    | none => s
    | some j =>
      if j.stopping || s.waitsFor (.video k) then s
      else if f.phase = 0 then s.frameInput k
      else if f.phase = 2 then (if f.outs.isEmpty then s.lastFrame f j else s.finishVid k)
      else if byteAt j.desc 0 = 1 then s.commitDecode f j else s.commitEncode f j

/-- VIDEO_FRAME_COMMIT. -/
def execVideoFrameCommit (k : Fin 24) (s : State) : Res := .next (s.videoFrameCommit k)

/-- VIDEO_WATCHDOG (R331): the blocks not decoded are concealed, the rest is written, and the frame commits WATCHDOG. -/
def State.videoWatchdog (s : State) (k : Nat) : State :=
  match s.frameOn k with
  | none => s
  | some f =>
    match s.vidJob f.ring f.idx with
    | none => s
    | some j =>
      if j.stopping || f.phase ≠ 1 || s.waitsFor (.video k) then s
      else
        let v := s.vs f.sess
        let first := max (Config.videoLeft s.fresh) (f.rows / 16 * v.ew)
        let conc := f.concealed ++ (v.allBlocks.filter fun b => b ≥ first && !f.concealed.contains b)
        let f1 := { f with concealed := conc, marks := readMarks v.pics conc f.info.reads, status := if f.status = 0 then 2 else f.status }
        let s1 := (s.draw.setFrame k fun _ => f1).fadd .vidCWdog k 1
        if byteAt j.desc 0 = 1 then (s1.storeRows v f1 f1.rows v.maxH).commitDecode f1 j else s1.commitEncode { f with status := 2 } j

/-- VIDEO_WATCHDOG. -/
def execVideoWatchdog (k : Fin 24) (s : State) : Res := .next (s.videoWatchdog k)

/-- The slot whose status block a stopped frame's STATUS goes to (R336): its own; once it has committed, that of the held picture that was
being put out. -/
def stopSlot (f : VFrame) (d : List Byte) : Option Nat :=
  if f.phase = 2 then f.outs.head?.bind fun n => if n < fld d 32 2 then some n else none else slotOf f d

/-- VIDEO_FRAME_STOP (R336): a frame whose job is being stopped commits its status with ROWS_DONE as last published, without FLAG and
ARRIVE; later frames do not start and the reference state is cleared. -/
def State.videoFrameStop (s : State) (k : Nat) : State :=
  match s.frameOn k with
  | none => s
  | some f =>
    match s.vidJob f.ring f.idx with
    | none => s.freeFrame f
    | some j =>
      let d := j.desc
      let own (w : TransWait) : Bool := w.req = Requester.video k && (stopSlot f d).any fun n => w.va / 4096 = (fld d 40 8 + 64 * n) / 4096
      if !j.stopping || s.waits.any own then s
      else
        let v := s.vs f.sess
        let enc := byteAt d 0 = 2
        let n (c : Nat) : Nat := if enc then 0 else v.count f.info f.concealed f.marks c
        let parts := fsbBytes (if enc then (if f.key then 0 else 1) else f.info.ftype) f.flags (if enc then v.maxW else f.info.width)
          (if enc then v.maxH else f.info.height) (if enc then v.order else j.orderOf ((stopSlot f d).getD 0)) (n 3) (n 1) (n 2)
          (if enc then 0 else f.coded.length) (if enc then j.off else 0) (Config.videoCycles s.fresh).toNat
        let stop (t : State) : State :=
          let t1 := ((t.draw.freeFrame f).countFrame f j.stop (Config.videoShare s.fresh k).toNat enc).setVs f.sess fun x =>
            { x.clear with order := if enc then x.order else j.orderOf j.slots }
          let t2 := (t1.setVid f.ring f.idx fun x => { x with seen := j.stop :: x.seen }).frameBoundary f.sess
          -- a ring being reset ends its records itself (R368)
          if t2.fget .ringState f.ring = 4 then t2
          else t2.endVid { j with seen := j.stop :: j.seen } (if j.hard then 0x11 else vidStatus (jobStatus (j.stop :: j.seen)))
        match stopSlot f d with
        | none => stop s
        | some slot =>
          let fsb := fld d 40 8 + 64 * slot
          -- what the frame waited for before is given up
          let s0 : State := { s with waits := s.waits.filter fun w => w.req ≠ Requester.video k }
          match s0.vwriteAll f.part [(fsb + 1, parts.1), (fsb + 12, parts.2), (fsb, [BitVec.ofNat 8 j.stop])] with
          | (s1, .wait a w) => s1.enterWait ⟨.video k, f.part, a, true, w⟩
          | (s1, _) => stop s1

/-- VIDEO_FRAME_STOP. -/
def execVideoFrameStop (k : Fin 24) (s : State) : Res := .next (s.videoFrameStop k)

/-- VIDEO_DRAIN_TIMEOUT (R336): every running frame of a draining video domain is stopped with POWER_ABORT. -/
def State.videoDrainTimeout (s : State) : State :=
  if !s.vidDrain then s
  else s.vframes.foldl (fun t f => t.setVid f.ring f.idx fun j => if j.stopping then j else { j with stopping := true, stop := 4 }) s

/-- VIDEO_DRAIN_TIMEOUT. -/
def execVideoDrainTimeout (s : State) : Res := .next s.videoDrainTimeout

/-- The video domain begins to drain (R336); a drain time of 0 aborts at once. -/
def State.drainVideo (s : State) : State :=
  let t : State := { s with vidDrain := true }
  if t.fget .vidDrainTo 0 = 0 then t.videoDrainTimeout else t

/-- VIDEO_PARITY (R472, R455): the frame stops with ABORTED, its record completes HWFAULT, and the core leaves service. -/
def State.videoParity (s : State) (k : Nat) : State :=
  if s.vidDead.contains k then s
  else
    let f := s.vframes.find? fun (x : VFrame) => x.cores.contains k
    let s1 := { s with vidDead := k :: s.vidDead }
    let s2 := match f with
      | none => s1.fset .vidCStatusState k 3
      | some f => s1.setVid f.ring f.idx fun j => { j with stopping := true, stop := 5, hard := true }
    let part := f.map (·.part)
    (s2.logFault { cls := 6, part := part.getD 0xFF, unit := unitWord 8 k }).hardFault part (unitWord 8 k) 6

/-- VIDEO_PARITY. -/
def execVideoParity (k : Fin 24) (s : State) : Res := .next (s.videoParity k)

/-- An access of the frame on a core cannot be served: its job stops with FAULT (R336); while it is being stopped, its status block stays
unwritten. -/
def State.videoUnserved (s : State) (k : Nat) : State :=
  match s.frameOn k with
  | none => s
  | some f =>
    match s.vidJob f.ring f.idx with
    | none => s
    | some j =>
      if j.stopping then
        -- no slot is left to name
        (s.setFrame k fun x => { x with slot := none, outs := [] }).videoFrameStop k
      else s.vidFault f.ring f.idx

/-- A partition is re-formed or dissolved, or a recovery takes its units: its frames and jobs stop at once (R336). -/
def State.stopVideos (s : State) (p : Nat) : State :=
  let s1 := { s with videos := s.videos.map fun (v : VideoJob) => if v.ring / 16 = p && !v.stopping then { v with stopping := true } else v }
  s1.vframes.foldl (fun t f =>
    if f.part = p then
      let u : State := ({ t with waits := t.waits.filter fun w => w.req ≠ Requester.video f.core } : State).videoFrameStop f.core
      -- a page that must first be translated is not waited for
      if u.waitsFor (.video f.core) then ({ u with waits := u.waits.filter fun w => w.req ≠ Requester.video f.core } : State).videoUnserved f.core
      else u
    else t) s1

/-! ## Session commands -/

/-- The session that a handle names for a command, or the status that refuses it (R314, R383). -/
def State.sessLookup (s : State) (p h : Nat) : Nat ⊕ Nat :=
  let i := h % 2 ^ 24
  let v := s.vs i
  if !v.used then .inr 5
  else if v.gen ≠ h / 2 ^ 24 || !v.isOpen || v.closing then .inr 6
  else if v.part ≠ p then .inr 5
  else .inl i

/-- VSESS_OPEN (R313 to R315). -/
def cmdVsessOpen (s : State) (m : Nat) (r : MbxReq) : State × Ans :=
  let p := byteAt r.data 5
  let b := (r.data.drop 16).take 128
  let n := storeBytes b
  let open' := s.vsess.filter fun e => e.2.isOpen
  if (open'.filter fun e => e.2.part = p).length ≥ 64 || open'.length ≥ 1024 then (s, .now 9 [])
  else if !s.withinQuota p 1 n then (s, .now 7 [])
  else match s.allocT1 p n with
    | (_, .inr e) => (s, .now e [])
    | (s1, .inl pl) =>
      let i := ((List.range 1024).find? fun i => !(s.vs i).isOpen).getD 0
      let v := s.vs i
      let gen := if v.used then (v.gen + 1) % 256 else 0
      let h := gen * 2 ^ 24 + i
      let s2 := ((s1.charge p 1 n).setVs i fun _ => { used := true, isOpen := true, gen := gen, part := p, block := b, store := pl, bytes := n }).syncVid p
      (s2.logCmd m r 0xF [] (toBytes 4 h ++ [BitVec.ofNat 8 (byteAt b 0), BitVec.ofNat 8 (byteAt b 1), 0, 0] ++ toBytes 8 n),
        .logged (padTo 8 (toBytes 4 h) ++ toBytes 8 n))

/-- The session is free of cores: its store is freed and it closes (R314). -/
def State.closeSess (s : State) (i : Nat) : State :=
  let v := s.vs i
  (((s.freePlace v.store).uncharge v.part 1 v.bytes).setVs i fun _ => { used := true, gen := v.gen }).syncVid v.part

/-- VSESS_CLOSE (R314, R336): queued jobs end ABORTED, the running frame is being stopped; the session closes at its completion. -/
def cmdVsessClose (s : State) (_m : Nat) (r : MbxReq) : State × Ans :=
  match s.sessLookup (byteAt r.data 5) (fld r.data 16 4) with
  | .inr e => (s, .now e [])
  | .inl i =>
    let running (j : VideoJob) : Bool := s.vframes.any fun f => f.ring = j.ring && f.idx = j.idx
    let mine := s.videos.filter fun j => j.sess = i
    let s1 := (mine.filter fun j => !running j).foldl (fun t j => t.endVid j 5) s
    let s2 := { s1 with videos := s1.videos.map fun (j : VideoJob) => if j.sess = i && !j.stopping then { j with stopping := true, stop := 5 } else j }
    (s2.setVs i fun v => { v with closing := true }, .running [])

/-- VSESS_QUERY (R314). -/
def cmdVsessQuery (s : State) (_m : Nat) (r : MbxReq) : State × Ans :=
  match s.sessLookup (byteAt r.data 5) (fld r.data 16 4) with
  | .inr e => (s, .now e [])
  | .inl i =>
    let v := s.vs i
    let q := (s.videos.filter fun j => j.sess = i && j.next = 0).length
    (s, .now 0 (v.block ++ toBytes 8 v.frames ++ toBytes 4 q))

/-- VSESS_RESET (R314): the reference state clears at the session's next frame boundary, now when no frame of it runs. -/
def cmdVsessReset (s : State) (m : Nat) (r : MbxReq) : State × Ans :=
  match s.sessLookup (byteAt r.data 5) (fld r.data 16 4) with
  | .inr e => (s, .now e [])
  | .inl i =>
    let s1 := s.setVs i fun v => { v with resetDue := true }
    let s2 := if s.vframes.any fun f => f.sess = i then s1 else s1.frameBoundary i
    let h := toBytes 4 (fld r.data 16 4)
    (s2.logCmd m r 0xF h h, .logged [])

/-- VSESS_OPEN. -/
def execVsessOpen (m : Mbx) (s : State) : Res := .next (s.runCommand m 0x701 cmdVsessOpen)
/-- VSESS_CLOSE. -/
def execVsessClose (m : Mbx) (s : State) : Res := .next (s.runCommand m 0x702 cmdVsessClose)
/-- VSESS_QUERY. -/
def execVsessQuery (m : Mbx) (s : State) : Res := .next (s.runCommand m 0x703 cmdVsessQuery)
/-- VSESS_RESET. -/
def execVsessReset (m : Mbx) (s : State) : Res := .next (s.runCommand m 0x704 cmdVsessReset)

end Sys2Proof.Machine
end

