-- ==== Sys2Proof/Machine/Commands.lean ====
section
/-! DEFINITION. Mailbox commands of groups 0x01 to 0x03 and 0x0A (R384 to R393), the completion of commands marked L (R377), the
mill's restart (R466) and the imbalance monitor (R238). -/

namespace Sys2Proof.Machine

/-! ## Device information -/

/-- COUNT of DEV_INFO: the visible counts of R20 in table order; skeins out of service leave the count (R469). -/
def State.counts (s : State) : List Nat :=
  let out := (skeinsOf s.outSkeins).length
  [4, 64 - out, 512, 2048, 16384, 64, 4, 4, 2, 8, 16, 16, 24, 8, 1, 1]

/-- DEVNUM, 0xFFFF when unset (R435, R575). -/
def State.devnum (s : State) : Nat := if s.fget .flkIdSet 0 = 1 then s.fget .flkIdDevnum 0 else 0xFFFF

/-- Formed partitions. -/
def State.formedParts (s : State) : List Nat := (List.range 64).filter s.formed

/-- DEV_INFO. -/
def cmdDevInfo (s : State) (_m : Nat) (_r : MbxReq) : State × Ans :=
  let name : List Byte := padTo 16 [0x41, 0x58, 0x4D, 0x2D, 0x30, 0x39, 0x34, 0x30]
  let spares := (List.range 4).foldl (fun a q => if s.spareUsed.testBit q then a else a + 2 ^ q) 0
  (s, .now 0 (name ++ toBytes 4 Config.firmware.toNat ++ toBytes 1 Config.fuseRev.toNat ++ toBytes 1 (s.fget .secLc 0) ++
    toBytes 2 s.devnum ++ toBytes 8 Config.serial.toNat ++ toBytes 1 spares ++ toBytes 1 s.formedParts.length ++ toBytes 6 0 ++
    toBytes 8 s.t1Backed ++ toBytes 8 (t2Size - 0x400000000) ++ toBytes 8 (s.fget .ftlCapUserblk 0 * 4096) ++
    toBytes 4 (s.fget .glbReadyStatus 0) ++ toBytes 12 0 ++ s.counts.flatMap (toBytes 2)))

/-- DEV_SENSORS (R502). -/
def cmdDevSensors (s : State) (_m : Nat) (_r : MbxReq) : State × Ans :=
  let hot := (List.range 6).foldl (fun a i => max a (SMap.get 0 s.temps i)) 0
  (s, .now 0 (toBytes 2 (s.fget .pwrInputW 0) ++ toBytes 2 (s.fget .pwrInputV 0) ++ toBytes 1 hot ++
    (List.range 8).flatMap (fun i => toBytes 1 (s.fget .tierStackTemp i)) ++
    (List.range 4).flatMap (fun q => toBytes 1 (s.fget .pwrMclk q / 10)) ++ toBytes 1 (s.fget .pwrState 0) ++
    toBytes 1 (s.fget .pwrThrotNow 0)))

/-! ## Forming and dissolving partitions -/

/-- The registers that tell a partition's cores and skein windows (R99, R206, R284, R395). -/
def State.showPartition (s : State) (p : Nat) : State :=
  let q := s.part p
  let cores := s.coresOf p
  let s1 := cores.foldl (fun t c => (((t.fset .mcrModePart c p).fset .mcrModeOwned c 1).fset .mcrDeckleBase c
    (if q.dcm = 0 then 0 else 256 - q.dcm)).fset .mcrDeckleSize c q.dcm) s
  let s2 := (s.cardingOf p).foldl (fun t n => (t.fset .crdModePart n p).fset .crdModeOwned n 1) s1
  ((s2.fset .strmPWinSbase p (if q.dsm = 0 then 0 else 128 - q.dsm)).fset .strmPWinSsize p q.dsm)

/-- Skeins that leave a partition: their cores belong to none. -/
def State.releaseSkeins (s : State) (mask : Nat) : State :=
  (skeinsOf mask).foldl (fun t k =>
    let t1 := (List.range' (8 * k) 8).foldl (fun u c => (((u.fset .mcrModePart c 0).fset .mcrModeOwned c 0).fset .mcrDeckleBase c 0).fset
      .mcrDeckleSize c 0) t
    (List.range' (32 * k) 32).foldl (fun u n => (u.fset .crdModePart n 0).fset .crdModeOwned n 0) t1) s

/-- Complete the started records of a ring ABORTED and make it DISABLED (R384, R503): with completion records and fences, or
without. -/
def State.stopRing (s : State) (g : Nat) (cpl : Bool) : State :=
  let live := s.fget .ringState g ≠ 0
  if !live then s
  else
    let s1 := s.abortRing g
    let q := (s1.ring g).recs.filter fun x => s.begun g x
    let s2 := q.foldl (fun (t : State) (x : Rec) =>
      if cpl then t.completeStopped s1 g x 5
      else t.afterCpl g { x with reported := true, data := x.data.set 1 0 } 5) s1
    let s3 : State := { s2 with graphs := s2.graphs.filter fun (x : Graph) => x.ring ≠ g, videos := s2.videos.filter fun (v : VideoJob) => v.ring ≠ g,
                                guilts := s2.guilts.filter fun x => x.1 ≠ g }
    let s4 := (s3.setRing g fun r => { r with recs := [], heldDb := [], disabling := false, cause := 0, causeIdx := 0, gtask := 0, age := 0,
                                              replay := [], reported := [] }).syncRing g
    (((s4.fset .ringState g 0).fset .ringStateWaiting g 0).fset .ringPstatusGuilty (g / 16)
      (s4.fget .ringPstatusGuilty (g / 16) &&& (0xFFFF - 2 ^ (g % 16)))).syncVid (g / 16)

/-- Everything that runs for a partition's rings has been stopped: tasks and node chains leave their units. -/
def State.clearUnits (s : State) (p : Nat) : State :=
  let s1 := (s.coresOf p).foldl (fun (t : State) c => if (t.mtask c).active then (t.setMtask c fun _ => {}).setMcore c fun _ => {} else t) s
  let s2 := (s.cardingOf p).foldl (fun (t : State) n => (List.range 8).foldl (fun (u : State) i =>
    if (u.ctask (8 * n + i)).active then u.setCtask (8 * n + i) fun _ => {} else u) t) s1
  s2.ctxs.foldl (fun (t : State) (e : Nat × Ctx) =>
    if e.2.busy && e.2.part = p && e.1 % 136 < 128 then ((t.setCtx e.1 fun _ => {}).syncCtx (e.1 / 136) p).pumpChains (e.1 / 136) 64 else t) s2

/-- The work of a partition ends (R384, R336, R397): records, frames, jobs, switches and recoveries. -/
def State.endWork (s : State) (p : Nat) (cpl : Bool) : State :=
  let s1 := s.stopVideos p
  let s2 := (List.range 16).foldl (fun t r => t.stopRing (16 * p + r) cpl) s1
  let s3 := s2.clearUnits p
  let s4 : State := { s3 with switching := s3.switching.filter fun x => x.1 ≠ p, boundaries := s3.boundaries.filter fun x => x.1 ≠ p,
                              ckpts := s3.ckpts.filter fun x => x.1 ≠ p, recoveries := s3.recoveries.filter fun (x : Recovery) => x.part ≠ p,
                              slices := s3.slices.filter fun (x : SliceReq) => x.part ≠ p, late := s3.late.filter fun x => x.1 ≠ p }
  let s5 := (List.range 16).foldl (fun (t : State) r => if (t.job (16 * p + r)).isOpen then t.finishJob (16 * p + r) else t) s4
  s5.fset .ringActiveSwitching p 0

/-- Counters that count from a partition's formation (R252, R338, R371, R415, R452), import windows (R453), the quotas (R249), and what
the barrier registers show before its first job (R284). -/
def State.clearFormation (s : State) (p : Nat) : State :=
  let s1 := [Fld.ringPstale, .ringBypass, .ringSwitches, .ringSwNs, .ringSwmaxNs, .ringSwBytes, .tierPImbImb, .tierPImbImbNow, .tierPImbHotch,
    .tierPImbRatio, .tierPImbEvents, .vidPDecFrames, .vidPEncFrames, .vidPDamaged, .vidPWatchdog, .vidPUnsupp, .vidPBsBytes, .flkQTxbytes,
    .flkQRxbytes, .flkQRefused, .flkQColls, .tierPT1quota, .tierPT2quota, .tierPT3quota, .strmPBarExp, .strmPBarCount,
    .strmPPhase].foldl (fun t f => t.fclear f p) s
  let s2 := (List.range 16).foldl (fun t i => [Fld.ringImpBase, .ringImpSize, .ringImpCtlSrc, .ringImpCtlSpart, .ringImpCtlAnydev,
    .ringImpCtlAnypart, .ringImpCtlEn, .ringImpAccepted].foldl (fun u f => u.fclear f (16 * p + i)) t) s1
  (List.range 16).foldl (fun (t : State) r => t.setJob (16 * p + r) fun _ => {}) s2

/-- The 16 bytes of class 0x02 (R575). -/
def State.formSide (s : State) (p : Nat) : List Byte :=
  let q := s.part p
  if q.mask = 0 then []
  else toBytes 8 q.mask ++ toBytes 1 (s.fget .strmPModeClass p) ++ toBytes 1 q.dcm ++ toBytes 1 q.dsm

/-- The pages for the completion records of a partition's started records are asked for (R384); `none` when none waits. -/
def State.askAllCpls (s : State) (p : Nat) : Option State :=
  let go (x : State × Bool) (r : Nat) : State × Bool :=
    match x.1.askCpls (16 * p + r) ((x.1.ring (16 * p + r)).recs.filter fun y => x.1.begun (16 * p + r) y) with
    | some t => (t, true)
    | none => x
  match (List.range 16).foldl go (s, false) with
  | (t, true) => some t
  | (_, false) => none

/-- PART_FORM (R384, R394 to R396). At a first formation SHADOW_ALLOW takes the default of R36 for CLASS, and STRM_P_MODE.SA shows it from
then on, before a release has sampled it (DESIGN CHOICE, log 66). -/
def cmdPartForm (s : State) (m : Nat) (r : MbxReq) : State × Ans :=
  let d := r.data
  let p := byteAt d 5
  let mask := fld d 16 8
  let first := !s.formed p
  let others := s.parts.foldl (fun a e => if e.1 = p then a else a ||| e.2.mask) 0
  if (mask &&& s.testSkeins) ≠ 0 then (s, .later)
  else if (mask &&& s.outSkeins) ≠ 0 then (s, .now 5 [])
  else if (mask &&& others) ≠ 0 then (s, .now 4 [])
  else match s.askAllCpls p with
  | some t => (t, .later)
  | none =>
    let old := s.formSide p
    let s1 := if first then s.clearFormation p else s.endWork p true
    let s2 := s1.releaseSkeins (s.part p).mask
    let s3 := (s2.fset .strmPModeClass p (byteAt d 24)).setPart p fun q =>
      { q with mask := mask, order := [], dcm := byteAt d 25, dsm := byteAt d 26,
               shadowAllow := if first then byteAt d 24 else q.shadowAllow,
               cgen := if first then (q.cgen + 1) % 256 else q.cgen }
    let s4 := (s3.showPartition p).fset .ringPstatusFormed p 1
    let s5 := if first then s4.fset .strmPModeSa p (byteAt d 24) else s4
    let s6 := s5.raiseGen p
    (s6.logCmd m r 2 old (s6.formSide p), .logged (toBytes 8 mask))

/-- Layers, deckle reserves and sessions that a partition holds are freed (R384). -/
def State.freeHoldings (s : State) (p : Nat) : State :=
  let s1 := (s.layers.filter fun l => l.part = p).foldl (fun (t : State) l =>
    if l.placement ≠ 0 then (t.freePlace l.placement).uncharge p 1 l.bytes
    else if l.t2 ≠ 0 then { t with t2alloc := t.t2alloc.filter fun e => e.1 ≠ l.t2 }.uncharge p 2 l.bytes
    else t) s
  let s2 := (s1.reserves.filter fun x => x.1 = p).foldl (fun t x => (t.freePlace x.2.1).uncharge p 1 x.2.2) s1
  let s3 : State := { s2 with layers := s2.layers.filter fun (l : Layer) => l.part ≠ p, reserves := s2.reserves.filter fun x => x.1 ≠ p }
  (s3.vsess.filter fun e => e.2.isOpen && e.2.part = p).foldl (fun t e => t.closeSess e.1) s3

/-- PART_DISSOLVE (R384). Its modes and seed stand for the next formation (DEDUCED: R384 names what a dissolution ends, and they are not
among it). -/
def cmdPartDissolve (s : State) (m : Nat) (r : MbxReq) : State × Ans :=
  let p := byteAt r.data 5
  match s.askAllCpls p with
  | some t => (t, .later)
  | none =>
    let old := s.formSide p
    let s1 := ((s.endWork p true).dropAllRefs p).freeHoldings p
    let s2 := s1.releaseSkeins (s.part p).mask
    let s3 := s2.setPart p fun q => { q with mask := 0, dcm := 0, dsm := 0, order := [], root := 0, maps := [], mapsLater := [],
                                             image0 := 0, image1 := 0, imageBytes := 0, imbHigh := 0, imbLow := 0 }
    let s4 := (((s3.showPartition p).fset .ringPstatusFormed p 0).fset .strmPModeClass p 0).raiseGen p
    (s4.logCmd m r 2 old [], .logged [])

/-- PART_QUERY. -/
def cmdPartQuery (s : State) (_m : Nat) (r : MbxReq) : State × Ans :=
  let p := byteAt r.data 5
  let q := s.part p
  let bit (b : Bool) : List Byte := [if b then 1 else 0]
  (s, .now 0 (toBytes 8 q.mask ++ toBytes 1 (s.fget .strmPModeClass p) ++ toBytes 1 q.subn ++ toBytes 1 q.shadowAllow ++ toBytes 1 q.residency ++
    toBytes 1 (s.fget .tierPHashHmode p) ++ toBytes 1 q.mirrorOn ++ toBytes 2 (s.fget .tierPHashSeed p) ++ toBytes 2 q.mirrorDev ++
    toBytes 1 q.mirrorPart ++ bit (!q.seed.isEmpty) ++ bit (s.jobOpen p) ++ toBytes 3 0 ++
    [1, 2, 3].flatMap (fun t => toBytes 8 (s.fget (quotaFld t) p)) ++ [1, 2, 3].flatMap (fun t => toBytes 8 (s.fget (useFld t) p))))

/-- PART_SET (R36, R385): pending until a job starts, or until the next doff barrier for SHADOW_ALLOW. -/
def cmdPartSet (s : State) (m : Nat) (r : MbxReq) : State × Ans :=
  let d := r.data
  let p := byteAt d 5
  let id := byteAt d 16
  let v := fld d 24 8
  let q := s.part p
  let old := if id = 1 then q.subn else if id = 2 then q.shadowAllow else q.residency
  let s1 := s.setPart p fun q => if id = 1 then { q with subn := v } else if id = 2 then { q with shadowAllow := v } else { q with residency := v }
  (s1.logCmd m r (3 + id) (toBytes 1 old) (toBytes 1 v), .logged (toBytes 8 old))

/-- The three quotas in units of 64 KiB (R575). -/
def State.quotaSide (s : State) (p : Nat) : List Byte := [1, 2, 3].flatMap fun t => toBytes 5 (s.fget (quotaFld t) p / 0x10000)

/-- PART_QUOTA (R249). -/
def cmdPartQuota (s : State) (m : Nat) (r : MbxReq) : State × Ans :=
  let d := r.data
  let p := byteAt d 5
  let s1 := [1, 2, 3].foldl (fun t i =>
    let v := fld d (8 + 8 * i) 8
    if v = 2 ^ 64 - 1 then t else t.fset (quotaFld i) p v) s
  (s1.logCmd m r 3 (s.quotaSide p) (s1.quotaSide p), .logged [])

/-- PART_SEED (R213, R385). -/
def cmdPartSeed (s : State) (m : Nat) (r : MbxReq) : State × Ans :=
  let d := r.data
  let p := byteAt d 5
  let held := (s.part p).seed
  let side (x : List Byte) : List Byte := if x.isEmpty then [] else (sha384 x).take 16
  match byteAt d 16 with
  | 0 => (s, .now 0 (if held.isEmpty then [0] else padTo 8 [1] ++ held))
  | 1 =>
    let v := (d.drop 24).take 32
    ((s.setPart p fun q => { q with seed := v }).logCmd m r 8 (side held) (side v), .logged [])
  | _ => ((s.setPart p fun q => { q with seed := [] }).logCmd m r 8 (side held) [], .logged [])

/-! ## The change log -/

/-- An entry as a reader sees it (R392). -/
def redact (m : Nat) (e : List Byte) : List Byte :=
  if m ≥ 64 || byteAt e 17 = m then e
  else e.take 8 ++ List.replicate 9 0 ++ (e.drop 17).take 3 ++ List.replicate 60 0 ++ (e.drop 80).take 96 ++ List.replicate 16 0

/-- Lowest index retained. -/
def State.logLow (s : State) : Nat := s.changeNext - s.changeLog.length

/-- Entries from an index upward, at most `n`. -/
def logFrom (l : List (List Byte)) (low lo n : Nat) : List (List Byte) := (l.reverse.drop (lo - low)).take n

/-- LOG_READ (R392). -/
def cmdLogRead (s : State) (m : Nat) (r : MbxReq) : State × Ans :=
  let d := r.data
  let lo := max (fld d 16 8) s.logLow
  if m = 65 then
    match logFrom s.changeLog s.logLow lo 1 with
    | [] => (s, .now 0 (toBytes 8 lo ++ toBytes 2 0))
    | e :: _ => (s, .now 0 (toBytes 8 (lo + 1) ++ padTo 8 (toBytes 2 1) ++ e))
  else
    let p := byteAt d 5
    let es := (logFrom s.changeLog s.logLow lo (fld d 30 2)).map (redact m)
    let bytes := es.flatten
    match s.cmdProbe m p (fld d 24 6) bytes.length with
    | (s1, some a) => (s1, a)
    | (s1, none) =>
      (s1.vstoreGo p (fld d 24 6) bytes (bytes.length / 4096 + 2),
        .now 0 (toBytes 8 (lo + es.length) ++ padTo 8 (toBytes 2 es.length) ++ toBytes 8 s.logLow))

/-- LOG_HEAD (R390). -/
def cmdLogHead (s : State) (_m : Nat) (_r : MbxReq) : State × Ans :=
  (s, .now 0 (toBytes 8 (s.changeNext + 2 ^ 64 - 1) ++ s.chain ++ toBytes 8 s.logLow))

/-! ## Commands marked L -/

/-- A command marked L has its whole effect at its completion (R377): only its checks are made when it is applied. -/
def lcmd (f : State → Nat → MbxReq → State × Ans) (s : State) (m : Nat) (r : MbxReq) : State × Ans :=
  match f s m r with
  | (_, .running _) => (s, .running [])
  | q => q

/-- A command marked L that moves bytes between tiers takes a stream context for it, and waits while none is free (R254). -/
def tcmd (f : State → Nat → MbxReq → State × Ans) (s : State) (m : Nat) (r : MbxReq) : State × Ans :=
  match f s m r with
  | (_, .running _) => match s.takeTier m r with
    | some t => (t, .running [])
    | none => (s, .later)
  | q => q

/-- The effect of a command at its completion. -/
def State.finishL (s : State) (m : Nat) (r : MbxReq) (f : State → Nat → MbxReq → State × Ans)
    (log : State → List Byte → State) (logged : Bool) : State :=
  match f s m r with
  | (s1, .running pl) => (log s1 pl).endL m r 0 pl logged
  | (s1, .now st pl) => s1.endL m r st pl false
  | (s1, .later) => s1
  | (s1, .logged pl) => s1.endL m r 0 pl true

/-- OBJ_STAGE at its completion (R248, R292, R377): the bytes are read, the copy is written, and the entry is appended. -/
def State.finishStage (s : State) (m : Nat) (r : MbxReq) : State :=
  let d := r.data
  let p := byteAt d 5
  let tier := byteAt d 20
  match s.lookup m (fld d 16 4) with
  | .inr e => s.endL m r e [] false
  | .inl i =>
    match s.cmdRead m p (fld d 40 6) (fld d 32 8) with
    | (s1, .inr (.now st pl)) => s1.endL m r st pl false
    | (s1, .inr _) => s1
    | (s1, .inl data) =>
      let side (t : State) : List Byte := toBytes 4 (fld d 16 4) ++ toBytes 1 tier ++ toBytes 3 0 ++ toBytes 4 (t.obj i).version
      match s1.stage p i tier (fld d 24 8) data with
      | (s2, .inr e) => s2.endL m r e [] false
      | (s2, .inl v) => (s2.logCmd m r 0xE (side s1) (side s2)).endL m r 0 [BitVec.ofNat 8 v] true

/-- Commands marked L of groups 0x03 and 0x07 end (R377). -/
def State.lComplete (s : State) (mb : Mbx) (seq : Nat) : State :=
  let m := mbxNum mb
  if !s.millServes m then s
  else match (s.mbx m).reqs.find? fun r => r.phase = 1 && fld r.data 2 2 = seq with
  | none => s
  | some r =>
    -- what it moves has been issued (R254)
    if !s.tierDone m r.stamp then s
    else match fld r.data 0 2 with
    | 0x303 => s.finishL m r cmdObjPromote (fun t _ => t) false
    | 0x306 => s.finishStage m r
    | 0x30A => s.finishL m r cmdLoadModel (fun t pl => t.logCmd m r 0xE [] ((r.data.drop 16).take 8 ++ (pl.drop 8).take 8)) true
    | 0x702 =>
      let i := fld r.data 16 4 % 2 ^ 24
      if s.vframes.any fun f => f.sess = i then s
      else ((s.closeSess i).logCmd m r 0xF (toBytes 4 (fld r.data 16 4)) []).endL m r 0 [] true
    | _ => s

/-! ## The mill -/

/-- MILL_FAULT (R455, R466): RESTARTING is set in every mailbox and the fault is logged. -/
def State.millFault (s : State) (core : Nat) : State :=
  if !s.millUp then s
  else
    let s1 := (List.range 65).foldl (fun t m => t.fset .mbxStatusRestarting m 1) s
    (s1.logFault { cls := 7, action := 8, unit := unitWord 9 core }).hardFault none (unitWord 9 core) 7

/-- MILL_FAULT. -/
def execMillFault (core : Fin 4) (s : State) : Res := .next (s.millFault core)

/-- Requests accepted and not answered when the mill restarts: RETRY where the log holds no entry (R377). -/
def State.retryAll (s : State) : State :=
  s.mbxs.foldl (fun (t : State) (e : Nat × Mailbox) =>
    e.2.reqs.foldl (fun (u : State) (r : MbxReq) =>
      if r.phase = 0 then u.answer e.1 r (.now 0xF [])
      else if r.phase = 1 then
        let u1 := if fld r.data 0 2 = 0x702 then u.setVs (fld r.data 16 4 % 2 ^ 24) fun v => { v with closing := false } else u
        -- a restore that has stopped nothing yet is dropped with its command
        let u2 : State := { u1 with recoveries := u1.recoveries.filter fun (x : Recovery) =>
          !(x.request = some (e.1, r.stamp) && x.phase = 0 && x.cls = 0) }
        u2.endL e.1 r 0xF [] false
      else u) t) s

/-- The mill serves the mailboxes again: RESTARTING clears and held requests are taken (R377). -/
def State.millBack (s : State) : State :=
  let s1 := (List.range 65).foldl (fun t m => t.fset .mbxStatusRestarting m 0) s
  let s2 := s1.retryAll
  -- a recovery that the restart interrupted starts again at step 1 (R466)
  let s3 : State := { s2 with recoveries := s2.recoveries.map fun (x : Recovery) => { x with phase := 0 } }
  -- jobs whose end waited for the mill end (R26)
  let s4 := (List.range 64).foldl (fun (t : State) p => t.settleJobs p) s3
  s4.mbxs.foldl (fun (t : State) (e : Nat × Mailbox) => t.releaseHeld e.1) s4

/-! ## The imbalance monitor -/

/-- Channels of a partition's placements. -/
def State.partChannels (s : State) (p : Nat) : List Nat :=
  let m := (s.usedPlacements.filter fun q => q.part = p).foldl (fun a q => a ||| q.chset) 0
  (List.range 256).filter fun c => m.testBit c

/-- One partition's counts of a 1 ms window (R238). -/
def State.imbPart (s : State) (p : Nat) (counts : List (Nat × Nat)) : State :=
  let chs := s.partChannels p
  let of (c : Nat) : Nat := (counts.filter fun x => x.1 = c).foldl (fun a x => a + x.2) 0
  let total := counts.foldl (fun a x => a + x.2) 0
  let sum := chs.foldl (fun a c => a + of c) 0
  if total < 65536 || sum = 0 then s.setPart p fun q => { q with imbHigh := 0, imbLow := 0 }
  else
    let hot := chs.foldl (fun b c => if of c > of b then c else b) (chs.headD 0)
    let high := of hot * chs.length > 4 * sum
    let s1 := s.setPart p fun q => if high then { q with imbHigh := q.imbHigh + 1, imbLow := 0 } else { q with imbHigh := 0, imbLow := q.imbLow + 1 }
    if high && (s1.part p).imbHigh ≥ 10 && s1.fget .tierPImbImbNow p = 0 then
      let ratio := min 0xFFFF (16 * of hot * chs.length / sum)
      let s2 := ((((s1.fset .tierPImbImb p 1).fset .tierPImbImbNow p 1).fset .tierPImbHotch p hot).fset .tierPImbRatio p ratio).fadd .tierPImbEvents p 1
      s2.partEvent p 0x982 (toBytes 1 hot ++ [0] ++ toBytes 2 ratio)
    else if !high && (s1.part p).imbLow ≥ 10 then s1.fset .tierPImbImbNow p 0
    else s1

/-- IMBALANCE_WINDOW (R238). -/
def State.imbalanceWindow (s : State) (counts : List (Nat × Nat × Nat)) : State :=
  s.formedParts.foldl (fun t p => t.imbPart p ((counts.filter fun x => x.1 = p).map (·.2))) s

/-- IMBALANCE_WINDOW. -/
def execImbalanceWindow (counts : List (Fin 64 × Fin 256 × Nat)) (s : State) : Res :=
  .next (s.imbalanceWindow (counts.map fun x => (x.1.val, x.2.1.val, x.2.2)))

/-! ## Meanings -/

/-- DEV_INFO. -/
def execDevInfo (m : Mbx) (s : State) : Res := .next (s.runCommand m 0x101 cmdDevInfo)
/-- DEV_SENSORS. -/
def execDevSensors (m : Mbx) (s : State) : Res := .next (s.runCommand m 0x102 cmdDevSensors)
/-- PART_QUERY. -/
def execPartQuery (m : Mbx) (s : State) : Res := .next (s.runCommand m 0x203 cmdPartQuery)
/-- PART_SET. -/
def execPartSet (m : Mbx) (s : State) : Res := .next (s.runCommand m 0x204 cmdPartSet)
/-- PART_QUOTA. -/
def execPartQuota (m : Mbx) (s : State) : Res := .next (s.runCommand m 0x205 cmdPartQuota)
/-- PART_SEED. -/
def execPartSeed (m : Mbx) (s : State) : Res := .next (s.runCommand m 0x206 cmdPartSeed)
/-- OBJ_CREATE. -/
def execObjCreate (m : Mbx) (s : State) : Res := .next (s.runCommand m 0x301 cmdObjCreate)
/-- OBJ_SHARE. -/
def execObjShare (m : Mbx) (s : State) : Res := .next (s.runCommand m 0x302 cmdObjShare)
/-- OBJ_PROMOTE. -/
def execObjPromote (m : Mbx) (s : State) : Res := .next (s.runCommand m 0x303 (tcmd cmdObjPromote))
/-- OBJ_EVICT. -/
def execObjEvict (m : Mbx) (s : State) : Res := .next (s.runCommand m 0x304 cmdObjEvict)
/-- OBJ_PIN. -/
def execObjPin (m : Mbx) (s : State) : Res := .next (s.runCommand m 0x305 cmdObjPin)
/-- OBJ_STAGE. -/
def execObjStage (m : Mbx) (s : State) : Res := .next (s.runCommand m 0x306 (tcmd cmdObjStage))
/-- OBJ_QUERY. -/
def execObjQuery (m : Mbx) (s : State) : Res := .next (s.runCommand m 0x307 cmdObjQuery)
/-- OBJ_DELETE. -/
def execObjDelete (m : Mbx) (s : State) : Res := .next (s.runCommand m 0x308 cmdObjDelete)
/-- HASH_SET. -/
def execHashSet (m : Mbx) (s : State) : Res := .next (s.runCommand m 0x309 cmdHashSet)
/-- LOAD_MODEL. -/
def execLoadModel (m : Mbx) (s : State) : Res := .next (s.runCommand m 0x30A (tcmd cmdLoadModel))
/-- LOG_READ. -/
def execLogRead (m : Mbx) (s : State) : Res := .next (s.runCommand m 0xA01 cmdLogRead)
/-- LOG_HEAD. -/
def execLogHead (m : Mbx) (s : State) : Res := .next (s.runCommand m 0xA02 cmdLogHead)

end Sys2Proof.Machine
end

