-- ==== Sys2Proof/Machine/Link.lean ====
section
/-! DEFINITION. The ports of the fabric: bring-up (R418, R419, R560), what a port does with a received frame before routing (R423,
R426, R428, R447), link errors and timers (R428, R429), handshake and encryption (R448 to R451), and the port commands (R419, R454). -/

namespace Sys2Proof.Machine

/-- Ticks of ACLK in a second (R8, R512). -/
def tickSec : Nat := 25000000

/-- Set or clear a READY_STATUS bit (R504). -/
def State.setReady (s : State) (bit : Nat) (on : Bool) : State :=
  let v := s.fget .glbReadyStatus 0
  s.fset .glbReadyStatus 0 (if on then v ||| 2 ^ bit else v - (v &&& 2 ^ bit))

/-! ## Going down and coming up -/

/-- Start bring-up (R419): training, if a cable is present and nothing holds the port. -/
def State.portTrain (s : State) (p : Nat) : State :=
  let q := s.port p
  if q.held || q.stopped then s.fset .flkPortState p 1
  else if !q.present then (s.fset .flkPortState p 1).fset .flkPortCause p 2
  else
    let fresh : Port := { expect := q.expect, present := true, fails := q.fails, malTimes := [], replayTimes := q.replayTimes }
    ((s.setPort p fun _ => fresh).fset .flkPortState p 2).fset .flkPortEnc p 0

/-- Frames of a port that is gone take another route (R438). Where there is none, a request of another device is answered, and one of this
module is sent again at its end-to-end timeout (R433). -/
def State.reroute (s : State) (l : List FabFrame) : State :=
  l.foldl (fun (t : State) f =>
    let ty := byteAt f.header 0
    if ty ≤ 5 || ty = 0x15 then
      let r := t.routeOut { f with header := patchAt f.header 10 (toBytes 1 (byteAt f.header 10 + 1)) }
      if r.2 || t.ownDev = some (hdrSrc f.header) then r.1 else t.noRoute f
    else t) s

/-- The port leaves its state with a cause (R418): frames move, its session keys are erased (R535), the fault of class
LINK is logged and reported where it leaves UP (R455, R473). -/
def State.portLeave (s : State) (p st cause : Nat) : State :=
  let q := s.port p
  let up := s.fget .flkPortState p = 4
  -- a quarantined port still carries VC3 (R447)
  let moved := (q.kept.map (·.f) ++ q.queue).filter fun f => st ≠ 5 || hdrVc f.header ≠ 3
  let s1 := ((s.fset .flkPortState p st).fset .flkPortCause p cause).setPort p fun q =>
    { q with kept := [], queue := [], used := [], ret := [], hs := 0, again := false, keyTx := 0, keyRx := 0 }
  let s2 := s1.reroute moved
  if up then
    (((s2.setReady (18 + p) false).logFault { cls := 5, action := 7, unit := unitWord 7 p, detail := p }).hardFault none (unitWord 7 p) 5)
  else s2

/-- The port goes DOWN, and its bring-up starts again (R419). -/
def State.portDown (s : State) (p cause : Nat) : State := (s.portLeave p 1 cause).portTrain p

/-- An attempt of bring-up fails (R419): after three within 1 s the port stays DOWN. -/
def State.portFail (s : State) (p cause : Nat) : State :=
  let s1 := s.portLeave p 1 cause
  let l := (s.time :: (s.port p).fails).filter fun t => s.time < t + tickSec
  let s2 := s1.setPort p fun q => { q with fails := l, held := decide (l.length ≥ 3) }
  s2.portTrain p

/-! ## Handshake (R448, R449) -/

/-- A body padded to a multiple of 64 B, at least one. -/
def pad64 (l : List Byte) : List Byte := padTo (64 * max 1 (ceilDiv l.length 64)) l

/-- Send a frame of one hop (R422). -/
def State.sendHop (s : State) (p ty opf xinfo : Nat) (body : List Byte) : State :=
  s.portOut p ⟨fabHeader ty body.length 0 0 0 0 0 0 0 0 opf xinfo, body⟩

/-- Own HELLO (R448): device number, TGEN, NONCE and ENCREQ in this order (PRESUMED). -/
def State.helloBody (s : State) (p : Nat) (nonce : List Byte) : List Byte :=
  pad64 (toBytes 2 s.devnum ++ toBytes 1 (s.fget .flkIdTgen 0) ++ nonce ++ toBytes 1 (s.fget .flkPortEncreq p))

/-- A handshake begins: HELLO is sent. While the noise source is FAILED none starts, and the port goes DOWN (R535). -/
def State.startHandshake (s : State) (p : Nat) (again : Bool) : State :=
  if s.noiseFailed then (if s.fget .flkPortState p = 4 then s.portDown p 6 else s.portFail p 6)
  else
  let nonce := s.conditioned 32
  let body := s.helloBody p nonce.2
  (nonce.1.setPort p fun q => { q with hs := 1, again := again, mine := body, theirs := [], parts := [], nparts := 0 }).sendHop p 0x11 0 0 body

/-- The handshake fails (R449). -/
def State.handshakeFail (s : State) (p cause : Nat) : State :=
  if s.fget .flkPortState p = 4 then s.portDown p cause else s.portFail p cause

/-- A handshake runs on the port. -/
def State.inHandshake (s : State) (p : Nat) : Bool := s.fget .flkPortState p = 3 || (s.port p).again

/-- HELLO arrives. -/
def State.gotHello (s : State) (p : Nat) (body : List Byte) : State :=
  let q := s.port p
  let dev := fld body 0 2
  if !s.inHandshake p || q.hs ≠ 1 || body.length ≠ 64 then s.handshakeFail p 6
  else
    let s1 := (s.fset .flkPortPartner p dev).fadd .secSigns 0 1
    if q.expect ≠ 0xFFFF && dev ≠ q.expect then s1.handshakeFail p 7
    else
      let s2 := s1.draw.setPort p fun q => { q with hs := 2, theirs := body, encNext := s1.fget .flkPortEncreq p = 1 || byteAt body 35 = 1 }
      let auth := pad64 (Config.authBody s1.fresh q.mine body)
      let n := ceilDiv auth.length 1024
      (List.range n).foldl (fun t i => t.sendHop p 0x12 i n ((auth.drop (1024 * i)).take 1024)) s2

/-- Own lifecycle and partner lifecycle that a handshake accepts (R535). -/
def lifecycleAccepts (own partner : Nat) : Bool :=
  match own with
  | 1 => partner = 1 || partner = 2
  | 2 => partner = 2
  | 3 => partner = 1 || partner = 3
  | _ => false

/-- A part of AUTH arrives. -/
def State.gotAuth (s : State) (p opf xinfo : Nat) (body : List Byte) : State :=
  let q := s.port p
  if !s.inHandshake p || q.hs ≠ 2 || opf ≠ q.nparts || xinfo ≤ opf then s.handshakeFail p 6
  else
    let parts := q.parts ++ body
    let s1 := s.setPort p fun q => { q with parts := parts, nparts := q.nparts + 1 }
    if opf + 1 < xinfo then s1
    else if !Config.authOk q.mine q.theirs parts || !lifecycleAccepts (s.fget .secLc 0) (Config.partnerLc parts) then s1.handshakeFail p 6
    else (s1.setPort p fun q => { q with hs := 3 }).sendHop p 0x13 0 0 (pad64 (Config.finMac true q.mine q.theirs parts))

/-- FIN arrives: the port is UP under the new keys. -/
def State.gotFin (s : State) (p : Nat) (body : List Byte) : State :=
  let q := s.port p
  if !s.inHandshake p || q.hs ≠ 3 || body ≠ pad64 (Config.finMac false q.mine q.theirs q.parts) then s.handshakeFail p 6
  else
    let s1 := s.setPort p fun q =>
      { q with hs := 4, again := false, fails := [], keyTx := Config.linkKey true q.mine q.theirs q.parts,
               keyRx := Config.linkKey false q.mine q.theirs q.parts, newRx := false, nctrTx := 0 }
    let s2 := ((s1.fset .flkPortEnc p (if q.encNext then 1 else 0)).fset .flkPortState p 4).setReady (18 + p) true
    s2.portPump p (s2.port p).queue.length

/-! ## Received frames before routing -/

/-- Fields of a header that R421 reserves, and hop fields' reserved bits, are zero. -/
def reservedOk (h : List Byte) : Bool :=
  byteAt h 1 % 4 = 0 && hdrDst h < 4096 && hdrSrc h < 4096 && byteAt h 8 < 64 && byteAt h 9 < 64 && byteAt h 18 < 4

/-- A frame is malformed (R423): its TYPE, VC, reserved bits, unused fields, LEN or OPF. -/
def frameBad (f : FabFrame) : Bool :=
  let h := f.header
  let ty := byteAt h 0
  let len := hdrLen h
  let addr := bigFld h 20 6
  let opf := bigFld h 26 2
  let x := bigFld h 28 4
  let byType := match ty with
    | 1 => len ≥ 8 && opf = 0 && x = 0
    | 2 => len = 8 && addr = 0 && x = 0 && opf % 256 < 3
    | 3 => opf = 0
    | 4 => true
    | 5 => addr = 0 && x = 0 && 1 ≤ opf && opf ≤ 32 && len = 8 * opf
    | 0x10 => addr = 0 && opf = 0 && x = 0 && len = 0
    | 0x11 | 0x13 | 0x14 => addr = 0 && opf = 0 && x = 0
    | 0x12 => addr = 0
    | 0x15 => addr = 0 && opf < 128 && len = 0
    | _ => false
  !byType || hdrVc h ≠ typeVc ty || !reservedOk h || len > 1024 || len % 8 ≠ 0 || len ≠ f.payload.length

/-- LACK and the credit return of a received frame (R426, R428): lane 0 of the channel takes credits first. -/
def State.hopFields (s : State) (p : Nat) (h : List Byte) : State :=
  let lack := bigFld h 16 2
  let cvc := byteAt h 18 % 4
  let n := byteAt h 19
  s.setPort p fun q =>
    let u0 := SMap.get 0 q.used (2 * cvc)
    let a := min u0 n
    { q with
      kept := q.kept.filter fun k => (lack + 65536 - k.seq - 1) % 65536 ≥ 32768,
      used := SMap.set 0 (SMap.set 0 q.used (2 * cvc) (u0 - a)) (2 * cvc + 1) (SMap.get 0 q.used (2 * cvc + 1) - (n - a)),
      late := if n = 0 then q.late else q.late - (q.late &&& 2 ^ cvc) }

/-- Credits of a received frame are to be returned. -/
def State.oweCredit (s : State) (p : Nat) (f : FabFrame) : State :=
  let vc := hdrVc f.header % 4
  s.setPort p fun q => { q with ret := SMap.set 0 q.ret vc (SMap.get 0 q.ret vc + s.frameUnits p f) }

/-- Return what is owed in LINK frames (R426). -/
def State.returnCredits (s : State) (p : Nat) : Nat → State
  | 0 => s
  | n + 1 => if (s.port p).ret.isEmpty || !s.portCarries p 3 then s else (s.sendHop p 0x10 0 0 []).returnCredits p n

/-- Quarantine of a port (R447): it carries VC3 only. -/
def State.portQuarantine (s : State) (p : Nat) : State :=
  let q := s.port p
  let s1 := s.portLeave p 5 9
  s1.setPort p fun _ => { q with queue := q.queue.filter fun f => hdrVc f.header = 3, kept := q.kept.filter fun k => hdrVc k.f.header = 3, hs := 4,
                                 used := q.used.filter fun e => e.1 / 2 = 3, malTimes := [] }

/-- A malformed frame is counted; too many within a second quarantine the port (R423, R447). -/
def State.malformedFrame (s : State) (p : Nat) : State :=
  let times := (s.time :: (s.port p).malTimes).filter fun t => s.time < t + tickSec
  let s1 := (s.fadd .flkPMalformed p 1).setPort p fun q => { q with malTimes := times }
  let thr := s.fget .flkMalThresh 0
  if thr ≠ 0 && times.length ≥ thr && s.fget .flkPortState p = 4 then s1.portQuarantine p else s1

/-- Every TYPE that R421 lists. -/
def listedType (t : Nat) : Bool := [1, 2, 3, 4, 5, 0x10, 0x11, 0x12, 0x13, 0x14, 0x15].contains t

/-- The port takes a frame whose LSEQ is the next (R426, R428): its hop fields act, its credits are owed, its bytes are counted, and so are
the codewords that its FEC corrected. -/
def State.takeFrame (s : State) (p : Nat) (f : FabFrame) : State :=
  let s1 := (s.setPort p fun q => { q with rxSeq := (q.rxSeq + 1) % 65536 }).hopFields p f.header
  ((s1.oweCredit p f).fadd .flkPRxbytes p f.payload.length).countCorrected .flkPFecCorr p

/-- The first frame with KEYID flipped turns the receiving direction to its new key (R451). -/
def State.flipKey (s : State) (p : Nat) (h : List Byte) : State :=
  if bitAt (byteAt h 1) 2 && (s.port p).newRx && bitField (byteAt h 1) 3 1 ≠ (s.port p).idRx then
    s.setPort p fun q => { q with idRx := 1 - q.idRx, newRx := false }
  else s

/-- After a frame: what waits is sent, and what is owed goes back in LINK frames, but for a LINK frame alone (R426). -/
def State.afterFrame (s : State) (p : Nat) (f : FabFrame) : State :=
  let s1 := s.portPump p (s.port p).queue.length
  if byteAt f.header 0 = 0x10 && !frameBad f then s1 else s1.returnCredits p 4

/-- A port in this state takes frames of this TYPE: VC3 from HANDSHAKE on, the others once it is UP (R418). -/
def carriesType (st hs t : Nat) : Bool := typeVc t = 3 || (st = 4 && hs = 4)

/-- A frame arrives on a port (R423, R426, R428). A row of another TYPE leaves it alone; an unlisted TYPE is malformed in any row. A frame
of a channel that the port does not carry, or out of LSEQ order, is discarded. `k` handles a frame that is in order and well formed. -/
def State.rxFrame (s : State) (p ty : Nat) (fr : Frame) (k : State → FabFrame → State) : State :=
  let f : FabFrame := ⟨fr.header, fr.payload⟩
  let t := byteAt f.header 0
  let st := s.fget .flkPortState p
  if f.header.length ≠ 32 || (listedType t && t ≠ ty) then s
  else if st < 3 || bigFld f.header 14 2 ≠ (s.port p).rxSeq then s
  else
    let s2 := s.takeFrame p f
    (if frameBad f then s2.malformedFrame p
     else if !carriesType st (s2.port p).hs t then s2
     else k (s2.flipKey p f.header) f).afterFrame p f

/-- LINK (R426). -/
def execLink (p : Fin 8) (f : Frame) (s : State) : Res := .next (s.rxFrame p 0x10 f fun u _ => u)

/-- HELLO (R448). -/
def execHello (p : Fin 8) (f : Frame) (s : State) : Res := .next (s.rxFrame p 0x11 f fun u x => u.gotHello p x.payload)

/-- AUTH (R448). -/
def execAuth (p : Fin 8) (f : Frame) (s : State) : Res :=
  .next (s.rxFrame p 0x12 f fun u x => u.gotAuth p (bigFld x.header 26 2) (bigFld x.header 28 4) x.payload)

/-- FIN (R448). -/
def execFin (p : Fin 8) (f : Frame) (s : State) : Res := .next (s.rxFrame p 0x13 f fun u x => u.gotFin p x.payload)

/-- REKEY (R451): an answer to our own turns our sending direction to the new key; otherwise the partner's direction gets a new key, used
from its first frame with KEYID flipped. -/
def State.gotRekey (s : State) (p : Nat) (body : List Byte) : State :=
  let q := s.port p
  if s.fget .flkPortState p ≠ 4 || q.hs ≠ 4 then s
  else if q.rekeying then
    s.setPort p fun q => { q with rekeying := false, keyTx := Config.rekeyKey true q.keyTx body, idTx := 1 - q.idTx }
  else
    (s.draw.setPort p fun q => { q with keyRx := Config.rekeyKey false q.keyRx body, newRx := true }).sendHop p 0x14 0 0
      (pad64 (Config.rekeyBody s.fresh))

/-- REKEY. -/
def execRekey (p : Fin 8) (f : Frame) (s : State) : Res := .next (s.rxFrame p 0x14 f fun u x => u.gotRekey p x.payload)

/-- REKEY_INTERVAL (R451): on an encrypted link a REKEY of our direction is sent. -/
def execRekeyInterval (p : Fin 8) (s : State) : Res :=
  .next (if s.fget .flkPortState p = 4 && s.fget .flkPortEnc p = 1 && (s.port p).hs = 4 && !(s.port p).rekeying then
      (s.draw.setPort p fun q => { q with rekeying := true }).sendHop p 0x14 0 0 (pad64 (Config.rekeyBody s.fresh))
    else s)

/-- HANDSHAKE_TIMEOUT (R449). -/
def execHandshakeTimeout (p : Fin 8) (s : State) : Res := .next (if s.inHandshake p then s.handshakeFail p 6 else s)

/-! ## Training, signal and cable -/

/-- PORT_TRAINING_DONE (R419). -/
def execPortTrainingDone (p : Fin 8) (locked : Bool) (s : State) : Res :=
  .next (if s.fget .flkPortState p ≠ 2 then s
    else if locked then (s.fset .flkPortState p 3).startHandshake p false
    else s.portFail p 3)

/-- PORT_SIGNAL_LOSS (R416): any lane takes the whole port down. -/
def execPortSignalLoss (p : Fin 8) (s : State) : Res :=
  .next (match s.fget .flkPortState p with
    | 2 | 3 => s.portFail p 2
    | 4 | 5 => s.portDown p 2
    | _ => s)

/-- CABLE_PRESENT_CHANGE (R560): without a cable the port does not train and reads DOWN with cause NOSIGNAL. -/
def execCablePresentChange (p : Fin 8) (present : Bool) (s : State) : Res :=
  .next (
    let s1 := s.setPort p fun q => { q with present := present }
    let st := s.fget .flkPortState p
    if st = 0 then s1
    else if present then (if st = 1 then s1.portTrain p else s1)
    else if st ≥ 2 then s1.portDown p 2 else s1.fset .flkPortCause p 2)

/-! ## Link errors and timers (R428, R429) -/

/-- LINK_ERROR_FRAME: the frame is discarded and returns no credits. -/
def execLinkErrorFrame (p : Fin 8) (e : LinkError) (s : State) : Res :=
  .next (if s.fget .flkPortState p < 3 then s
    else match e with
    | .fec => s.fadd .flkPFecUncorr p 1
    | .auth => s.fadd .flkPErrAuthfail p 1
    | _ => s)

/-- LINK_ACK_TIMEOUT: every kept frame is replayed in order, each replay counted; a frame replayed 8 times in vain takes the port
DOWN. -/
def execLinkAckTimeout (p : Fin 8) (s : State) : Res :=
  .next (match (s.port p).kept with
    | [] => s
    | k :: _ =>
      if s.fget .flkPortState p < 3 then s
      else if k.replays ≥ 8 then s.portDown p 4
      else
        let ks := (s.port p).kept.map fun (x : KeptFrame) => { x with replays := x.replays + 1 }
        let n := ks.length
        let s1 := (s.setPort p fun q =>
          { q with kept := ks, replayTimes := (List.replicate n s.time ++ q.replayTimes.filter fun t => s.time < t + tickSec) }).fadd .flkPRetries p n
        ks.foldl (fun (t : State) x => t.wireSend p x.f x.seq) s1)

/-- Frames of a channel wait at a port and none has credits. -/
def State.starved (s : State) (p vc : Nat) : Bool :=
  s.portCarries p vc && ((s.port p).queue.any fun f => hdrVc f.header = vc) &&
    (s.port p).queue.all fun f => hdrVc f.header ≠ vc || !s.hasCredit p f

/-- CREDIT_TIMEOUT: new frames for the port take the alternate route. -/
def execCreditTimeout (p : Fin 8) (vc : Fin 4) (s : State) : Res :=
  .next (if s.starved p vc && !(s.port p).late.testBit vc then
      (s.setPort p fun q => { q with late := q.late ||| 2 ^ vc.val }).fadd .flkPErrCredto p 1
    else s)

/-- CREDIT_DEAD_TIME: the port goes DOWN with cause CREDIT. -/
def execCreditDeadTime (p : Fin 8) (s : State) : Res :=
  .next (if (List.range 4).any fun vc => (s.port p).late.testBit vc && s.starved p vc then s.portDown p 5 else s)

/-! ## Commands -/

/-- The 6 bytes of FAB_PORT's change-log side (R575). -/
def State.portSide (s : State) (p : Nat) : List Byte :=
  toBytes 1 p ++ toBytes 1 (if s.fget .flkPortState p = 0 then 0 else 1) ++ toBytes 1 (s.fget .flkPortEncreq p) ++ [0] ++ toBytes 2 (s.port p).expect

/-- FAB_PORT (R419, R447, R451). -/
def cmdFabPort (s : State) (m : Nat) (r : MbxReq) : State × Ans :=
  let d := r.data
  let p := byteAt d 16
  let enable := byteAt d 17 = 1
  let enc := byteAt d 18
  let exp := fld d 20 2
  let old := s.portSide p
  let st := s.fget .flkPortState p
  let changed := s.fget .flkPortEncreq p ≠ enc || (s.port p).expect ≠ exp
  let s1 := (s.fset .flkPortEncreq p enc).setPort p fun q => { q with expect := exp }
  let s2 :=
    if !enable then (if st = 0 then s1 else s1.portLeave p 0 1)
    else if st = 4 then (if changed then s1.startHandshake p true else s1)
    else
      let u := if st ≥ 2 then s1.portLeave p 1 (s1.fget .flkPortCause p) else s1.fset .flkPortState p 1
      (u.setPort p fun q => { q with fails := [], held := false }).portTrain p
  (s2.logCmd m r 0x0D old (s2.portSide p), .logged [])

/-- FAB_QUERY (R454). -/
def cmdFabQuery (s : State) (_m : Nat) (_r : MbxReq) : State × Ans :=
  let one (p : Nat) : List Byte :=
    let n := ((s.port p).replayTimes.filter fun t => s.time < t + tickSec).length
    toBytes 1 (s.fget .flkPortState p) ++ toBytes 1 (s.fget .flkPortEnc p + 2 * s.fget .flkPortEncreq p) ++
      toBytes 2 (s.fget .flkPortPartner p) ++ toBytes 1 (s.fget .flkPortCause p) ++ [0] ++ toBytes 2 (min 0xFFFF n)
  (s, .now 0 ((List.range 8).flatMap one))

/-- FAB_PORT. -/
def execFabPort (m : Mbx) (s : State) : Res := .next (s.runCommand m 0x602 cmdFabPort)
/-- FAB_QUERY. -/
def execFabQuery (m : Mbx) (s : State) : Res := .next (s.runCommand m 0x605 cmdFabQuery)

end Sys2Proof.Machine
end

