-- ==== Sys2Proof/Machine/Rv.lean ====
section
/-! DEFINITION. The scalar instruction set of a carding core (R178): RV64IMAFDC with Zicsr, as functions of one thread. R178 names
the RISC-V extensions; their encodings and results are those of the RISC-V standard (PRESUMED, log). -/

namespace Sys2Proof.Machine

/-! ## Registers of a thread -/

/-- Integer register; x0 reads as zero. -/
def Thread.rx (h : Thread) (r : Nat) : Nat := if r = 0 then 0 else SMap.get 0 h.x r
/-- Write an integer register; x0 discards. -/
def Thread.wx (h : Thread) (r v : Nat) : Thread := if r = 0 then h else { h with x := SMap.set 0 h.x r (v % 2 ^ 64) }
def Thread.rf (h : Thread) (r : Nat) : Nat := SMap.get 0 h.f r
def Thread.wf (h : Thread) (r v : Nat) : Thread := { h with f := SMap.set 0 h.f r (v % 2 ^ 64) }
/-- Accrued exception flags: NX 1, UF 2, OF 4, DZ 8, NV 16. -/
def Thread.raiseF (h : Thread) (fl : Nat) : Thread := { h with fcsr := h.fcsr ||| fl }

/-- A narrower value in a floating-point register, boxed with ones. -/
def nanBox (w v : Nat) : Nat := v % 2 ^ w + (2 ^ 64 - 2 ^ w)
/-- The value of a format in a floating-point register: the canonical NaN where it is not boxed. -/
def unbox (f : Flt) (v : Nat) : Nat :=
  if v / 2 ^ f.width = 2 ^ (64 - f.width) - 1 then v % 2 ^ f.width else f.nan

/-- Sign extension of `w` bits to 64. -/
def sx (w v : Nat) : Nat := wrapInt 64 (signedOf w v)

/-! ## Integer arithmetic of width `w` -/

/-- OP and OP-IMM by funct3: add or sub, sll, slt, sltu, xor, srl or sra, or, and. -/
def aluOp (w f3 : Nat) (alt : Bool) (a b : Nat) : Nat :=
  let sh := b % w
  match f3 with
  | 0 => if alt then wrapInt w ((a : Int) - b) else (a + b) % 2 ^ w
  | 1 => a * 2 ^ sh % 2 ^ w
  | 2 => if signedOf w a < signedOf w b then 1 else 0
  | 3 => if a < b then 1 else 0
  | 4 => a ^^^ b
  | 5 => if alt then wrapInt w (signedOf w a / 2 ^ sh) else a / 2 ^ sh
  | 6 => a ||| b
  | _ => a &&& b

/-- M by funct3: mul, mulh, mulhsu, mulhu, div, divu, rem, remu; division by zero and overflow as RISC-V defines them. -/
def mulDiv (w f3 : Nat) (a b : Nat) : Nat :=
  let sa := signedOf w a
  let sb := signedOf w b
  match f3 with
  | 0 => a * b % 2 ^ w
  | 1 => wrapInt w (sa * sb / 2 ^ w)
  | 2 => wrapInt w (sa * b / 2 ^ w)
  | 3 => a * b / 2 ^ w
  | 4 => if b = 0 then 2 ^ w - 1 else wrapInt w (sa.tdiv sb)
  | 5 => if b = 0 then 2 ^ w - 1 else a / b
  | 6 => if b = 0 then a else wrapInt w (sa.tmod sb)
  | _ => if b = 0 then a else a % b

/-- Atomic operations by funct5; `none` where unlisted. -/
def amoOp (w f5 : Nat) (a b : Nat) : Option Nat :=
  let sa := signedOf w a
  let sb := signedOf w b
  match f5 with
  | 0x00 => some ((a + b) % 2 ^ w)
  | 0x01 => some b
  | 0x04 => some (a ^^^ b)
  | 0x08 => some (a ||| b)
  | 0x0C => some (a &&& b)
  | 0x10 => some (if sb < sa then b else a)
  | 0x14 => some (if sa < sb then b else a)
  | 0x18 => some (min a b)
  | 0x1C => some (max a b)
  | _ => none

/-! ## Floating point with flags -/

/-- Rounding mode by its code. -/
def rndOf : Nat → Option Rnd
  | 0 => some .rne
  | 1 => some .rtz
  | 2 => some .rdn
  | 3 => some .rup
  | 4 => some .rmm
  | _ => none

/-- Rounding mode of an instruction: its rm field, or frm for 7. -/
def Thread.rm (h : Thread) (rm : Nat) : Option Rnd := if rm = 7 then rndOf (bitField h.fcsr 5 3) else rndOf rm

/-- A word and the flags its computation raises. -/
structure FRes where
  w : Nat
  fl : Nat := 0
  deriving DecidableEq, Repr, Inhabited

/-- One rounding with its flags; tininess is detected after rounding. -/
def fround (f : Flt) (r : Rnd) (v : Val) : FRes :=
  match v with
  | .fin n m e =>
    if m = 0 then { w := f.signBit n }
    else
      let g := f.mag r n m e
      let big := decide (g.1 > f.maxWord)
      let q : Int := (Nat.log2 m : Int) + e - f.mb
      let t := (roundMant r n m (e - q)).1
      let tiny := decide ((Nat.log2 t : Int) + q < 1 - f.bias)
      { w := f.enc r v,
        fl := (if big then 4 else 0) + (if tiny && g.2 then 2 else 0) + (if g.2 || big then 1 else 0) }
  | _ => { w := f.enc r v }

def Flt.isSnan (f : Flt) (w : Nat) : Bool := (f.dec w).isNan && !w.testBit (f.mb - 1)

/-- Flag NV. -/
def nvIf (b : Bool) : Nat := if b then 16 else 0

/-- Add, subtract, multiply, divide (0 to 3). -/
def farith (f : Flt) (r : Rnd) (op a b : Nat) : FRes :=
  let x := f.dec a
  let y := f.dec b
  let down := r == .rdn
  let v := match op with
    | 0 => x.addR down y
    | 1 => x.addR down y.neg
    | 2 => x.mul y
    | _ => x.div y
  let z := fround f r v
  let dz := op == 3 && y.isZero && !x.isZero && (match x with | .fin .. => true | _ => false)
  { z with fl := z.fl ||| nvIf (f.isSnan a || f.isSnan b || (v.isNan && !x.isNan && !y.isNan)) ||| (if dz then 8 else 0) }

/-- Fused multiply-add of words of format `f`, product and addend negated as asked, the addend and result in `g`. -/
def ffmaW (f g : Flt) (r : Rnd) (negP negC : Bool) (a b c : Nat) : FRes :=
  let x := f.dec a
  let y := f.dec b
  let z := g.dec c
  let p := x.mul y
  let v := (if negP then p.neg else p).addR (r == .rdn) (if negC then z.neg else z)
  let o := fround g r v
  let bad := f.isSnan a || f.isSnan b || g.isSnan c || (p.isNan && !x.isNan && !y.isNan) ||
    (v.isNan && !x.isNan && !y.isNan && !z.isNan)
  { o with fl := o.fl ||| nvIf bad }

def ffma (f : Flt) (r : Rnd) (negP negC : Bool) (a b c : Nat) : FRes := ffmaW f f r negP negC a b c

def fsqrtR (f : Flt) (r : Rnd) (a : Nat) : FRes :=
  let x := f.dec a
  let v := x.sqrt
  let z := fround f r v
  { z with fl := z.fl ||| nvIf (f.isSnan a || (v.isNan && !x.isNan)) }

/-- Minimum or maximum: a NaN gives way to a number, and -0 is below +0. -/
def fminmax (f : Flt) (mx : Bool) (a b : Nat) : FRes :=
  let x := f.dec a
  let y := f.dec b
  let fl := nvIf (f.isSnan a || f.isSnan b)
  if x.isNan && y.isNan then { w := f.nan, fl := fl }
  else if x.isNan then { w := b, fl := fl }
  else if y.isNan then { w := a, fl := fl }
  else
    let aLess := x.lt y || (x.eqv y && x.isNeg)
    { w := if aLess != mx then a else b, fl := fl }

/-- Compare: 0 less or equal, 1 less, 2 equal. -/
def fcmp (f : Flt) (op a b : Nat) : FRes :=
  let x := f.dec a
  let y := f.dec b
  let nan := x.isNan || y.isNan
  let t := match op with
    | 0 => x.le y
    | 1 => x.lt y
    | _ => x.eqv y
  { w := if t && !nan then 1 else 0, fl := nvIf (if op = 2 then f.isSnan a || f.isSnan b else nan) }

/-- Sign injection: 0 copy, 1 negate, 2 exclusive or. -/
def fsgnj (f : Flt) (op a b : Nat) : Nat :=
  let top := f.width - 1
  let s := match op with
    | 0 => b.testBit top
    | 1 => !b.testBit top
    | _ => b.testBit top != a.testBit top
  a % 2 ^ top + (if s then 2 ^ top else 0)

/-- FCLASS. -/
def fclass (f : Flt) (a : Nat) : Nat :=
  match f.dec a with
  | .inf n => if n then 1 else 0x80
  | .nan => if f.isSnan a then 0x100 else 0x200
  | .fin n m _ =>
    if m = 0 then (if n then 8 else 0x10)
    else if f.subnormal a then (if n then 4 else 0x20)
    else (if n then 2 else 0x40)

/-- Conversion to an integer of `w` bits, saturating. -/
def ftoInt (f : Flt) (r : Rnd) (w : Nat) (sg : Bool) (a : Nat) : FRes :=
  let lo : Int := if sg then -(2 ^ (w - 1) : Nat) else 0
  let hi : Int := if sg then (2 ^ (w - 1) : Nat) - 1 else (2 ^ w : Nat) - 1
  match f.dec a with
  | .nan => { w := wrapInt w hi, fl := 16 }
  | .inf n => { w := wrapInt w (if n then lo else hi), fl := 16 }
  | .fin n m e =>
    let q := roundMant r n m e
    let i : Int := if n then -(q.1 : Int) else q.1
    if i < lo then { w := wrapInt w lo, fl := 16 }
    else if i > hi then { w := wrapInt w hi, fl := 16 }
    else { w := wrapInt w i, fl := if q.2 then 1 else 0 }

/-- Conversion from an integer of `w` bits. -/
def intToF (f : Flt) (r : Rnd) (w : Nat) (sg : Bool) (a : Nat) : FRes :=
  fround f r (ofInt (if sg then signedOf w a else ((a % 2 ^ w : Nat) : Int)) 0)

/-- Conversion between formats. -/
def ftoF (f g : Flt) (r : Rnd) (a : Nat) : FRes :=
  let z := fround g r (f.dec a)
  { z with fl := z.fl ||| nvIf (f.isSnan a) }

/-! ## Compressed instructions -/

def encI (op f3 rd rs1 imm : Nat) : Nat := op + rd * 2 ^ 7 + f3 * 2 ^ 12 + rs1 * 2 ^ 15 + imm % 4096 * 2 ^ 20
def encS (op f3 rs1 rs2 imm : Nat) : Nat :=
  op + imm % 32 * 2 ^ 7 + f3 * 2 ^ 12 + rs1 * 2 ^ 15 + rs2 * 2 ^ 20 + imm / 32 % 128 * 2 ^ 25
def encR (op f3 f7 rd rs1 rs2 : Nat) : Nat := op + rd * 2 ^ 7 + f3 * 2 ^ 12 + rs1 * 2 ^ 15 + rs2 * 2 ^ 20 + f7 * 2 ^ 25
def encB (f3 rs1 rs2 imm : Nat) : Nat :=
  0x63 + bitField imm 11 1 * 2 ^ 7 + bitField imm 1 4 * 2 ^ 8 + f3 * 2 ^ 12 + rs1 * 2 ^ 15 + rs2 * 2 ^ 20 +
    bitField imm 5 6 * 2 ^ 25 + bitField imm 12 1 * 2 ^ 31
def encJ (rd imm : Nat) : Nat :=
  0x6F + rd * 2 ^ 7 + bitField imm 12 8 * 2 ^ 12 + bitField imm 11 1 * 2 ^ 20 + bitField imm 1 10 * 2 ^ 21 +
    bitField imm 20 1 * 2 ^ 31

/-- The 32-bit instruction that a 16-bit one stands for (C); `none` for reserved and unlisted encodings. -/
def expandC (w : Nat) : Option Nat :=
  let f3 := bitField w 13 3
  let rd := bitField w 7 5
  let rs2 := bitField w 2 5
  let rdq := 8 + bitField w 2 3
  let rsq := 8 + bitField w 7 3
  let imm6 := bitField w 2 5 + bitField w 12 1 * 32
  let simm6 := wrapInt 12 (signedOf 6 imm6)
  let offW := bitField w 6 1 * 4 + bitField w 10 3 * 8 + bitField w 5 1 * 64
  let offD := bitField w 10 3 * 8 + bitField w 5 2 * 64
  let spW := bitField w 4 3 * 4 + bitField w 12 1 * 32 + bitField w 2 2 * 64
  let spD := bitField w 5 2 * 8 + bitField w 12 1 * 32 + bitField w 2 3 * 64
  let ssW := bitField w 9 4 * 4 + bitField w 7 2 * 64
  let ssD := bitField w 10 3 * 8 + bitField w 7 3 * 64
  match w % 4, f3 with
  | 0, 0 =>
    let imm := bitField w 6 1 * 4 + bitField w 5 1 * 8 + bitField w 11 2 * 16 + bitField w 7 4 * 64
    if imm = 0 then none else some (encI 0x13 0 rdq 2 imm)
  | 0, 1 => some (encI 0x07 3 rdq rsq offD)
  | 0, 2 => some (encI 0x03 2 rdq rsq offW)
  | 0, 3 => some (encI 0x03 3 rdq rsq offD)
  | 0, 5 => some (encS 0x27 3 rsq rdq offD)
  | 0, 6 => some (encS 0x23 2 rsq rdq offW)
  | 0, 7 => some (encS 0x23 3 rsq rdq offD)
  | 1, 0 => some (encI 0x13 0 rd rd simm6)
  | 1, 1 => if rd = 0 then none else some (encI 0x1B 0 rd rd simm6)
  | 1, 2 => some (encI 0x13 0 rd 0 simm6)
  | 1, 3 =>
    if rd = 2 then
      let imm := bitField w 6 1 * 16 + bitField w 2 1 * 32 + bitField w 5 1 * 64 + bitField w 3 2 * 128 + bitField w 12 1 * 512
      if imm = 0 then none else some (encI 0x13 0 2 2 (wrapInt 12 (signedOf 10 imm)))
    else if imm6 = 0 then none
    else some (0x37 + rd * 2 ^ 7 + wrapInt 20 (signedOf 6 imm6) * 2 ^ 12)
  | 1, 4 =>
    match bitField w 10 2 with
    | 0 => some (encI 0x13 5 rsq rsq imm6)
    | 1 => some (encI 0x13 5 rsq rsq (imm6 + 0x400))
    | 2 => some (encI 0x13 7 rsq rsq simm6)
    | _ =>
      match bitField w 12 1, bitField w 5 2 with
      | 0, 0 => some (encR 0x33 0 0x20 rsq rsq rdq)
      | 0, 1 => some (encR 0x33 4 0 rsq rsq rdq)
      | 0, 2 => some (encR 0x33 6 0 rsq rsq rdq)
      | 0, _ => some (encR 0x33 7 0 rsq rsq rdq)
      | _, 0 => some (encR 0x3B 0 0x20 rsq rsq rdq)
      | _, 1 => some (encR 0x3B 0 0 rsq rsq rdq)
      | _, _ => none
  | 1, 5 =>
    let imm := bitField w 3 3 * 2 + bitField w 11 1 * 16 + bitField w 2 1 * 32 + bitField w 7 1 * 64 + bitField w 6 1 * 128 +
      bitField w 9 2 * 256 + bitField w 8 1 * 1024 + bitField w 12 1 * 2048
    some (encJ 0 (wrapInt 21 (signedOf 12 imm)))
  | 1, n =>
    let imm := bitField w 3 2 * 2 + bitField w 10 2 * 8 + bitField w 2 1 * 32 + bitField w 5 2 * 64 + bitField w 12 1 * 256
    some (encB (n - 6) rsq 0 (wrapInt 13 (signedOf 9 imm)))
  | 2, 0 => some (encI 0x13 1 rd rd imm6)
  | 2, 1 => some (encI 0x07 3 rd 2 spD)
  | 2, 2 => if rd = 0 then none else some (encI 0x03 2 rd 2 spW)
  | 2, 3 => if rd = 0 then none else some (encI 0x03 3 rd 2 spD)
  | 2, 4 =>
    if bitField w 12 1 = 0 then
      if rs2 = 0 then (if rd = 0 then none else some (encI 0x67 0 0 rd 0)) else some (encR 0x33 0 0 rd 0 rs2)
    else if rs2 = 0 then (if rd = 0 then some 0x00100073 else some (encI 0x67 0 1 rd 0))
    else some (encR 0x33 0 0 rd rd rs2)
  | 2, 5 => some (encS 0x27 3 2 rs2 ssD)
  | 2, 6 => some (encS 0x23 2 2 rs2 ssW)
  | 2, 7 => some (encS 0x23 3 2 rs2 ssD)
  | _, _ => none

/-! ## Instructions without memory -/

/-- What an instruction does: the thread after it, where it goes (none: the next instruction) and what it counts as floating-point
operations (R206). -/
structure RvRes where
  th : Thread
  pc : Option Nat := none
  flops : Nat := 0
  deriving DecidableEq, Repr, Inhabited

/-- What the read-only CSRs show (R178, R204). -/
structure CsrEnv where
  cycle : Nat
  time : Nat
  core : Nat
  thread : Nat
  part : Nat
  deriving DecidableEq, Repr, Inhabited

/-- A CSR as read; `none` where there is none. -/
def Thread.csr (h : Thread) (e : CsrEnv) : Nat → Option Nat
  | 0x001 => some (h.fcsr % 32)
  | 0x002 => some (bitField h.fcsr 5 3)
  | 0x003 => some h.fcsr
  | 0x008 => some h.vstart
  | 0x009 => some (h.vcsr % 2)
  | 0x00A => some (bitField h.vcsr 1 2)
  | 0x00F => some h.vcsr
  | 0x800 => some h.xceps
  | 0xC00 => some e.cycle
  | 0xC01 => some e.time
  | 0xC02 => some h.instret
  | 0xC20 => some h.vl
  | 0xC21 => some h.vtype
  | 0xC22 => some 128
  | 0xCC0 => some e.core
  | 0xCC1 => some e.thread
  | 0xCC2 => some e.part
  | _ => none

/-- A CSR written. -/
def Thread.csrSet (h : Thread) (n v : Nat) : Thread :=
  match n with
  | 0x001 => { h with fcsr := h.fcsr / 32 * 32 + v % 32 }
  | 0x002 => { h with fcsr := h.fcsr % 32 + v % 8 * 32 }
  | 0x003 => { h with fcsr := v % 256 }
  | 0x008 => { h with vstart := v % 1024 }
  | 0x009 => { h with vcsr := h.vcsr / 2 * 2 + v % 2 }
  | 0x00A => { h with vcsr := h.vcsr % 2 + v % 4 * 2 }
  | 0x00F => { h with vcsr := v % 8 }
  | 0x800 => { h with xceps := v % 2 ^ 32 }
  | _ => h

/-- CSRRW, CSRRS, CSRRC and their immediate forms; a write of a read-only CSR is illegal. -/
def csrOp (h : Thread) (e : CsrEnv) (w : Nat) : Option RvRes :=
  let f3 := bitField w 12 3
  let n := bitField w 20 12
  let rs1 := bitField w 15 5
  let v := if f3 ≥ 4 then rs1 else h.rx rs1
  match h.csr e n with
  | none => none
  | some old =>
    let writes := f3 % 4 = 1 || rs1 ≠ 0
    if writes && n / 1024 = 3 then none
    else
      let new := match f3 % 4 with
        | 1 => v
        | 2 => old ||| v
        | _ => old - (old &&& v)
      let h1 := if writes then h.csrSet n new else h
      some { th := h1.wx (bitField w 7 5) old }

/-- OP-FP and the fused forms of F and D. -/
def fpOp (h : Thread) (w : Nat) : Option RvRes :=
  let rd := bitField w 7 5
  let rs1 := bitField w 15 5
  let rs2 := bitField w 20 5
  let rs3 := bitField w 27 5
  let f3 := bitField w 12 3
  let fmt := bitField w 25 2
  let op := bitField w 27 5
  if fmt ≥ 2 then none
  else
    let f := if fmt = 0 then fp32 else fp64
    let a := unbox f (h.rf rs1)
    let b := unbox f (h.rf rs2)
    let putF (g : Flt) (n : Nat) (r : FRes) : RvRes := { th := (h.wf rd (nanBox g.width r.w)).raiseF r.fl, flops := n }
    let putX (r : FRes) : RvRes := { th := (h.wx rd r.w).raiseF r.fl }
    if w % 128 ≠ 0x53 then
      let k := bitField w 2 2
      (h.rm f3).map fun r =>
        putF f 2 (ffma f r (k = 2 || k = 3) (k = 1 || k = 3) a b (unbox f (h.rf rs3)))
    else match op with
    | 0 | 1 | 2 | 3 => (h.rm f3).map fun r => putF f 1 (farith f r op a b)
    | 0x0B => if rs2 ≠ 0 then none else (h.rm f3).map fun r => putF f 1 (fsqrtR f r a)
    | 4 => if f3 > 2 then none else some (putF f 0 { w := fsgnj f f3 a b })
    | 5 => if f3 > 1 then none else some (putF f 0 (fminmax f (f3 = 1) a b))
    | 8 =>
      if rs2 > 1 || rs2 = fmt then none
      else
        let g := if rs2 = 0 then fp32 else fp64
        (h.rm f3).map fun r => putF f 0 (ftoF g f r (unbox g (h.rf rs1)))
    | 0x14 => if f3 > 2 then none else some (putX (fcmp f f3 a b))
    | 0x18 =>
      if rs2 > 3 then none
      else
        let n := if rs2 < 2 then 32 else 64
        (h.rm f3).map fun r => let z := ftoInt f r n (rs2 % 2 = 0) a; putX { z with w := sx n z.w }
    | 0x1A => if rs2 > 3 then none else (h.rm f3).map fun r =>
        putF f 0 (intToF f r (if rs2 < 2 then 32 else 64) (rs2 % 2 = 0) (h.rx rs1))
    | 0x1C =>
      if rs2 ≠ 0 then none
      else match f3 with
      | 0 => some (putX { w := sx f.width (h.rf rs1) })
      | 1 => some (putX { w := fclass f a })
      | _ => none
    | 0x1E => if rs2 ≠ 0 || f3 ≠ 0 then none else some (putF f 0 { w := h.rx rs1 })
    | _ => none

/-- The branch of funct3 is taken; `none` for the two unlisted codes. -/
def branchTaken (f3 a b : Nat) : Option Bool :=
  match f3 with
  | 0 => some (a == b)
  | 1 => some (a != b)
  | 4 => some (decide (signedOf 64 a < signedOf 64 b))
  | 5 => some (!decide (signedOf 64 a < signedOf 64 b))
  | 6 => some (decide (a < b))
  | 7 => some (!decide (a < b))
  | _ => none

/-- An instruction of I, M, F, D, Zicsr or Zifencei that reaches no memory: `pc` of it, `len` of it in bytes; `none` is illegal.
FENCE and FENCE.I only advance: memory here is in program order (R183). -/
def scalarOp (h : Thread) (e : CsrEnv) (pc len w : Nat) : Option RvRes :=
  let rd := bitField w 7 5
  let f3 := bitField w 12 3
  let f7 := bitField w 25 7
  let a := h.rx (bitField w 15 5)
  let b := h.rx (bitField w 20 5)
  let immI := wrapInt 64 (signedOf 12 (w / 2 ^ 20))
  let immU := sx 32 (w / 2 ^ 12 * 2 ^ 12)
  let put (v : Nat) : Option RvRes := some { th := h.wx rd v }
  match w % 128 with
  | 0x37 => put immU
  | 0x17 => put (pc + immU)
  | 0x6F =>
    let imm := bitField w 21 10 * 2 + bitField w 20 1 * 2 ^ 11 + bitField w 12 8 * 2 ^ 12 + bitField w 31 1 * 2 ^ 20
    some { th := h.wx rd (pc + len), pc := some ((pc + sx 21 imm) % 2 ^ 64) }
  | 0x67 =>
    if f3 ≠ 0 then none
    else some { th := h.wx rd (pc + len), pc := some ((a + immI) % 2 ^ 64 / 2 * 2) }
  | 0x63 =>
    let imm := bitField w 8 4 * 2 + bitField w 25 6 * 32 + bitField w 7 1 * 2 ^ 11 + bitField w 31 1 * 2 ^ 12
    (branchTaken f3 a b).map fun t => { th := h, pc := if t then some ((pc + sx 13 imm) % 2 ^ 64) else none }
  | 0x13 =>
    match f3 with
    | 1 => if f7 / 2 = 0 then put (aluOp 64 1 false a (bitField w 20 6)) else none
    | 5 => if f7 / 2 = 0 then put (aluOp 64 5 false a (bitField w 20 6))
           else if f7 / 2 = 0x10 then put (aluOp 64 5 true a (bitField w 20 6)) else none
    | _ => put (aluOp 64 f3 false a immI)
  | 0x1B =>
    let a32 := a % 2 ^ 32
    match f3 with
    | 0 => put (sx 32 (aluOp 32 0 false a32 (immI % 2 ^ 32)))
    | 1 => if f7 = 0 then put (sx 32 (aluOp 32 1 false a32 (bitField w 20 5))) else none
    | 5 => if f7 = 0 then put (sx 32 (aluOp 32 5 false a32 (bitField w 20 5)))
           else if f7 = 0x20 then put (sx 32 (aluOp 32 5 true a32 (bitField w 20 5))) else none
    | _ => none
  | 0x33 =>
    if f7 = 0 then put (aluOp 64 f3 false a b)
    else if f7 = 0x20 && (f3 = 0 || f3 = 5) then put (aluOp 64 f3 true a b)
    else if f7 = 1 then put (mulDiv 64 f3 a b)
    else none
  | 0x3B =>
    let a32 := a % 2 ^ 32
    let b32 := b % 2 ^ 32
    if f7 = 0 && (f3 = 0 || f3 = 1 || f3 = 5) then put (sx 32 (aluOp 32 f3 false a32 b32))
    else if f7 = 0x20 && (f3 = 0 || f3 = 5) then put (sx 32 (aluOp 32 f3 true a32 b32))
    else if f7 = 1 && (f3 = 0 || f3 ≥ 4) then put (sx 32 (mulDiv 32 f3 a32 b32))
    else none
  | 0x0F => if f3 ≤ 1 then some { th := h } else none
  | 0x73 => if f3 % 4 = 0 then none else csrOp h e w
  | 0x53 | 0x43 | 0x47 | 0x4B | 0x4F => fpOp h w
  | _ => none

end Sys2Proof.Machine
end

