-- ==== Sys2Proof/Machine/Func.lean ====
section
/-! DEFINITION. Special functions (R194, R195, R118, R140, R217). A transcendental value is formed to about 300 bits with a sticky
bit, so that one rounding of it to a storage format is the exact rounding; FP32 results take one of the two neighbours, fixed for
each silicon revision by an opaque constant. -/

namespace Sys2Proof.Machine

/-! ## Fixed point with 512 fraction bits -/

def fxBits : Nat := 512
def fxOne : Int := 2 ^ 512
def ln2Fx : Int := 0xb17217f7d1cf79abc9e3b39803f2f6af40f343267298b62d8a0d175b8baafa2be7b876206debac98559552fb4afa1b10ed2eae35c138214427573b291169b825
def piFx : Int := 0x3243f6a8885a308d313198a2e03707344a4093822299f31d0082efa98ec4e6c89452821e638d01377be5466cf34e90c6cc0ac29b7c97c50dd3f84d5b5b5470917

def fxMul (a b : Int) : Int := a * b / fxOne
def fxDiv (a b : Int) : Int := a * fxOne / b

/-- A finite value in fixed point, rounded down. -/
def fxOf : Val → Int
  | .fin n m e => let x := (roundMant .rtz n m (e + fxBits)).1; if n then -(x : Int) else x
  | _ => 0

/-- An inexact result with a sticky bit. -/
def ofFx (t : Int) : Val := .fin (decide (t < 0)) (2 * t.natAbs + 1) (-513)

/-- `sum r^n / n!` from term `n` on. -/
def expSeries (r : Int) : Nat → Nat → Int → Int → Int
  | 0, _, _, acc => acc
  | k + 1, n, term, acc => expSeries r k (n + 1) (fxMul term r / (n + 1 : Nat)) (acc + term)

/-- e^x of a fixed-point number, as a value: reduced by ln 2. -/
def expFx (x : Int) : Val :=
  let k := x / ln2Fx
  let s := expSeries (x - k * ln2Fx) 120 0 fxOne 0
  .fin false (2 * s.natAbs + 1) (k - 513)

/-- Exponent arguments beyond this size over- or underflow every format. -/
def clampFx (x : Int) : Int := if x > 400 * fxOne then 400 * fxOne else if x < -400 * fxOne then -400 * fxOne else x

def expVal (v : Val) : Val :=
  match v with
  | .nan => .nan
  | .inf n => if n then zero else .inf false
  | .fin _ 0 _ => ofInt 1 0
  | _ => expFx (clampFx (fxOf v))

/-- `sum z^(2n+1) / (2n+1)`. -/
def atanhSeries (z2 : Int) : Nat → Nat → Int → Int → Int
  | 0, _, _, acc => acc
  | k + 1, n, p, acc => atanhSeries z2 k (n + 1) (fxMul p z2) (acc + p / (2 * n + 1 : Nat))

def logVal (v : Val) : Val :=
  match v with
  | .nan => .nan
  | .inf n => if n then .nan else .inf false
  | .fin n m e =>
    if m = 0 then .inf true
    else if n then .nan
    else
      let l := Nat.log2 m
      let z := fxDiv ((m : Int) - 2 ^ l) (m + 2 ^ l)
      let t := ((l : Int) + e) * ln2Fx + 2 * atanhSeries (fxMul z z) 180 0 z 0
      if m = 2 ^ l && (l : Int) + e = 0 then zero else ofFx t

def rsqrtVal (v : Val) : Val :=
  match v with
  | .nan => .nan
  | .inf n => if n then .nan else zero
  | .fin n m e =>
    if m = 0 then .inf n else if n then .nan else (ofInt 1 0).div (Val.fin false m e).sqrt

def sigmoidVal (v : Val) : Val :=
  match v with
  | .nan => .nan
  | .inf n => if n then zero else ofInt 1 0
  | .fin n m e =>
    if m = 0 then .fin false 1 (-1)
    else
      let t := expVal (.fin true m e)
      let d := (ofInt 1 0).add t
      if n then t.div d else (ofInt 1 0).div d

/-- A magnitude that is smaller by a part that no rounding sees but as a direction. -/
def justBelow (m : Nat) (e : Int) : Nat × Int := (m * 2 ^ 100 - 1, e - 100)

def tanhVal (v : Val) : Val :=
  match v with
  | .nan => .nan
  | .inf n => ofInt (if n then -1 else 1) 0
  | .fin n m e =>
    if m = 0 then .fin n 0 0
    else if (Nat.log2 m : Int) + e < -40 then let b := justBelow m e; .fin n b.1 b.2
    else
      let t := expVal (.fin true m (e + 1))
      let r := ((ofInt 1 0).sub t).div ((ofInt 1 0).add t)
      if n then r.neg else r

/-- `x + x^3/3 + x^5/15 + ...`. -/
def phiSeries (x2 : Int) : Nat → Nat → Int → Int → Int
  | 0, _, _, acc => acc
  | k + 1, n, a, acc => phiSeries x2 k (n + 1) (fxMul a x2 / (2 * n + 3 : Nat)) (acc + a)

/-- `1 / sqrt (2 pi)`. -/
def invSqrt2Pi : Int := fxDiv fxOne (Nat.sqrt (2 * piFx * fxOne).toNat)

/-- The normal distribution function; far out, a number that only its side of 0 or 1 matters of. -/
def phiVal (n : Bool) (m : Nat) (e : Int) : Val :=
  let x := fxOf (.fin false m e)
  if x > 16 * fxOne then (if n then .fin false 1 (-300) else .fin false (2 ^ 300 - 1) (-300))
  else
    let x2 := fxMul x x
    let d := fxMul (fxMul (fxOf (expFx (-(x2 / 2)))) invSqrt2Pi) (phiSeries x2 800 0 x 0)
    ofFx (fxOne / 2 + (if n then -d else d))

def geluVal (v : Val) : Val :=
  match v with
  | .nan => .nan
  | .inf n => if n then .fin true 0 0 else .inf false
  | .fin n m e => if m = 0 then .fin n 0 0 else (Val.fin n m e).mul (phiVal n m e)

def siluVal (v : Val) : Val :=
  match v with
  | .nan => .nan
  | .inf n => if n then .fin true 0 0 else .inf false
  | .fin n m e => if m = 0 then .fin n 0 0 else (Val.fin n m e).mul (sigmoidVal v)

def reluVal (v : Val) : Val :=
  match v with
  | .nan => .nan
  | .inf n => if n then zero else .inf false
  | .fin n m e => if n || m = 0 then zero else .fin n m e

/-! ## The functions by name -/

/-- The functions of R195. -/
inductive Fn where
  | exp | log | rsqrt | sigmoid | tanh | gelu | silu | relu
  deriving DecidableEq, Repr

def Fn.code : Fn → Nat
  | .exp => 0
  | .log => 1
  | .rsqrt => 2
  | .sigmoid => 3
  | .tanh => 4
  | .gelu => 5
  | .silu => 6
  | .relu => 7

/-- The exact value, or a stand-in on the same side of every rounding boundary; special inputs of R195. -/
def Fn.val (f : Fn) (v : Val) : Val :=
  match f with
  | .exp => expVal v
  | .log => logVal v
  | .rsqrt => rsqrtVal v
  | .sigmoid => sigmoidVal v
  | .tanh => tanhVal v
  | .gelu => geluVal v
  | .silu => siluVal v
  | .relu => reluVal v

/-- One of the two FP32 neighbours of a value that FP32 does not hold; a value beyond the largest finite one gives infinity. -/
def near32 (up : Bool) (v : Val) : Nat :=
  match v with
  | .fin n m e =>
    if fp32.beyond m e then fp32.signBit n + fp32.infWord
    else if fp32.inexact v then fp32.enc .rtz v + (if up then 1 else 0)
    else fp32.enc .rne v
  | _ => fp32.enc .rne v

/-- The FP32 result of a function (R194): the neighbour is fixed for the silicon revision. -/
def fn32 (f : Fn) (w : Nat) : Nat := near32 (Config.sfuUp f.code w) (f.val (v32 w))

/-- The value that is converted to format `c`: exact for FP8, FP16 and BF16, the FP32 result otherwise (R118, R194). -/
def fnFor (f : Fn) (c w : Nat) : Val := if c ≥ 4 && c ≤ 7 then f.val (v32 w) else v32 (fn32 f w)

/-- Activation codes of the prologue, the epilogue and XC.VFBA (R115). -/
def actFn : Nat → Fn
  | 1 => .relu
  | 2 => .gelu
  | 3 => .silu
  | 4 => .sigmoid
  | _ => .tanh

/-! ## Angles -/

/-- `sum (-1)^k x^(n+2k) / (n+2k)!`. -/
def trigSeries (x2 : Int) : Nat → Nat → Int → Int → Int
  | 0, _, _, acc => acc
  | k + 1, n, a, acc => trigSeries x2 k (n + 2) (-(fxMul a x2) / ((n + 1) * (n + 2) : Nat)) (acc + a)

/-- Sine and cosine of `phi * 2^-30` turns (R140). -/
def turn (phi : Nat) : Val × Val :=
  let q := phi % 2 ^ 30 / 2 ^ 28
  let f : Nat := phi % 2 ^ 28
  let x : Int := (f : Int) * piFx / 2 ^ 29
  let x2 := fxMul x x
  let s := if f = 0 then zero else ofFx (trigSeries x2 120 1 x 0)
  let c := if f = 0 then ofInt 1 0 else ofFx (trigSeries x2 120 0 fxOne 0)
  let minus (v : Val) : Val := if v.isZero then zero else v.neg
  match q with
  | 0 => (s, c)
  | 1 => (c, minus s)
  | 2 => (minus s, minus c)
  | _ => (minus c, s)

/-- A Gaussian value from two words (R217): within 2 ulp of the exact value, fixed for the silicon revision, and +0 in the three
cases that the rule names. -/
def gauss32 (w1 w2 : Nat) : Nat :=
  let a := w1 / 256 + 1
  let b := w2 / 256
  if a = 2 ^ 24 || b = 2 ^ 22 || b = 3 * 2 ^ 22 then 0
  else
    let r := ((logVal (.fin false a (-24))).mul (ofInt (-2) 0)).sqrt
    let v := r.mul (turn (b * 64)).2
    let t := fp32.enc .rtz v
    let w := t + Config.gaussUlp w1 w2 % 4 - 1
    let top := fp32.enc .rtz (((logVal (.fin false 1 (-24))).mul (ofInt (-2) 0)).sqrt)
    if w % 2 ^ 31 > top then w / 2 ^ 31 * 2 ^ 31 + top else w

/-- The FP32 result of a function as the special-function unit gives it to every user (R118, R194, R196): under FLUSH a subnormal
argument and a subnormal result become zeros. -/
def sfu32 (fl : Bool) (f : Fn) (w : Nat) : Nat := (flushFmt fl 8 (fn32 f (flushFmt fl 8 w).1)).1

/-- The result of a function in format `c` (R118, R194, R196), and whether FLUSH replaced it. -/
def sfuWord (fl : Bool) (f : Fn) (c w : Nat) : Nat × Bool := convert fl c .rne (fnFor f c (flushFmt fl 8 w).1)

end Sys2Proof.Machine
end

