-- ==== Sys2Proof/Machine/Stat.lean ====
section
/-! DEFINITION. Exact statistics: accumulators, their records, their merging and what they finish as (R199 to R202). -/

namespace Sys2Proof.Machine

/-- Largest count of an accumulator. -/
def statMax : Nat := 2 ^ 40

/-- Add one element (R199): the accumulator, and whether OVF was set. -/
def StatAcc.add (a : StatAcc) (w : Nat) : StatAcc × Bool :=
  match v32 w with
  | .nan => ({ a with flags := a.flags ||| 1 }, false)
  | .inf n => ({ a with flags := a.flags ||| (if n then 4 else 2) }, false)
  | .fin n m e =>
    let i : Nat := m * 2 ^ (e + 149).toNat
    let x : Int := if n then -(i : Int) else i
    let big := decide (a.count + 1 > statMax)
    ({ count := min statMax (a.count + 1), flags := a.flags ||| (if big then 8 else 0),
       sum := signedOf 320 (wrapInt 320 (a.sum + x)), sumsq := (a.sumsq + i * i) % 2 ^ 640 }, big)

/-- The statistic record of an accumulator (R200). -/
def StatAcc.record (a : StatAcc) : List Byte :=
  toBytes 8 a.count ++ toBytes 1 a.flags ++ List.replicate 7 0 ++ toBytes 40 (wrapInt 320 a.sum) ++ toBytes 80 a.sumsq ++ List.replicate 56 0

/-- A record as an accumulator; `none` where a reserved field is not zero (R200). -/
def statOf (r : List Byte) : Option StatAcc :=
  if byteAt r 8 ≥ 16 || !zeroAt r 9 7 || !zeroAt r 136 56 then none
  else some { count := fld r 0 8, flags := byteAt r 8, sum := signedOf 320 (fld r 16 40), sumsq := fld r 56 80 }

/-- Merge (R201). -/
def StatAcc.merge (a b : StatAcc) : StatAcc :=
  { count := min statMax (a.count + b.count), flags := a.flags ||| b.flags ||| (if a.count + b.count > statMax then 8 else 0),
    sum := signedOf 320 (wrapInt 320 (a.sum + b.sum)), sumsq := (a.sumsq + b.sumsq) % 2 ^ 640 }

/-- RSQRT of an FP32 word as XC.VSF gives it (R194 to R196), and whether FLUSH replaced the word. -/
def rsqrt32 (fl : Bool) (w : Nat) : Nat × Bool := let x := flushFmt fl 8 w; (fn32 .rsqrt x.1, x.2)

/-- The pair of XC.STFIN (R202), and whether FLUSH replaced a value. -/
def StatAcc.final (a : StatAcc) (fl : Bool) (eps : Nat) : Nat × Nat × Bool :=
  let pinf := bitAt a.flags 1
  let ninf := bitAt a.flags 2
  if bitAt a.flags 0 || bitAt a.flags 3 || (pinf && ninf) then (fp32.nan, fp32.nan, false)
  else if pinf || ninf then (fp32.signBit ninf + fp32.infWord, fp32.nan, false)
  else if a.count = 0 then let r := rsqrt32 fl eps; (0, r.1, r.2)
  else
    let n : Int := a.count
    let mu := r32 ((ofInt a.sum (-149)).div (ofInt n 0))
    let num := (ofInt (n * a.sumsq - a.sum * a.sum) (-298)).add ((v32 eps).mul (ofInt (n * n) 0))
    let r := rsqrt32 fl (r32 (num.div (ofInt (n * n) 0)))
    (mu, r.1, r.2)

end Sys2Proof.Machine
end

