-- ==== Sys2Proof/Machine/Collect.lean ====
section
/-! DEFINITION. Collectives (R439 to R441): a pipelined chain in rank order. R440 does not give the element format of partial results, the
place of a chunk, or how a chain credit is told; the choices stand in the assumption log: partial sums of FP16 and BF16 travel as FP32,
of INT32 as 64-bit integers, a chunk's offset counts bytes of the final result, and a chunk that is refused is sent again. -/

namespace Sys2Proof.Machine

/-! ## Descriptor -/

def Coll.op (c : Coll) : Nat := byteAt c.desc 0
def Coll.dtype (c : Coll) : Nat := byteAt c.desc 1
def Coll.red (c : Coll) : Nat := byteAt c.desc 2
def Coll.count (c : Coll) : Nat := fld c.desc 4 4
def Coll.rank (c : Coll) : Nat := fld c.desc 28 2
def Coll.nmemb (c : Coll) : Nat := fld c.desc 26 2
def Coll.cseq (c : Coll) : Nat := fld c.desc 32 4

/-- Bytes of an element of the result: 192 for a statistic record. -/
def Coll.outSize (c : Coll) : Nat := if c.op = 5 then 192 else fmtWidth c.dtype / 8

/-- The collective reduces sums: partial results are wider than results (R441). -/
def Coll.sums (c : Coll) : Bool := (c.op = 1 || c.op = 2) && c.red = 0

/-- Bytes of an element of a partial result. -/
def Coll.partSize (c : Coll) : Nat :=
  if !c.sums then c.outSize else if c.dtype = 9 then 8 else 4

/-- Elements of a chunk: one frame of up to 1,024 B (R440). -/
def Coll.per (c : Coll) : Nat := 1024 / c.partSize
def Coll.chunks (c : Coll) : Nat := ceilDiv c.count c.per
/-- Elements in chunk `i`. -/
def Coll.size (c : Coll) (i : Nat) : Nat := min c.per (c.count - c.per * i)
/-- Byte offset of chunk `i` in the result. -/
def Coll.off (c : Coll) (i : Nat) : Nat := c.per * i * c.outSize

/-- A descriptor breaks R14, R15 or R439, before its group table is read. -/
def collBad (d : List Byte) : Bool :=
  let op := byteAt d 0
  let n := fld d 26 2
  let cnt := fld d 4 4
  !(1 ≤ op && op ≤ 5) || (if op = 5 then byteAt d 1 ≠ 0 else byteAt d 1 < 6 || byteAt d 1 > 9) ||
  (if op ≤ 2 then byteAt d 2 > 2 else byteAt d 2 ≠ 0) || byteAt d 3 ≠ 0 || cnt = 0 ||
  fld d 8 6 % 64 ≠ 0 || fld d 14 6 % 64 ≠ 0 || fld d 20 6 % 64 ≠ 0 || n < 2 || n > 4096 || fld d 28 2 ≥ n ||
  (if op = 4 then fld d 30 2 ≥ n else fld d 30 2 ≠ 0) || !zeroAt d 40 24 || ((op = 2 || op = 3) && cnt % n ≠ 0)

/-- The group table: entries, or none where a reserved bit is set. -/
def groupOf (b : List Byte) (n : Nat) : Option (List (Nat × Nat)) :=
  let es := (List.range n).map fun i => fld b (4 * i) 4
  if es.any fun e => e ≥ 2 ^ 18 then none else some (es.map fun e => (e % 4096, bitField e 12 6))

/-! ## Results (R441) -/

/-- MAX or MIN of two elements of a format; NaN gives the canonical NaN. -/
def collMax (fmt : Nat) (mn : Bool) (a b : Nat) : Nat :=
  let x := decFmt fmt a
  let y := decFmt fmt b
  if x.isNan || y.isNan then encFmt fmt .rne .nan
  else if x.isZero && y.isZero && x.isNeg ≠ y.isNeg then (if Config.collZero a b then a else b)
  else if (if mn then y.lt x else x.lt y) then b else a

/-- A record for merging; reserved fields are not looked at (R201). -/
def lenientStat (r : List Byte) : StatAcc :=
  { count := fld r 0 8, flags := byteAt r 8 % 16, sum := signedOf 320 (fld r 16 40), sumsq := fld r 56 80 }

/-- An input element as a partial result. -/
def Coll.widen (c : Coll) (x : List Byte) : List Byte :=
  if !c.sums then x
  else if c.dtype = 9 then toBytes 8 (sx 32 (ofBytes x))
  else toBytes 4 (r32 (decFmt c.dtype (ofBytes x)))

/-- One step of the chain: the partial result from below and this member's input for element `e`. -/
def Coll.combine (c : Coll) (e : Nat) (a x : List Byte) : List Byte :=
  let mine : Bool := match c.op with
    | 3 => e / (c.count / c.nmemb) = c.rank
    | 4 => c.rank = fld c.desc 30 2
    | _ => true
  if c.op = 3 || c.op = 4 then (if mine then x else a)
  else if c.op = 5 then ((lenientStat a).merge (lenientStat x)).record
  else if c.red ≠ 0 then toBytes c.outSize (collMax c.dtype (c.red = 2) (ofBytes a) (ofBytes x))
  else if c.dtype = 9 then toBytes 8 (ofBytes a + ofBytes (c.widen x))
  else toBytes 4 (add32 (ofBytes a) (ofBytes (c.widen x)))

/-- A partial result of the last rank as the final one: converted or saturated once. -/
def Coll.close (c : Coll) (a : List Byte) : List Byte :=
  if !c.sums then a
  else if c.dtype = 9 then toBytes 4 (accumulateInt 0 (signedOf 64 (ofBytes a))).1
  else toBytes c.outSize (encFmt c.dtype .rne (v32 (ofBytes a)))

/-- Own input for element `e`; zeros where this member has none. -/
def Coll.own (c : Coll) (e : Nat) : List Byte :=
  let n := c.outSize
  let i := if c.op = 3 then (if e / (c.count / c.nmemb) = c.rank then e % (c.count / c.nmemb) else c.count) else e
  padTo n ((c.input.drop (n * i)).take n)

/-- Split bytes in splitBytes. -/
def splitBytes (n : Nat) : Nat → List Byte → List (List Byte)
  | 0, _ => []
  | k + 1, l => l.take n :: splitBytes n k (l.drop n)

/-- Chunk `i` of this member's partial result, from the one below (empty for rank 0). -/
def Coll.partial' (c : Coll) (i : Nat) (below : List Byte) : List Byte :=
  let ps := splitBytes c.partSize (c.size i) below
  (List.range (c.size i)).flatMap fun k =>
    let e := c.per * i + k
    if c.rank = 0 then
      (if (c.op = 4 && fld c.desc 30 2 ≠ 0) then List.replicate c.outSize 0 else c.widen (c.own e))
    else c.combine e (ps.getD k []) (c.own e)

/-- Bytes of this member's input (R439). -/
def Coll.inputBytes (c : Coll) : Nat :=
  match c.op with
  | 3 => c.count / c.nmemb * c.outSize
  | 4 => if c.rank = fld c.desc 30 2 then c.count * c.outSize else 0
  | _ => c.count * c.outSize

/-- What this member writes at DST_VA (R441). -/
def Coll.output (c : Coll) : List Byte :=
  let all := (List.range c.chunks).flatMap fun i => (SMap.get [] c.result i).take (c.size i * c.outSize)
  if c.op = 2 then
    let n := c.count / c.nmemb * c.outSize
    (all.drop (c.rank * n)).take n
  else all

/-! ## The engine -/

def State.setColl (s : State) (p dva : Nat) (f : Coll → Coll) : State :=
  { s with colls := s.colls.map fun (c : Coll) => if c.part = p && c.dva = dva then f c else c }

/-- Collectives of a partition queued or running (R452). -/
def State.syncColl (s : State) (p : Nat) : State := s.fset .flkQPend p ((s.colls.filter fun c => c.part = p).length)

/-- The collective waits for a translation of its own buffers. -/
def State.collWait (s : State) (p dva va : Nat) (write : Bool) (k : WaitKind) : State :=
  s.enterWait ⟨.collective p dva, p, va, write, k⟩

/-- The collective leaves its engine. -/
def State.collGone (s : State) (p dva status : Nat) : State :=
  let s1 : State := { s with colls := s.colls.filter fun (c : Coll) => !(c.part = p && c.dva = dva) }
  (if status = 0 then s1.fadd .flkQColls p 1 else s1).syncColl p

/-- A collective ends: STATUS is written last, once its page is translated. -/
def State.collEnd (s : State) (p dva status : Nat) : State :=
  let s1 : State := ({ s with waits := s.waits.filter fun w => w.req ≠ Requester.collective p dva } : State).fabDrop (.coll p dva)
  match s1.vwrite p (dva + 36) (toBytes 4 status) with
  | (s2, .wait a k) =>
    (s2.setColl p dva fun c => { c with running := false, outbox := [], closing := some status }).collWait p dva a true k
  | (s2, _) => s2.collGone p dva status

/-- All results are in: the outputs are written, then STATUS. -/
def State.collFinish (s : State) (p dva : Nat) : State :=
  match s.colls.find? fun c => c.part = p && c.dva = dva with
  | none => s
  | some c =>
    if !c.running || c.result.length < c.chunks || s.waitsFor (.collective p dva) then s
    else match s.vwrite p (fld c.desc 14 6) c.output with
      | (s1, .ok _) => s1.collEnd p dva 0
      | (s1, .wait a k) => s1.collWait p dva a true k
      | (s1, .bad _ _) => s1.collEnd p dva 2

/-- A chunk of partial results is complete at this member: it goes up, or is final and goes down. -/
def Coll.advance (c : Coll) (i : Nat) (below : List Byte) : Coll :=
  let a := c.partial' i below
  if c.rank + 1 < c.nmemb then { c with outbox := c.outbox ++ [⟨true, i, a⟩] }
  else
    let f := (splitBytes c.partSize (c.size i) a).flatMap c.close
    { c with result := SMap.set [] c.result i f, outbox := c.outbox ++ [⟨false, i, f⟩] }

/-- A chunk from a neighbouring rank (R440): STATUS of R431, and the collective's own end where it disagrees. -/
def State.collTake (s : State) (p src spart op dtype cseq off : Nat) (data : List Byte) : State × Nat :=
  match s.colls.find? fun c => c.part = p && c.running && c.cseq = cseq &&
      ((decide (0 < c.rank) && c.group[c.rank - 1]? = some (src, spart)) || c.group[c.rank + 1]? = some (src, spart)) with
  | none => (s, 2)
  | some c =>
    let up := decide (0 < c.rank) && c.group[c.rank - 1]? = some (src, spart)
    let i := off / (c.per * c.outSize)
    let n := c.size i * (if up then c.partSize else c.outSize)
    if op ≠ c.op || dtype ≠ c.dtype || off % (c.per * c.outSize) ≠ 0 || i ≥ c.chunks || data.length ≠ ceilDiv n 8 * 8 then
      (s.collEnd p c.dva 4, 0)
    else if up then
      if c.ups.contains i then (s, 0) else (s.setColl p c.dva fun c => { c with ups := i :: c.ups }.advance i (data.take n), 0)
    else
      let f := data.take n
      (s.setColl p c.dva fun c =>
        { c with result := SMap.set [] c.result i f, outbox := if c.rank = 0 then c.outbox else c.outbox ++ [⟨false, i, f⟩] }, 0)

/-- Send one chunk to a neighbour: on this module it is given to it, elsewhere it becomes a request. `false`: refused for now. -/
def State.collSend (s : State) (c : Coll) (o : CollOut) : State × Bool :=
  match c.group[if o.up then c.rank + 1 else c.rank - 1]? with
  | none => (s, true)
  | some (dev, part) =>
    if !o.up && c.rank = 0 then (s, true)
    else
      let data := padTo (ceilDiv o.data.length 8 * 8) o.data
      if s.ownDev = some dev then
        let r := s.collTake part dev c.part c.op c.dtype c.cseq (c.off o.chunk) data
        (r.1, r.2 = 0)
      else
        (s.fabSubmit [{ owner := .coll c.part c.dva, dst := dev, ty := 4, spart := c.part, dpart := part, addr := c.off o.chunk,
                        opf := c.op + c.dtype * 256, xinfo := c.cseq, payload := data }], true)

/-- Drive every collective until nothing more can move: each round sends the first chunk of an outbox that is taken. -/
def State.collPump (s : State) : Nat → State
  | 0 => s
  | n + 1 =>
    let tryOne (acc : Option State) (c : Coll) : Option State :=
      match acc with
      | some t => some t
      | none =>
        match c.outbox with
        | [] => none
        | o :: rest =>
          let r := (s.setColl c.part c.dva fun x => { x with outbox := rest }).collSend c o
          if r.2 then some r.1 else none
    match s.colls.foldl tryOne none with
    | some t => t.collPump n
    | none => s.colls.foldl (fun (t : State) c => t.collFinish c.part c.dva) s

/-- Rounds that are enough: every chunk of every collective moves at most twice. -/
def State.collFuel (s : State) : Nat := s.colls.foldl (fun a c => a + 2 * c.chunks + 2) 4

/-- Drive every collective. -/
def State.collDrive (s : State) : State := s.collPump s.collFuel

/-- Read what a queued collective needs, as far as it can go, and start it (R439); STATUS reads pending from then on. -/
def State.collStart (s : State) (p dva : Nat) : State :=
  match s.colls.find? fun c => c.part = p && c.dva = dva with
  | none => s
  | some c =>
    if c.running || s.waitsFor (.collective p dva) then s
    else match c.closing with
    | some st => s.collEnd p dva st
    | none =>
    match s.vread p dva 64 with
    | (s1, .wait a k) => s1.collWait p dva a false k
    | (s1, .bad _ _) => s1.collEnd p dva 2
    | (s0, .ok d) =>
      match s0.vwrite p (dva + 36) (List.replicate 4 0xFF) with
      | (s1, .wait a k) => s1.collWait p dva a true k
      | (s1, .bad _ _) => s1.collEnd p dva 2
      | (s1, .ok _) =>
      if collBad d then s1.collEnd p dva 1
      else
        let n := fld d 26 2
        match s1.vread p (fld d 20 6) (4 * n) with
        | (s2, .wait a k) => s2.collWait p dva a false k
        | (s2, .bad _ _) => s2.collEnd p dva 2
        | (s2, .ok g) =>
          match groupOf g n with
          | none => s2.collEnd p dva 1
          | some grp =>
            if s2.ownDev.isNone || grp[fld d 28 2]? ≠ s2.ownDev.map (·, p) then s2.collEnd p dva 1
            else if grp.any fun e => s2.quarantined e.1 then s2.collEnd p dva 5
            else
              let c1 : Coll := { c with desc := d, group := grp }
              match s2.vread p (fld d 8 6) c1.inputBytes with
              | (s3, .wait a k) => s3.collWait p dva a false k
              | (s3, .bad _ _) => s3.collEnd p dva 2
              | (s3, .ok x) =>
                let c2 : Coll := { c1 with input := x, running := true }
                let c3 := if c2.rank = 0 then (List.range c2.chunks).foldl (fun (a : Coll) i => a.advance i []) c2 else c2
                (s3.setColl p dva fun _ => c3).collDrive

/-- Every place of a partition's queue of descriptors is taken (R439). -/
def State.collFull (s : State) (p : Nat) : Bool := decide ((s.colls.filter fun c => c.part = p).length ≥ 16)

/-- A write to FLK_P_COLL (R439): bits 5:0 and 63:48 must be zero, or it names no descriptor; beyond 16 it is held, that is, it has not
taken place. -/
def State.collWrite (s : State) (p va : Nat) : State :=
  if va % 64 ≠ 0 || va ≥ 2 ^ 48 || s.collFull p || (s.colls.any fun c => c.part = p && c.dva = va) then s
  else
    let s1 : State := { s with colls := s.colls ++ [{ part := p, dva := va }] }
    (s1.syncColl p).collStart p va

/-- COLLECTIVE_START. -/
def execCollectiveStart (a : Access) (va : BitVec 64) (s : State) : Res :=
  .next (match a, s.trigger a .flkQColl with
    | .carding _ _, some p => s.collWrite p va.toNat
    | _, _ => s)

/-- COLLECTIVE_TIMEOUT (R440): the oldest collective of the partition that waits for its neighbour ends TIMEOUT. -/
def execCollectiveTimeout (p : Fin 64) (s : State) : Res :=
  .next (match s.colls.find? fun c => c.part = p.val && c.running with
    | some c => (s.collEnd p c.dva 3).collDrive
    | none => s)

/-- Answers to a collective's chunks (R431, R440): a refused chunk is sent again, any other failure ends it UNREACHABLE. -/
def State.collAnswered (s : State) (p dva : Nat) : State :=
  let mine := s.fabReqs.filter fun r => r.owner = .coll p dva && r.answer.isSome
  if mine.any fun r => (r.answer.getD 0) ≥ 3 then (s.collEnd p dva 5).collDrive
  else
    let again := (mine.filter fun r => r.answer = some 2).map fun (r : FabReq) => { r with tag := none, unsent := false, resends := 0, answer := none }
    let s1 : State := { s with fabReqs := s.fabReqs.filter fun r => !(r.owner = .coll p dva && r.answer.isSome) }
    s1.fabSubmit again

end Sys2Proof.Machine
end

