-- ==== Sys2Proof/Machine/Stage.lean ====
section
/-! DEFINITION. Stage configuration words (R115, R121, R125) and the transforms of the prologue stage: operand layouts (R105, R106),
block scales (R107), sub-stages (R116, R117), rotary codes (R139 to R141), regrouping (R156) and input transforms (R159). -/

namespace Sys2Proof.Machine

/-! ## Configuration words -/

/-- A prologue word (R115); the default is the identity configuration. -/
structure PConf where
  ena : Nat := 0
  ofmt : Nat := 15
  rfDeq : Nat := 8
  rfNorm : Nat := 8
  rfAct : Nat := 8
  rfRope : Nat := 8
  actf : Nat := 0
  dqar : Nat := 0
  dqg : Nat := 0
  dqof : Nat := 0
  dqz : Bool := false
  dqsf : Nat := 0
  nar : Nat := 0
  ngar : Nat := 0
  ngs : Nat := 0
  nof : Nat := 0
  naff : Bool := false
  rtar : Nat := 0
  rmode : Nat := 0
  rhalf : Bool := false
  s2f : Nat := 0
  wv : Nat := 0
  wpos : Nat := 0
  deriving DecidableEq, Repr

/-- Fields of a 64 B prologue word. -/
def parseP (b : List Byte) : PConf :=
  let w := fld b 0 8
  let v := fld b 8 8
  { ena := bitField w 8 6, ofmt := bitField w 16 4, rfDeq := bitField w 20 4, rfNorm := bitField w 24 4, rfAct := bitField w 28 4,
    rfRope := bitField w 32 4, actf := bitField w 40 4, dqar := bitField w 44 4, dqg := bitField w 48 3, dqof := bitField w 51 2,
    dqz := bitAt w 53, dqsf := bitField w 54 1, nar := bitField w 56 4, ngar := bitField w 60 4, ngs := bitField v 0 3,
    nof := bitField v 3 13, naff := bitAt v 16, rtar := bitField v 17 4, rmode := bitField v 21 1, rhalf := bitAt v 22,
    s2f := bitField v 23 2, wv := bitField v 25 1, wpos := bitField v 26 6 }

def PConf.deq (q : PConf) : Bool := bitAt q.ena 0
def PConf.norm (q : PConf) : Bool := bitAt q.ena 1
def PConf.act (q : PConf) : Bool := bitAt q.ena 2
def PConf.rope (q : PConf) : Bool := bitAt q.ena 3
def PConf.s2c (q : PConf) : Bool := bitAt q.ena 4
def PConf.win (q : PConf) : Bool := bitAt q.ena 5

/-- A listed RF code (R115). -/
def rfOk (c : Nat) : Bool := decide (3 ≤ c) && decide (c ≤ 8)

/-- Enabled bits above bit `i`: the sub-stage is not the last enabled one. -/
def laterBits (ena i : Nat) : Bool := ena / 2 ^ (i + 1) ≠ 0

/-- A prologue word that TPR accepts (R84, R115, R119). -/
def pWordOk (b : List Byte) : Bool :=
  let w := fld b 0 8
  let v := fld b 8 8
  let q := parseP b
  bitField w 0 8 == 1 && bitField w 14 2 == 0 && bitField w 36 4 == 0 && !bitAt w 55 && bitField v 32 32 == 0 && zeroAt b 16 48 &&
  (decide (q.ofmt < 10) || q.ofmt == 15) &&
  (!q.deq || (decide (q.dqg < 5) && decide (q.dqof < max 1 (2 ^ q.dqg / 4)) && (!laterBits q.ena 0 || rfOk q.rfDeq))) &&
  (!q.norm || ((q.ngs == 7 || decide (q.nof < 2 ^ q.ngs)) && (!laterBits q.ena 1 || rfOk q.rfNorm))) &&
  (!q.act || (decide (1 ≤ q.actf) && decide (q.actf ≤ 5) && (!laterBits q.ena 2 || rfOk q.rfAct))) &&
  -- ROPE acts last but before WIN's conversion (R159, R163): RF_ROPE is in use only where WIN is enabled
  (!q.rope || !q.win || rfOk q.rfRope) &&
  (!q.s2c || decide (q.s2f < 3)) &&
  (!q.win || decide (q.wpos < if q.wv = 0 then 36 else 16))

/-- An epilogue word (R121). -/
structure EConf where
  ena : Nat := 0
  rnd : Bool := false
  rfOxf : Nat := 8
  rfScl : Nat := 8
  rfBias : Nat := 8
  rfAct : Nat := 8
  rfOsc : Nat := 8
  actf : Nat := 0
  rvar : Nat := 0
  qsf : Nat := 1
  qblk : Nat := 0
  qdir : Nat := 0
  oxv : Nat := 0
  alpha : Nat := 0
  deriving DecidableEq, Repr

def parseE (b : List Byte) : EConf :=
  let w := fld b 0 8
  { ena := bitField w 8 7, rnd := bitAt w 16, rfOxf := bitField w 20 4, rfScl := bitField w 24 4, rfBias := bitField w 28 4,
    rfAct := bitField w 32 4, rfOsc := bitField w 36 4, actf := bitField w 40 4, rvar := bitField w 44 4, qsf := bitField w 48 2,
    qblk := bitField w 50 2, qdir := bitField w 52 1, oxv := bitField w 53 1, alpha := fld b 8 4 }

def EConf.oxf (q : EConf) : Bool := bitAt q.ena 0
def EConf.csc (q : EConf) : Bool := bitAt q.ena 1
def EConf.rsc (q : EConf) : Bool := bitAt q.ena 2
def EConf.bias (q : EConf) : Bool := bitAt q.ena 3
def EConf.act (q : EConf) : Bool := bitAt q.ena 4
def EConf.osc (q : EConf) : Bool := bitAt q.ena 5
def EConf.qnt (q : EConf) : Bool := bitAt q.ena 6

/-- An epilogue word that TPR accepts (R84, R121, R124). CSC and RSC share RF_SCL, so CSC is last only where RSC is not enabled
(R122). -/
def eWordOk (b : List Byte) : Bool :=
  let w := fld b 0 8
  let q := parseE b
  bitField w 0 8 == 2 && !bitAt w 15 && bitField w 17 3 == 0 && bitField w 54 10 == 0 && zeroAt b 12 52 &&
  (!q.oxf || !laterBits q.ena 0 || rfOk q.rfOxf) &&
  (!(q.csc || q.rsc) || !laterBits q.ena 2 || rfOk q.rfScl) &&
  (!q.bias || !laterBits q.ena 3 || rfOk q.rfBias) &&
  (!q.act || (decide (1 ≤ q.actf) && decide (q.actf ≤ 5) && (!laterBits q.ena 4 || rfOk q.rfAct))) &&
  (!q.osc || !laterBits q.ena 5 || rfOk q.rfOsc) &&
  (!q.qnt || ((q.qsf == 1 || q.qsf == 2) && decide (q.qblk < 3)))

/-- A row-unit word (R125); the default passes values through (R76). -/
structure RConf where
  rfn : Nat := 2
  pfmt : Nat := 4 + Config.idPfmt % 4
  mask : Nat := 0
  sscale : Nat := one32
  wlen : Nat := 0
  qofs : Int := 0
  deriving DecidableEq, Repr

def parseR (b : List Byte) : RConf :=
  { rfn := bitField (fld b 0 4) 8 2, pfmt := bitField (fld b 0 4) 10 4, mask := bitField (fld b 0 4) 14 3, sscale := fld b 4 4,
    wlen := fld b 8 4, qofs := signedOf 32 (fld b 12 4) }

/-- A row-unit word that TRW LOADCFG accepts (R125). -/
def rWordOk (b : List Byte) : Bool :=
  let w := fld b 0 4
  let q := parseR b
  bitField w 0 8 == 3 && bitField w 17 15 == 0 && zeroAt b 16 48 && decide (q.rfn < 3) && decide (4 ≤ q.pfmt) && decide (q.pfmt ≤ 7) &&
    decide (q.mask < 4)

/-- Configuration of a prologue slot named by LPS, RPS, QPS or KPS; none for code 0. -/
def MCore.pconf (m : MCore) (ps : Nat) : Option PConf :=
  if ps = 0 then none
  else
    let b := SMap.get [] m.slots (ps - 1)
    some (if b.isEmpty then {} else parseP b)

/-- Configuration of an epilogue slot named by ESLOT; none for code 0. -/
def MCore.econf (m : MCore) (es : Nat) : Option EConf :=
  if es = 0 then none
  else
    let b := SMap.get [] m.slots (es + 3)
    some (if b.isEmpty then {} else parseE b)

def MCore.rconf (m : MCore) (slot : Nat) : RConf :=
  let b := SMap.get [] m.slots (8 + slot)
  if b.isEmpty then {} else parseR b

/-! ## Values in core memory -/

/-- Core memory of one core as bytes by offset. -/
abbrev CoreBytes := Nat → Nat

def State.coreBytes (s : State) (c : Nat) : CoreBytes := fun o => (SMap.get 0 s.mem (coreMem c + o)).toNat

/-- Element `i` of a packed run of a format at a byte offset (R40). -/
def elemAt (cm : CoreBytes) (base c i : Nat) : Nat :=
  let w := fmtWidth c
  if w < 8 then cm (base + i * w / 8) / 2 ^ (i * w % 8) % 2 ^ w
  else (List.range (w / 8)).foldr (fun j a => cm (base + i * (w / 8) + j) + 256 * a) 0

/-- A 32-bit word. -/
def word32 (cm : CoreBytes) (o : Nat) : Nat := elemAt cm o 8 0

/-- Element (m, k) of a left operand (R105). -/
def leftElem (cm : CoreBytes) (base fmt llay m k : Nat) : Nat :=
  elemAt cm base fmt (k / 64 * 4096 + if llay = 0 then k % 64 * 64 + m else m * 64 + k % 64)

/-- Element (k, n) of a right operand (R106). -/
def rightElem (cm : CoreBytes) (base fmt n k : Nat) : Nat :=
  let p := if fmt ≤ 1 then 256 else 64
  elemAt cm base fmt (k / p * (64 * p) + n * p + k % p)

/-- Elements of a block (R81). -/
def blkSize (code : Nat) : Nat := 16 * 2 ^ code

/-- Offset of the scale of outer index `o` at K index `k` (R107). -/
def scaleOff (sp : ScaleSpec) (o k : Nat) : Nat :=
  let b := blkSize sp.blk
  if sp.dir = 0 then 64 * (((if b > 64 then 64 * sp.sof else 0) + k) / b) + o else k * max 1 (64 / b) + o / b

/-- Bytes of the scales of a tile of `kk` K indices (R107). -/
def scaleBytes (sp : ScaleSpec) (kk : Nat) : Nat :=
  let b := blkSize sp.blk
  if sp.dir = 0 then 64 * ceilDiv ((if b > 64 then 64 * sp.sof else 0) + kk) b else kk * max 1 (64 / b)

/-- The scale as it enters the product, and whether FLUSH replaced it (R44, R59). -/
def scaleAt (fl : Bool) (cm : CoreBytes) (sp : ScaleSpec) (base o k : Nat) : Val × Bool :=
  if sp.sc = 0 then (ofInt 1 0, false)
  else
    let b := cm (base + scaleOff sp o k)
    if sp.sc = 1 then (scaleVal 1 b, false)
    else let r := flushFmt fl 4 b; (scaleVal 2 r.1, r.2)

/-! ## Elements on their way to an array -/

/-- A value with the mark that FLUSH replaced one on its way (R60). -/
abbrev FVal := Val × Bool

/-- Conversion of a stage's output to a format, nearest even, with FLUSH (R56, R59, rounding points 7 and 8). -/
def toFmt (fl : Bool) (c : Nat) (x : FVal) : FVal := let r := convert fl c .rne x.1; (decFmt c r.1, x.2 || r.2)

/-- A stored element as it enters a prologue slot: flushed in its stored format and expanded to FP32 (R59, R114, R46). -/
def expand (fl : Bool) (fmt w : Nat) : FVal :=
  let r := flushFmt fl fmt w
  (if fmt = 9 then v32 (r32 (decFmt 9 r.1)) else decFmt fmt r.1, r.2)

/-- A stored element as it enters an array with no slot (R46, R59). -/
def enter (fl : Bool) (fmt w : Nat) : FVal := expand fl fmt w

/-- An element in a slot's output format as it enters an array: INT32 is converted to FP32 (R46). -/
def enterOut (fmt : Nat) (x : FVal) : FVal := if fmt = 9 then (v32 (r32 x.1), x.2) else x

/-- What the prologue of an operand sees: core memory, address registers at issue, stored format, K of the tile, FLUSH, and the
position block of its rotary table (R139). -/
structure Feed where
  cm : CoreBytes
  ars : List Nat
  fmt : Nat
  kk : Nat
  fl : Bool
  blk : Nat := 0

def Feed.at (f : Feed) (ar : Nat) : Nat := 64 * f.ars.getD ar 0

/-- DEQ on an element of outer index `o` and K index `k` (R116). -/
def deqStage (f : Feed) (q : PConf) (o k : Nat) (x : Val) : Val :=
  let g := ((if blkSize q.dqg > 64 then 64 * q.dqof else 0) + k) / blkSize q.dqg
  let sw := if q.dqsf = 0 then 128 else 256
  let base := f.at q.dqar + g * (sw + if q.dqz then 64 else 0)
  let sc := decFmt (if q.dqsf = 0 then 6 else 8) (elemAt f.cm base (if q.dqsf = 0 then 6 else 8) o)
  let z := if q.dqz then decFmt 3 (f.cm (base + sw + o)) else zero
  v32 (r32 ((v32 (r32 (x.sub z))).mul sc))

/-- NORM (R116). -/
def normStage (f : Feed) (q : PConf) (o k : Nat) (x : Val) : Val :=
  let g := if q.ngs = 7 then 0 else (64 * q.nof + k) / (64 * 2 ^ q.ngs)
  let base := f.at q.nar + 512 * g + 8 * o
  let d := v32 (r32 ((v32 (r32 (x.sub (v32 (word32 f.cm base))))).mul (v32 (word32 f.cm (base + 4)))))
  if q.naff then
    let ga := f.at q.ngar + 4 * k
    v32 (r32 ((d.mul (v32 (word32 f.cm ga))).add (v32 (word32 f.cm (ga + 4 * f.kk)))))
  else d

/-- DEQ, NORM and ACT on a stored element, each result converted to its RF field, or to the output format where `last` names it the
last stage (R117): 0 DEQ, 1 NORM, 2 ACT. -/
def earlyStages (f : Feed) (q : PConf) (out : Nat) (o k : Nat) (x0 : FVal) : FVal :=
  let last (i : Nat) : Bool := !laterBits q.ena i
  let x1 := if q.deq then toFmt f.fl (if last 0 then out else q.rfDeq) (deqStage f q o k x0.1, x0.2) else x0
  let x2 := if q.norm then toFmt f.fl (if last 1 then out else q.rfNorm) (normStage f q o k x1.1, x1.2) else x1
  if q.act then
    let c := if last 2 then out else q.rfAct
    toFmt f.fl c (fnFor (actFn q.actf) c (r32 x2.1), x2.2)
  else x2

/-- Rotation of element `k` of a span of `d` elements of outer index `o` (R140): `x` gives the elements. -/
def ropeStage (f : Feed) (q : PConf) (d o k : Nat) (x : Nat → FVal) : FVal :=
  let d1 := if q.rhalf then d / 2 else d
  if k ≥ d1 then x k
  else
    let i := if q.rmode = 0 then k / 2 else k % (d1 / 2)
    let lo := if q.rmode = 0 then 2 * i else i
    let hi := if q.rmode = 0 then 2 * i + 1 else i + d1 / 2
    let tb := f.at q.rtar
    let e := word32 f.cm (tb + 4 * i)
    if e / 2 ^ 30 = 3 then x k
    else
      let pos := signedOf 32 (word32 f.cm (tb + 256 + 768 * f.blk + 12 * o + 4 * (e / 2 ^ 30)))
      let t := turn ((pos * (e % 2 ^ 30 : Nat)) % 2 ^ 30).toNat
      let sn := v32 (r32 t.1)
      let cs := v32 (r32 t.2)
      let b := (x lo).2 || (x hi).2
      if k = lo then (v32 (r32 (((x lo).1.mul cs).sub ((x hi).1.mul sn))), b)
      else (v32 (r32 (((x lo).1.mul sn).add ((x hi).1.mul cs))), b)

/-- Input-transform coefficients Bᵀ (R158): WV, row, column. -/
def winCoef (wv r c : Nat) : Int :=
  let rows : List (List Int) := if wv = 1 then [[1, 0, -1, 0], [0, 1, 1, 0], [0, -1, 1, 0], [0, 1, 0, -1]]
    else [[4, 0, -5, 0, 1, 0], [0, -4, -4, 1, 1, 0], [0, 4, -4, -1, 1, 0], [0, -2, -1, 2, 1, 0], [0, 2, -1, -2, 1, 0],
      [0, 4, 0, -5, 0, 1]]
  (rows.getD r []).getD c 0

/-- Output-transform coefficients Aᵀ (R158): OXV, row, column. -/
def oxfCoef (oxv r c : Nat) : Int :=
  let rows : List (List Int) := if oxv = 1 then [[1, 1, 1, 0], [0, 1, -1, -1]]
    else [[1, 1, 1, 1, 1, 0], [0, 1, -1, 2, -2, 0], [0, 1, 1, 4, 4, 0], [0, 1, -1, 8, -8, 1]]
  (rows.getD r []).getD c 0

/-- A stored element with the early sub-stages: linear element number `i` of the stored operand, outer index `o`, K index `k`. -/
def storedAt (f : Feed) (q : PConf) (out base i o k : Nat) : FVal :=
  earlyStages f q out o k (expand f.fl f.fmt (elemAt f.cm base f.fmt i))

/-- S2C source (R156): element (m, k) of the array, as a stored element. Its parameters are those of its place in the stored operand
read as panels of LLAY 1 (DEDUCED, R116). -/
def s2cElem (f : Feed) (q : PConf) (out base m k : Nat) : FVal :=
  let r := 2 ^ (q.s2f + 1)
  let cs := f.kk / (r * r)
  let i := (k / (r * cs)) * (64 * r * cs) + (r * m + k / cs % r) * cs + k % cs
  storedAt f q out base i (i / 64 % 64) (i / 4096 * 64 + i % 64)

/-- WIN (R159): element (m, k) of the array, the sum over the nonzero coefficients, exact. The outer index of a strip element is not
stated by R116 where DEQ or NORM is enabled as well: a free choice. -/
def winElem (f : Feed) (q : PConf) (out base m k : Nat) : FVal :=
  let a := if q.wv = 1 then 4 else 6
  let py := q.wpos / a
  let px := q.wpos % a
  let g := k / 64
  let el (line : Nat) : FVal := storedAt f q out base (line * 64 + k % 64) (Config.stripOuter line % 64) k
  let terms : List (Int × Nat) :=
    if q.wv = 1 then (List.range 4).flatMap fun i => (List.range 4).map fun j =>
      (winCoef 1 py i * winCoef 1 px j, (g * 4 + i) * 130 + 2 * m + j)
    else (List.range 6).map fun i => (winCoef 0 py i, ((g * 6 + i) * 64 + m) * 6 + px)
  let used := terms.filter fun t => t.1 ≠ 0
  (used.foldl (fun a t => a.add ((ofInt t.1 0).mul (el t.2).1)) zero, used.any fun t => (el t.2).2)

/-- The prologue (R114 to R117, R163): element (o, k) of an operand in the slot's output format `out`; `raw` gives the stored element
of a plain operand, `d` the rotated span. -/
def prologue (f : Feed) (q : PConf) (out base d : Nat) (raw : Nat → Nat → Nat) (o k : Nat) : FVal :=
  let plain (k : Nat) : FVal := earlyStages f q out o k (expand f.fl f.fmt (raw o k))
  let moved (k : Nat) : FVal :=
    if q.win then let v := winElem f q out base o k; if q.rope then toFmt f.fl q.rfRope v else v
    else if q.s2c then s2cElem f q out base o k
    else plain k
  let v := if q.rope then ropeStage f q d o k moved else moved k
  -- ROPE that S2C or WIN stands behind in the table is the last stage all the same (R163)
  toFmt f.fl out v

/-- Output format of a slot for an operand stored in `fmt` (R115). -/
def PConf.out (q : PConf) (fmt : Nat) : Nat := if q.ofmt = 15 then fmt else q.ofmt

/-- Core-memory ranges that a slot's parameters take (R116, R139): offset and length. -/
def PConf.reads (q : PConf) (ars : List Nat) (kk blocks : Nat) : List (Nat × Nat) :=
  let at' (ar : Nat) : Nat := 64 * ars.getD ar 0
  let sw := (if q.dqsf = 0 then 128 else 256) + if q.dqz then 64 else 0
  (if q.deq then [(at' q.dqar, sw * ceilDiv ((if blkSize q.dqg > 64 then 64 * q.dqof else 0) + kk) (blkSize q.dqg))] else []) ++
  (if q.norm then [(at' q.nar, 512 * (if q.ngs = 7 then 1 else ceilDiv (64 * q.nof % (64 * 2 ^ q.ngs) + kk) (64 * 2 ^ q.ngs)))] ++
    (if q.naff then [(at' q.ngar, 8 * kk)] else []) else []) ++
  (if q.rope then [(at' q.rtar, 256 + 768 * blocks)] else [])

end Sys2Proof.Machine
end

