-- ==== Sys2Proof/Machine/Calender.lean ====
section
/-! DEFINITION. The calender codec (R169 to R173) and the place of feature-map transfers (R174). -/

namespace Sys2Proof.Machine

/-- Ratio of CAL2, CAL3, CAL4 by residency code 1, 2, 3. -/
def calRatio (mode : Nat) : Nat := mode + 1

/-- Blocks of a unit (R170). -/
def calBlocks (mode : Nat) : Nat := if mode = 2 then 3 else 1

/-- Elements of a sub-block, and its bits, for an element width in bits (R170). -/
def calN (mode : Nat) : Nat := 64 * calBlocks mode
def calBits (mode w : Nat) : Nat := calN mode * w / calRatio mode

/-- `b` and `n_low` (R170). -/
def calB (mode w : Nat) : Nat := (calBits mode w - 8) / calN mode
def calLow (mode w : Nat) : Nat := calN mode * (calB mode w + 1) - (calBits mode w - 8)

/-- Bits of element `e` of a sub-block. -/
def calWidth (mode w e : Nat) : Nat := if e < calLow mode w then calB mode w else calB mode w + 1

/-- The scale byte of a sub-block (R171). -/
def calScale (b : Nat) (l : List Val) : Nat :=
  if l.any fun v => match v with | .fin .. => false | _ => true then 0xFF
  else
    let a := amaxOf l
    if a.isZero then 0
    else ((List.range 254).find? fun (i : Nat) => a.le (.fin false (2 ^ (b + 1) - 1) ((i : Int) + 1 - 127))).elim 254 (· + 1)

/-- Code of the nearest of the levels `step * (2q + 1 - 2^n)` (R171); `step` is a power of two by its exponent. -/
def calCode (n : Nat) (step : Int) (v : Val) : Nat :=
  match v with
  | .fin neg m e =>
    if m = 0 then (if Config.calZero neg then 2 ^ (n - 1) else 2 ^ (n - 1) - 1)
    else
      -- magnitude in steps: level 2i + 1 is nearest from 2i up to 2i + 2, a tie going down
      let h := roundMant .rtz false m (e - step - 1)
      let i := if h.2 then h.1 else h.1 - 1
      let i := min i (2 ^ (n - 1) - 1)
      if neg then 2 ^ (n - 1) - 1 - i else 2 ^ (n - 1) + i
  | _ => 0

/-- The level of a code. -/
def calLevel (n : Nat) (step : Int) (q : Nat) : Val := (ofInt (2 * (q : Int) + 1 - 2 ^ n) step)

/-- Exponent of the level step of an element: s for `b + 1` bits, 2s for `b` bits. -/
def calStep (mode w c e : Nat) : Int := (c : Int) - 127 + if e < calLow mode w then 1 else 0

/-- The bits of a coded sub-block: scale byte, then codes in element order (R170, R171). -/
def calEncode (mode w : Nat) (l : List Val) : Nat :=
  let c := calScale (calB mode w) l
  (l.zipIdx.foldr (fun (x : Val × Nat) (a : Nat) =>
    a * 2 ^ calWidth mode w x.2 + if c = 0xFF then 0 else calCode (calWidth mode w x.2) (calStep mode w c x.2) x.1) 0) * 256 + c

/-- Codes of a sub-block, from element `e` on. -/
def calCodes (mode w : Nat) : Nat → Nat → Nat → List Nat
  | 0, _, _ => []
  | n + 1, e, v => v % 2 ^ calWidth mode w e :: calCodes mode w n (e + 1) (v / 2 ^ calWidth mode w e)

/-- The element values of a coded sub-block (R171). -/
def calDecode (mode w v : Nat) : List Val :=
  let c := v % 256
  (calCodes mode w (calN mode) 0 (v / 256)).zipIdx.map fun (x : Nat × Nat) =>
    if c = 0 then zero else if c = 0xFF then .nan else calLevel (calWidth mode w x.2) (calStep mode w c x.2) x.1

/-- Transfer row and element index in the row of element `e` of sub-block `j` of unit `u` of a band (R170): blocks run by pixel group,
then by channel slice. -/
def calPlace (mode u j e : Nat) : Nat × Nat :=
  let blk := u * calBlocks mode + e / 64
  (e % 64 / 8, (blk / 8 * 8 + e % 8) * 64 + blk % 8 * 8 + j)

/-- Units of a band. -/
def calUnits (mode w rlen : Nat) : Nat := rlen * 8 / w / calBlocks mode * 8

/-- Compressed bytes of a band of 8 rows of raw bytes. -/
def encodeBand (mode fmt rlen : Nat) (rows : List (List Byte)) : List Byte :=
  let w := fmtWidth fmt
  (List.range (calUnits mode w rlen / 8)).flatMap fun u => (List.range 8).flatMap fun j =>
    toBytes (calBits mode w / 8) (calEncode mode w ((List.range (calN mode)).map fun e =>
      let p := calPlace mode u j e
      decFmt fmt (elemOf fmt (rows.getD p.1 []) p.2)))

/-- Raw rows of a band from its compressed bytes, as element words by row. -/
def decodeBand (mode fmt rlen : Nat) (b : List Byte) : List (List Byte) :=
  let w := fmtWidth fmt
  let sb := calBits mode w / 8
  let all : List (Nat × Nat × Nat) := (List.range (calUnits mode w rlen / 8)).flatMap fun u => (List.range 8).flatMap fun j =>
    (calDecode mode w (ofBytes ((b.drop ((u * 8 + j) * sb)).take sb))).zipIdx.map fun (x : Val × Nat) =>
      ((calPlace mode u j x.2).1, (calPlace mode u j x.2).2, encFmt fmt .rne x.1)
  (List.range 8).map fun r =>
    let mine := all.filter fun x => x.1 = r
    (mine.foldl (fun (a : List Byte) x => patchAt a (x.2.1 * (w / 8)) (toBytes (w / 8) x.2.2)) (List.replicate (rlen * 64) 0))

/-- Addresses of the rows of a transfer (R80). A row below address 0 has no page, as one at 2^48 or above has none: the address that stands
for it is 2^48. -/
def rowVa (ma pitch r : Nat) : Nat :=
  let a : Int := (ma : Int) + r * signedOf 32 pitch
  if a < 0 then 2 ^ 48 else a.toNat

/-- The region that holds a whole transfer range (R169). -/
def State.fmapRegion (s : State) (p ma pitch nrow bytes : Nat) : Option (Nat × Obj) :=
  let lo : Int := min (ma : Int) (ma + (nrow - 1 : Nat) * signedOf 32 pitch)
  let hi : Int := max (ma : Int) (ma + (nrow - 1 : Nat) * signedOf 32 pitch) + bytes
  (s.regionsOf p).find? fun e => decide ((e.2.va : Int) ≤ lo) && decide (hi ≤ (e.2.va : Int) + e.2.bytes)

/-- The active job's feature-map residency (R36). -/
def State.residency (s : State) (p : Nat) : Nat := match s.activeJob p with | some k => (s.job k).residency | none => 0

/-- A feature-map transfer is coded (R169): its mode and format. -/
def State.coded (s : State) (p ma pitch nrow rlen : Nat) : Option (Nat × Nat) :=
  let mode := s.residency p
  match s.fmapRegion p ma pitch nrow (rlen * 64) with
  | some e =>
    let f := e.2.format
    let unit := (if mode = 2 then 24 else 8) * if fmtWidth f = 16 then 2 else 1
    if 1 ≤ mode && mode ≤ 3 && 3 ≤ f && f ≤ 7 && nrow % 8 = 0 && rlen % unit = 0 then some (mode, f) else none
  | none => none

/-- The pool place of a feature-map transfer under X7 (R174): base of the region in partition memory and in the pool. -/
def State.x7Place (s : State) (p ma pitch nrow rlen : Nat) : Option (Nat × Nat) :=
  if s.residency p ≠ 4 then none
  else match s.fmapRegion p ma pitch nrow (rlen * 64), s.activeJob p with
    | some e, some k => ((s.job k).x7.find? fun x => x.1 = e.1).map fun x => (e.2.va, x.2.1)
    | _, _ => none

end Sys2Proof.Machine
end

