-- ==== Sys2Proof/Machine/Array.lean ====
section
/-! DEFINITION. What the arrays and the row unit compute: TMA (R81, R47 to R52), TCH (R126, R129 to R138) and TRW APPLY (R128). -/

namespace Sys2Proof.Machine

/-! ## Operands -/

/-- An operand as the array sees it: its format and its elements by outer index and K index. -/
structure Opnd where
  fmt : Nat
  el : Nat → Nat → FVal

/-- An operand with or without a prologue slot (R114). -/
def operand (f : Feed) (q : Option PConf) (base d : Nat) (raw : Nat → Nat → Nat) : Opnd :=
  match q with
  | none => ⟨f.fmt, fun o k => enter f.fl f.fmt (raw o k)⟩
  | some q =>
    let out := q.out f.fmt
    ⟨out, fun o k => enterOut out (prologue f q out base d raw o k)⟩

/-- Integer formats that keep an INT32 accumulator (R47). -/
def narrowInt (c : Nat) : Bool := decide (c ≤ 3)

/-- The accumulator type of an operand pair (R47): 1 INT32, 0 FP32. -/
def accType (l r : Nat) (lsc rsc : Nat) : Nat := if narrowInt l && narrowInt r && lsc = 0 && rsc = 0 then 1 else 0

/-- An exact integer. -/
def valInt : Val → Int
  | .fin n m e => let x := (roundMant .rtz n m e).1; if n then -(x : Int) else x
  | _ => 0

/-- An accumulator with the marks SNFLUSH and ISAT. -/
structure Cell where
  v : Nat
  snf : Bool := false
  sat : Bool := false

/-- Add group `j` of products (R50 to R52). -/
def addGroup (fl : Bool) (ty : Nat) (prod : Nat → Val) (a : Cell) (j : Nat) : Cell :=
  let l := (List.range 64).map fun t => prod (64 * j + t)
  if ty = 1 then
    let r := accumulateInt a.v (l.foldl (fun x v => x + valInt v) 0)
    { a with v := r.1, sat := a.sat || r.2 }
  else
    let r := accumulate fl a.v (groupSum l)
    { a with v := r.1, snf := a.snf || r.2 }

/-- A canonical map of the 4,096 accumulators of a bank. -/
def bankOf (f : Nat → Nat → Nat) : SMap Nat :=
  (List.range 4096).filterMap fun i => let v := f (i / 64) (i % 64); if v = 0 then none else some (i, v)

def Bank.at (b : Bank) (m n : Nat) : Nat := SMap.get 0 b.acc (64 * m + n)

/-! ## TMA -/

/-- Fields of a TMA that its arithmetic uses. -/
structure TmaIn where
  acc : Nat
  l : Opnd
  r : Opnd
  ls : ScaleSpec
  rs : ScaleSpec
  lsBase : Nat
  rsBase : Nat
  klen : Nat
  /-- Initial values of ACC = LOAD. -/
  init : Nat

/-- Initial accumulator (R72, R73, R81, R59): the flushed value and the mark. -/
def tmaInit (fl : Bool) (cm : CoreBytes) (t : TmaIn) (ty : Nat) (bk : Bank) (m n : Nat) : Cell :=
  match t.acc with
  | 0 => { v := 0 }
  | 1 => { v := if bk.st = 0 then 0 else bk.at m n }
  | _ =>
    let w := word32 cm (t.init + 4 * (64 * m + n))
    if ty = 1 then { v := w } else let r := flushFmt fl 8 w; { v := r.1, snf := r.2 }

/-- One accumulator of a TMA. -/
def tmaCell (fl : Bool) (cm : CoreBytes) (t : TmaIn) (ty : Nat) (bk : Bank) (m n : Nat) : Cell :=
  let prod (k : Nat) : Val := product [(t.l.el m k).1, (t.r.el n k).1, (scaleAt fl cm t.ls t.lsBase m k).1, (scaleAt fl cm t.rs t.rsBase n k).1]
  (List.range t.klen).foldl (addGroup fl ty prod) (tmaInit fl cm t ty bk m n)

/-- FLUSH replaced an operand element or a scale of a TMA (R59). -/
def tmaFlushed (fl : Bool) (cm : CoreBytes) (t : TmaIn) : Bool :=
  fl && (List.range 64).any fun o => (List.range (64 * t.klen)).any fun k =>
    (t.l.el o k).2 || (t.r.el o k).2 || (scaleAt fl cm t.ls t.lsBase o k).2 || (scaleAt fl cm t.rs t.rsBase o k).2

/-- Bank, SNFLUSH and ISAT after a TMA. -/
def tmaBank (fl : Bool) (cm : CoreBytes) (t : TmaIn) (bk : Bank) : Bank × Bool × Bool :=
  let ty := accType t.l.fmt t.r.fmt t.ls.sc t.rs.sc
  let cell := tmaCell fl cm t ty bk
  let any (f : Cell → Bool) : Bool := (List.range 4096).any fun i => f (cell (i / 64) (i % 64))
  ({ st := 1, ty := ty, acc := bankOf fun m n => (cell m n).v }, tmaFlushed fl cm t || any (·.snf), any (·.sat))

/-! ## TCH -/

/-- The operands of a chain (R129 to R134). -/
structure ChainIn where
  dlen : Nat
  /-- Key tiles processed (R136). -/
  tiles : Nat
  q : Opnd
  /-- Key and value operands of tile j; the value's outer index runs over the head dimension. -/
  k : Nat → Opnd
  v : Nat → Opnd
  qs : ScaleSpec
  qsBase : Nat
  kv : ScaleSpec
  ksBase : Nat
  vsBase : Nat
  conf : RConf
  /-- LEN of LENS. -/
  len : Option Nat
  first : Bool
  last : Bool

/-- Head dimension. -/
def ChainIn.dh (t : ChainIn) : Nat := 64 * t.dlen

/-- Scale of a key's element (R134): key `c`, dimension `d`. -/
def kScale (fl : Bool) (cm : CoreBytes) (t : ChainIn) (j c d : Nat) : Val × Bool :=
  scaleAt fl cm t.kv (t.ksBase + j * (64 * t.dh / blkSize t.kv.blk)) c d

/-- Scale of a value's element (R134): key `c`, dimension `d`; KVDIR 0 runs along the outer axis of array B. -/
def vScale (fl : Bool) (cm : CoreBytes) (t : ChainIn) (j c d : Nat) : Val × Bool :=
  let b := blkSize t.kv.blk
  scaleAt fl cm { t.kv with dir := 1 - t.kv.dir } (t.vsBase + j * (64 * t.dh / b) + d / 64 * (4096 / b)) (d % 64) c

/-- A position is removed (R135). -/
def masked (t : ChainIn) (i j c : Nat) : Bool :=
  let kk : Int := 64 * j + c
  let q : Int := t.conf.qofs + i
  (match t.len with | some n => decide (kk ≥ (n : Int)) | none => false) ||
  (match t.conf.mask with
   | 1 => decide (kk > q)
   | 2 => decide ((kk - q).natAbs ≥ t.conf.wlen)
   | 3 => decide (kk > q) || decide (kk ≤ q - t.conf.wlen)
   | _ => false)

/-- Larger of two FP32 words (R126). R126 does not say whether a NaN beside a number gives NaN, nor which of two zeros of unlike signs
is larger: free choices between the operands; a NaN result is the canonical one (R41). -/
def max32 (a b : Nat) : Nat :=
  let na := (v32 a).isNan
  let nb := (v32 b).isNan
  if na || nb then (if (na && nb) || Config.nanMax a b then fp32.nan else if na then b else a)
  else if (v32 a).isZero && (v32 b).isZero then (if Config.zeroMax a b then a else b)
  else if (v32 a).lt (v32 b) then b else a

/-- Every position of key tile `j` is removed. -/
def tileMasked (t : ChainIn) (j : Nat) : Bool := (List.range 64).all fun i => (List.range 64).all fun c => masked t i j c

/-- State of one row of a chain: maximum, sum, output words. -/
structure ChainRow where
  mx : Nat
  sm : Nat
  o : List Nat
  snf : Bool := false

def negInf32 : Nat := 0xFF800000

/-- Scores of a row against key tile `j` (R126): FP32 groups over the head dimension. -/
def chainScore (fl : Bool) (cm : CoreBytes) (t : ChainIn) (i j c : Nat) : Cell :=
  let prod (d : Nat) : Val := product [(t.q.el i d).1, ((t.k j).el c d).1, (scaleAt fl cm t.qs t.qsBase i d).1, (kScale fl cm t j c d).1]
  (List.range t.dlen).foldl (addGroup fl 0 prod) { v := 0 }

/-- Key tile `j` of a row (R126). The row unit's functions give the bits of the special-function unit (R118), so under FLUSH a subnormal
P is a zero before it is summed. A tile whose every position is removed leaves the row unchanged (R127, R136), whatever its values
hold: DEDUCED, since the pseudocode would let a zero times a NaN of V through. -/
def chainTile (fl : Bool) (cm : CoreBytes) (t : ChainIn) (i : Nat) (r : ChainRow) (j : Nat) : ChainRow :=
  let raw := (List.range 64).map fun c => chainScore fl cm t i j c
  let sc := raw.zipIdx.map fun (x : Cell × Nat) => if masked t i j x.2 then negInf32 else mul32 x.1.v t.conf.sscale
  let pf := t.conf.pfmt
  let (mx, sm, corr, pw) : Nat × Nat × Nat × List (Nat × Bool) :=
    match t.conf.rfn with
    | 0 =>
      let mnew := max32 r.mx (sc.foldl max32 negInf32)
      if mnew = negInf32 then (r.mx, r.sm, one32, List.replicate 64 (0, false))
      else
        let corr := sfu32 fl .exp (sub32 r.mx mnew)
        let p := sc.map fun x => sfuWord fl .exp pf (sub32 x mnew)
        let rs := r32 (p.foldl (fun a w => a.add (decFmt pf w.1)) zero)
        (mnew, fma32 r.sm corr rs, corr, p)
    | 1 => (r.mx, r.sm, one32, sc.map fun x => sfuWord fl .sigmoid pf x)
    | _ => (r.mx, r.sm, one32, sc.zipIdx.map fun (x : Nat × Nat) => (if masked t i j x.2 then 0 else encFmt pf .rne (v32 x.1), false))
  let p := pw.map (·.1)
  let o1 := if (v32 corr).eqv (ofInt 1 0) then r.o else r.o.map fun x => mul32 x corr
  let pv := p.map fun w => enter fl pf w
  let o2 := o1.zipIdx.map fun (x : Nat × Nat) =>
    addGroup fl 0 (fun c => product [(pv.getD c (zero, false)).1, ((t.v j).el x.2 c).1, (vScale fl cm t j c x.2).1]) { v := x.1 } 0
  if tileMasked t j then { r with snf := r.snf || raw.any (·.snf) }
  else { mx := mx, sm := sm, o := o2.map (·.v), snf := r.snf || raw.any (·.snf) || pw.any (·.2) || pv.any (·.2) || o2.any (·.snf) }

/-- The end of a row (R126): its output words and its statistics. -/
def chainFinish (fl : Bool) (t : ChainIn) (r : ChainRow) : List Nat × Nat × Nat :=
  if t.conf.rfn ≠ 0 then (r.o, 0, 0)
  else if (v32 r.sm).isZero then (r.o.map fun _ => 0, r.mx, negInf32)
  else (r.o.map fun x => div32 x r.sm, r.mx, add32 r.mx (sfu32 fl .log r.sm))

/-- FLUSH replaced an operand element or a scale of a chain. -/
def chainFlushed (fl : Bool) (cm : CoreBytes) (t : ChainIn) : Bool :=
  fl && decide (t.tiles ≠ 0) && ((List.range 64).any fun o => (List.range t.dh).any fun d =>
    (t.q.el o d).2 || (scaleAt fl cm t.qs t.qsBase o d).2 || (List.range t.tiles).any fun j =>
      ((t.k j).el o d).2 || ((t.v j).el d o).2 || (kScale fl cm t j o d).2 || (vScale fl cm t j o d).2)

/-- The rows of a chain from their state before (R126). -/
def chainRows (fl : Bool) (cm : CoreBytes) (t : ChainIn) (start : Nat → ChainRow) : List ChainRow :=
  (List.range 64).map fun i => (List.range t.tiles).foldl (chainTile fl cm t i) (start i)

/-! ## TRW APPLY -/

/-- A row of a bank under a row-unit word (R128), MASK ignored: FP32 words. Functions are those of the special-function unit (R118). -/
def applyRow (fl : Bool) (q : RConf) (x : List Nat) : List Nat :=
  match q.rfn with
  | 0 =>
    let m := (x.drop 1).foldl max32 (x.headD 0)
    let p := x.map fun w => sfu32 fl .exp (sub32 w m)
    let s := r32 (p.foldl (fun a w => a.add (v32 w)) zero)
    p.map fun w => div32 w s
  | 1 => x.map fun w => sfu32 fl .sigmoid (mul32 w q.sscale)
  | _ => x.map fun w => mul32 w q.sscale

/-- A bank's word as FP32 (rounding point 6). -/
def bankF32 (ty w : Nat) : Nat := if ty = 1 then ofInt32 (signedOf 32 w) else w

/-- The bank after APPLY: FP32 (R83). R72, R83 and R128 do not say in which state APPLY leaves a bank that was FREE: it is HELD, since it
then holds a result (DEDUCED, log entry 62). -/
def applyBank (fl : Bool) (q : RConf) (bk : Bank) : Bank :=
  let row (m : Nat) : List Nat := applyRow fl q ((List.range 64).map fun n => if bk.st = 0 then 0 else bankF32 bk.ty (bk.at m n))
  let rows := (List.range 64).map row
  { bk with st := 2, ty := 0, acc := bankOf fun m n => (rows.getD m []).getD n 0 }

end Sys2Proof.Machine
end

