-- ==== Sys2Proof/Machine/Epilogue.lean ====
section
/-! DEFINITION. The epilogue (R85, R108, R120 to R124, R160, R161, R219): sub-stages, output transform, quantization and the final
conversion with its draws. -/

namespace Sys2Proof.Machine

/-- What a TEP works on. -/
structure TepIn where
  fl : Bool
  cm : CoreBytes
  ars : List Nat
  q : EConf
  ofmt : Nat
  oar : Nat
  sar : Nat
  bvar : Nat
  nrows : Nat

/-- Sub-stages CSC to OSC on the element of bank row `m`, column `n` (R122, R123); the last enabled sub-stage is left unconverted. -/
def epiStages (t : TepIn) (m n : Nat) (x0 : FVal) : FVal :=
  let q := t.q
  let late (i : Nat) : Bool := laterBits q.ena i
  let bv := 64 * t.ars.getD t.bvar 0
  let sep (i rf : Nat) (x : FVal) : FVal := if late i then toFmt t.fl rf x else x
  let x1 := if q.oxf then sep 0 q.rfOxf x0 else x0
  let x2 := if q.csc then (v32 (r32 (x1.1.mul (v32 (word32 t.cm (bv + 4 * n))))), x1.2) else x1
  let x3 := if q.rsc then (v32 (r32 (x2.1.mul (v32 (word32 t.cm (64 * t.ars.getD q.rvar 0 + 4 * m))))), x2.2) else x2
  let x4 := if q.csc || q.rsc then sep 2 q.rfScl x3 else x3
  let bo := bv + if q.csc then 256 else 0
  let x5 := if q.bias then sep 3 q.rfBias (v32 (r32 (x4.1.add (v32 (word32 t.cm (bo + 4 * n))))), x4.2) else x4
  let x6 := if q.act then
      let c := if late 4 then q.rfAct else t.ofmt
      sep 4 q.rfAct (fnFor (actFn q.actf) c (r32 x5.1), x5.2)
    else x5
  if q.osc then sep 5 q.rfOsc (v32 (r32 (x6.1.mul (v32 q.alpha))), x6.2) else x6

/-- Output rows per bank row side (R157): 2 or 4. -/
def oxfR (oxv : Nat) : Nat := if oxv = 1 then 2 else 4

/-- Positions of a transform. -/
def oxfPositions (oxv : Nat) : Nat := if oxv = 1 then 16 else 36

/-- The transform buffer after position `xp` has been added (R160 step 1); `x` gives the bank's elements. -/
def oxfAdd (oxv xp nrows : Nat) (buf : SMap Nat) (x : Nat → Nat → Val) : SMap Nat :=
  let r := oxfR oxv
  let a := if oxv = 1 then 4 else 6
  (List.range (nrows * 64)).foldl (fun b i => (List.range (r * r)).foldl (fun b o =>
    let al := oxfCoef oxv (o / r) (xp / a) * oxfCoef oxv (o % r) (xp % a)
    let k := 16 * i + o
    SMap.set 0 b k (r32 ((v32 (SMap.get 0 b k)).add ((ofInt al 0).mul (x (i / 64) (i % 64)))))) b) buf

/-- An output row: its index for addresses and blocks, its bank row, its elements before the final conversion. -/
structure EpiRow where
  idx : Nat
  m : Nat
  el : List FVal

/-- Output rows in the order of writing (R85, R161, R219). `x m n o` is the element of bank row m, column n, output o. -/
def epiRows (t : TepIn) (oxv : Option Nat) (x : Nat → Nat → Nat → Val) : List EpiRow :=
  let row (idx m o : Nat) : EpiRow := ⟨idx, m, (List.range 64).map fun n => epiStages t m n (x m n o, false)⟩
  match oxv with
  | none => (List.range t.nrows).map fun m => row m m 0
  | some v =>
    let r := oxfR v
    (List.range r).flatMap fun oy => (List.range (t.nrows * r)).map fun p => row (oy * 64 * r + p) (p / r) (oy * r + p % r)

/-- The scale byte of a block, and whether the block's elements are converted as they are (R58, R124). -/
def blockScale (t : TepIn) (l : List Val) : Nat × Bool :=
  if t.ofmt ≥ 6 then (if t.q.qsf = 1 then 0x7F else 0x38, true)
  else (scaleCode t.fl t.q.qsf t.ofmt l, (amaxOf l).isNan || (amaxOf l).isZero)

/-- Elements of the quantize block of element (row, n) (R124). -/
def blockOf (t : TepIn) (rows : List EpiRow) (r : EpiRow) (n : Nat) : List Val :=
  let b := 16 * 2 ^ t.q.qblk
  if t.q.qdir = 0 then ((r.el.drop (n / b * b)).take b).map (·.1)
  else (rows.filter fun (y : EpiRow) => y.idx / b = r.idx / b).map fun (y : EpiRow) => (y.el.getD n (zero, false)).1

/-- Byte offset of the scale of element (row, n) (R108). -/
def scalePlace (t : TepIn) (r : EpiRow) (n : Nat) : Nat :=
  let b := 16 * 2 ^ t.q.qblk
  64 * t.ars.getD t.sar 0 + if t.q.qdir = 0 then n / b * 64 + r.idx else r.idx / b * 64 + n

/-- The final conversion of one element (R123, R118), drawing one word from lane 8c + (n >> 3) where it is inexact (R219). -/
def State.convertOut (s : State) (c : Nat) (t : TepIn) (n : Nat) (v : Val) : State × Nat × Bool :=
  if t.q.rnd && t.ofmt ≠ 9 && inexactFmt t.ofmt v then
    let r := s.drawWords (c / 8) (8 * (c % 8) + n / 8) 1
    (r.1, convert t.fl t.ofmt (.sr (r.2.headD 0 % 65536)) v)
  else (s, convert t.fl t.ofmt .rne v)

/-- Elements of a row converted in column order: words and whether FLUSH replaced one. -/
def State.convertRow (s : State) (c : Nat) (t : TepIn) : List (Nat × FVal) → State × List Nat × Bool
  | [] => (s, [], false)
  | (n, x) :: rest =>
    let r := s.convertOut c t n x.1
    let r2 := r.1.convertRow c t rest
    (r2.1, r.2.1 :: r2.2.1, x.2 || r.2.2 || r2.2.2)

/-- Write output rows and their scales (R85, R108, R124): state and whether FLUSH replaced a value. With QDIR 0 and more than one block per
row, R108 and R161 place scales of two output rows at one byte once the row index reaches 64: the rows are written in the order of
R219 and the later one stays (DEDUCED, log entry 62). -/
def State.writeRows (s : State) (c : Nat) (t : TepIn) (all : List EpiRow) : List EpiRow → Bool → State × Bool
  | [], b => (s, b)
  | r :: rest, b =>
    let el : List (Nat × FVal) := r.el.zipIdx.map fun (x : FVal × Nat) =>
      (x.2, if t.q.qnt then
        let k := blockScale t (blockOf t all r x.2)
        (if t.ofmt ≥ 6 then x.1.1 else quantVal t.q.qsf k.1 k.2 x.1.1, x.1.2)
      else x.1)
    let y := s.convertRow c t el
    let w := fmtWidth t.ofmt
    let s1 := y.1.st (coreMem c + 64 * t.ars.getD t.oar 0 + r.idx * 8 * w) (packFmt t.ofmt (8 * w) y.2.1)
    let s2 := if t.q.qnt then (List.range 64).foldl (fun (u : State) n =>
        u.st (coreMem c + scalePlace t r n) [BitVec.ofNat 8 (blockScale t (blockOf t all r n)).1]) s1 else s1
    s2.writeRows c t all rest (b || y.2.2)

/-- The raw copy (R120): words of rows 0 to NROWS - 1 as they are. -/
def State.rawCopy (s : State) (c oar nrows : Nat) (x : Nat → Nat → Nat) : State :=
  s.st (coreMem c + oar) ((List.range (nrows * 64)).flatMap fun i => toBytes 4 (x (i / 64) (i % 64)))

/-- A TEP draws (R123): its final conversion is stochastic. -/
def EConf.draws (q : EConf) (ofmt : Nat) : Bool := q.rnd && ofmt ≠ 9

/-- Core-memory ranges a TEP reads and writes: `final` is none without OXF, else whether it is the last of its sequence with OXV. -/
def tepRanges (ars : List Nat) (q : EConf) (ofmt oar sar bvar nrows : Nat) (final : Option (Bool × Nat)) : List (Nat × Nat) × List (Nat × Nat) :=
  let at' (a : Nat) : Nat := 64 * ars.getD a 0
  let runs := match final with | some (l, _) => l | none => true
  if !runs then ([], [])
  else
    let side := match final with | some (_, v) => oxfR v | none => 1
    let extent := (side - 1) * 64 * side + nrows * side
    let b := 16 * 2 ^ q.qblk
    let vecs := (if q.csc then 256 else 0) + if q.bias then 256 else 0
    ((if vecs = 0 then [] else [(at' bvar, vecs)]) ++ (if q.rsc then [(at' q.rvar, 256)] else []),
     [(at' oar, extent * 8 * fmtWidth ofmt)] ++
       (if q.qnt then [(at' sar, if q.qdir = 0 then (64 / b - 1) * 64 + extent else ceilDiv extent b * 64)] else []))

end Sys2Proof.Machine
end

