-- ==== Sys2Proof/Machine/Tile.lean ====
section
/-! DEFINITION. Tile instructions as 16 B words (R78 to R93): layouts, the decoder that refuses malformed words (R79), the encoder. -/

namespace Sys2Proof.Machine

/-- Fields laid out from bit 0 upward: (width, value). -/
def packFields : List (Nat × Nat) → Nat
  | [] => 0
  | (w, v) :: r => v % 2 ^ w + 2 ^ w * packFields r

/-- The values of consecutive fields of these widths. -/
def unpackFields : List Nat → Nat → List Nat
  | [], _ => []
  | w :: r, x => x % 2 ^ w :: unpackFields r (x / 2 ^ w)

/-- Widths of the fields of an opcode, from bit 0, the reserved bits last (R80 to R93). -/
def tileWidths (opc : Nat) : List Nat :=
  match opc with
  | 0x01 => [8, 4, 4, 3, 1, 12, 12, 32, 52]
  | 0x02 => [8, 4, 4, 3, 1, 12, 12, 32, 52]
  | 0x10 => [8, 1, 1, 2, 4, 4, 4, 4, 8, 2, 3, 1, 2, 4, 2, 3, 1, 2, 4, 3, 3, 1, 4, 57]
  | 0x11 => [8, 1, 1, 1, 1, 4, 4, 4, 4, 4, 4, 2, 8, 2, 2, 3, 1, 4, 4, 4, 3, 3, 3, 2, 3, 4, 44]
  | 0x12 => [8, 2, 2, 4, 1, 1, 110]
  | 0x20 => [8, 3, 4, 1, 112]
  | 0x21 => [8, 1, 1, 3, 4, 4, 4, 4, 1, 7, 91]
  | 0x30 => [8, 2, 1, 24, 2, 3, 1, 4, 16, 16, 1, 4, 16, 16, 14]
  | 0x31 => [8, 2, 16, 8, 94]
  | 0x32 => [8, 2, 2, 2, 16, 24, 8, 66]
  | 0x40 => [8, 16, 16, 1, 1, 1, 1, 84]
  | 0x41 => [8, 16, 16, 1, 3, 84]
  | 0x42 => [8, 1, 1, 4, 4, 12, 12, 4, 82]
  | 0x43 => [8, 8, 1, 111]
  | 0x7F => [8, 120]
  | _ => []

/-- Opcode of an instruction (R78). -/
def Tile.opc : Tile → Nat
  | .xfer st .. => if st then 0x02 else 0x01
  | .tma .. => 0x10
  | .tch .. => 0x11
  | .trw .. => 0x12
  | .tpr .. => 0x20
  | .tep .. => 0x21
  | .tlp .. => 0x30
  | .tle .. => 0x31
  | .tsk .. => 0x32
  | .twt .. => 0x40
  | .tsg .. => 0x41
  | .thx .. => 0x42
  | .tdf .. => 0x43
  | .tend => 0x7F

/-- Field values after the opcode, in layout order, the reserved bits left out. -/
def Tile.fields : Tile → List Nat
  | .xfer _ tag car mar fmap nrow rlen pitch => [tag, car, mar, fmap, nrow, rlen, pitch]
  | .tma arr bank acc lfmt rfmt lar rar klen l r lps rps llay iar =>
    [arr, bank, acc, lfmt, rfmt, lar, rar, klen, l.sc, l.blk, l.dir, l.sof, l.ar, r.sc, r.blk, r.dir, r.sof, r.ar, lps, rps, llay, iar]
  | .tch sbank obank first last qfmt kfmt vfmt qar kar var dlen nkv rus kv vsar star lens qps kps q =>
    [sbank, obank, first, last, qfmt, kfmt, vfmt, qar, kar, var, dlen, nkv, rus, kv.sc, kv.blk, kv.dir, kv.ar, vsar, star, lens,
      qps, kps, q.sc, q.blk, q.ar]
  | .trw op slot ar arr bank => [op, slot, ar, arr, bank]
  | .tpr slot ar clr => [slot, ar, clr]
  | .tep arr bank eslot ofmt oar sar bvar keep nrows => [arr, bank, eslot, ofmt, oar, sar, bvar, keep, nrows]
  | .tlp lvl csrc count lsel sh i0v i0ar i0base i0str i1v i1ar i1base i1str =>
    [lvl, csrc, count, lsel, sh, i0v, i0ar, i0base, i0str, i1v, i1ar, i1base, i1str]
  | .tle lvl armask mamask => [lvl, armask, mamask]
  | .tsk lsel lvl act tsize ofs nskip => [lsel, lvl, act, tsize, ofs, nskip]
  | .twt tags flags clrf ida idb ide => [tags, flags, clrf, ida, idb, ide]
  | .tsg set clr tgt core => [set, clr, tgt, core]
  | .thx dir nb car tag nrow rlen slot => [dir, nb, car, tag, nrow, rlen, slot]
  | .tdf bar wait => [bar, wait]
  | .tend => []

/-- An instruction from its field values. -/
def Tile.ofFields (opc : Nat) (f : List Nat) : Option Tile :=
  match opc, f with
  | 0x01, [tag, car, mar, fmap, nrow, rlen, pitch] => some (.xfer false tag car mar fmap nrow rlen pitch)
  | 0x02, [tag, car, mar, fmap, nrow, rlen, pitch] => some (.xfer true tag car mar fmap nrow rlen pitch)
  | 0x10, [arr, bank, acc, lfmt, rfmt, lar, rar, klen, lsc, lblk, ldir, lsof, lsar, rsc, rblk, rdir, rsof, rsar, lps, rps, llay, iar] =>
    some (.tma arr bank acc lfmt rfmt lar rar klen ⟨lsc, lblk, ldir, lsof, lsar⟩ ⟨rsc, rblk, rdir, rsof, rsar⟩ lps rps llay iar)
  | 0x11, [sbank, obank, first, last, qfmt, kfmt, vfmt, qar, kar, var, dlen, nkv, rus, kvsc, kvblk, kvdir, ksar, vsar, star, lens,
      qps, kps, qsc, qblk, qsar] =>
    some (.tch sbank obank first last qfmt kfmt vfmt qar kar var dlen nkv rus ⟨kvsc, kvblk, kvdir, 0, ksar⟩ vsar star lens qps kps
      ⟨qsc, qblk, 0, 0, qsar⟩)
  | 0x12, [op, slot, ar, arr, bank] => some (.trw op slot ar arr bank)
  | 0x20, [slot, ar, clr] => some (.tpr slot ar clr)
  | 0x21, [arr, bank, eslot, ofmt, oar, sar, bvar, keep, nrows] => some (.tep arr bank eslot ofmt oar sar bvar keep nrows)
  | 0x30, [lvl, csrc, count, lsel, sh, i0v, i0ar, i0base, i0str, i1v, i1ar, i1base, i1str] =>
    some (.tlp lvl csrc count lsel sh i0v i0ar i0base i0str i1v i1ar i1base i1str)
  | 0x31, [lvl, armask, mamask] => some (.tle lvl armask mamask)
  | 0x32, [lsel, lvl, act, tsize, ofs, nskip] => some (.tsk lsel lvl act tsize ofs nskip)
  | 0x40, [tags, flags, clrf, ida, idb, ide] => some (.twt tags flags clrf ida idb ide)
  | 0x41, [set, clr, tgt, core] => some (.tsg set clr tgt core)
  | 0x42, [dir, nb, car, tag, nrow, rlen, slot] => some (.thx dir nb car tag nrow rlen slot)
  | 0x43, [bar, wait] => some (.tdf bar wait)
  | 0x7F, [] => some .tend
  | _, _ => none

/-- The fields of an instruction that is not malformed: a scale operand (R81): listed code, and where the scale is on, a listed
block size and an offset inside the block. -/
def ScaleSpec.ok (s : ScaleSpec) : Bool :=
  decide (s.sc < 3) && (s.sc == 0 || (decide (s.blk < 5) && decide (s.sof < max 1 (2 ^ s.blk / 4))))

/-- Formats of a TCH (R82). -/
def chainFmt (c : Nat) : Bool := decide (2 ≤ c) && decide (c ≤ 7)

/-- No code that a table does not list, no forbidden zero, no pitch off 64 B (R79). -/
def Tile.checked : Tile → Bool
  | .xfer _ _ _ _ _ nrow rlen pitch => decide (1 ≤ nrow) && decide (1 ≤ rlen) && pitch % 64 == 0
  | .tma _ _ acc lfmt rfmt _ _ klen l r lps rps _ _ =>
    decide (acc < 3) && decide (lfmt < 10) && decide (rfmt < 10) && decide (1 ≤ klen) && (decide (2 ≤ rfmt) || klen % 4 == 0) &&
      l.ok && r.ok && decide (lps < 5) && decide (rps < 5)
  | .tch _ _ _ _ qfmt kfmt vfmt _ _ _ dlen nkv _ kv _ _ lens qps kps q =>
    chainFmt qfmt && chainFmt kfmt && chainFmt vfmt && decide (1 ≤ dlen) && decide (dlen < 3) && decide (1 ≤ nkv) &&
      decide (kv.sc < 3) && (kv.sc == 0 || decide (kv.blk < 3)) && decide (lens < 5) && decide (qps < 5) && decide (kps < 5) &&
      decide (q.sc < 3) && (q.sc == 0 || decide (q.blk < 5)) && kv.sof == 0 && q.dir == 0 && q.sof == 0
  | .trw .. => true
  | .tpr .. => true
  | .tep _ _ eslot ofmt _ _ _ _ nrows => decide (eslot < 5) && decide (ofmt < 10) && decide (1 ≤ nrows) && decide (nrows < 65)
  | .tlp .. => true
  | .tle .. => true
  | .tsk _ _ act tsize _ _ => decide (act < 3) && decide (1 ≤ tsize)
  | .twt .. => true
  | .tsg .. => true
  | .thx _ _ _ _ nrow rlen _ => decide (1 ≤ nrow) && decide (1 ≤ rlen)
  | .tdf .. => true
  | .tend => true

/-- The 16 B word of an instruction (R78). -/
def Tile.encode (t : Tile) : Nat := packFields ((tileWidths t.opc).zip (t.opc :: t.fields ++ [0]))

/-- The instruction of a word; none where it is malformed (R79): the reserved bits are those that the encoder leaves zero. -/
def decodeTile (w : Nat) : Option Tile :=
  let f := unpackFields (tileWidths (w % 256)) w
  match Tile.ofFields (w % 256) (f.drop 1).dropLast with
  | some t => if t.checked && f.getLastD 1 == 0 then some t else none
  | none => none

/-- Every field fits its width. -/
def fieldsFit : List Nat → List Nat → Bool
  | w :: ws, v :: vs => decide (v < 2 ^ w) && fieldsFit ws vs
  | _, [] => true
  | [], _ => false

/-- A well-formed instruction: its fields fit, and it is not malformed. -/
def Tile.wf (t : Tile) : Bool := t.checked && fieldsFit ((tileWidths t.opc).drop 1) t.fields

end Sys2Proof.Machine
end

