-- ==== Sys2Proof/Machine/Matrix.lean ====
section
/-! DEFINITION. The matrix core (R64 to R98): unit queues, interlocks, what starting an instruction does, transfers and halos. -/

namespace Sys2Proof.Machine

/-! ## Units, ranges and interlocks -/

/-- Units of an instruction (R94): 0 array A, 1 array B, 2 epilogue, 3 row unit, 4 transfer unit. -/
def Tile.units : Tile → List Nat
  | .tma arr .. => [arr]
  | .tch .. => [0, 1, 3]
  | .tep .. => [2]
  | .trw .. => [3]
  | .xfer .. => [4]
  | .thx .. => [4]
  | _ => []

/-- Queue depth of a unit (R94). -/
def unitDepth : Nat → Nat
  | 2 => 4
  | 4 => 16
  | _ => 2

/-- Tag of a transfer. -/
def Tile.tag? : Tile → Option Nat
  | .xfer _ tag .. => some tag
  | .thx _ _ _ tag .. => some tag
  | _ => none

/-- A store outside the core that TSG and TDF wait for, or an epilogue write (R90). -/
def Tile.outward : Tile → Bool
  | .tep .. => true
  | .xfer st .. => st
  | .thx dir .. => dir == 0
  | _ => false

/-- The instruction names configuration slot `k`: 0 to 3 prologue, 4 to 7 epilogue (R95). -/
def Tile.namesSlot (k : Nat) : Tile → Bool
  | .tma _ _ _ _ _ _ _ _ _ _ lps rps _ _ => lps == k + 1 || rps == k + 1
  | .tch _ _ _ _ _ _ _ _ _ _ _ _ _ _ _ _ _ qps kps _ => qps == k + 1 || kps == k + 1
  | .tep _ _ eslot .. => eslot + 3 == k && decide (eslot ≠ 0)
  | _ => false

/-- What an instruction touches: core-memory ranges read and written, banks. -/
structure Touch where
  reads : List (Nat × Nat) := []
  writes : List (Nat × Nat) := []
  banks : List Nat := []

/-- Bytes of the stored left operand (R105, R156, R159). -/
def leftBytes (q : Option PConf) (fmt klen : Nat) : Nat :=
  let w := fmtWidth fmt
  match q with
  | some q => if q.win then klen * (if q.wv = 1 then 4 * 130 else 6 * 64 * 6) * 8 * w else 512 * klen * w
  | none => 512 * klen * w

/-- Parameter ranges of the slot of an operand. -/
def slotReads (q : Option PConf) (ars : List Nat) (kk blocks : Nat) : List (Nat × Nat) :=
  match q with
  | some q => q.reads ars kk blocks
  | none => []

/-- Output banks of a TCH (R82): DLEN 1 OBANK of array B, DLEN 2 both. -/
def outBanks (dlen obank : Nat) : List Nat := if dlen = 1 then [2 + obank] else [2, 3]

/-- Key tiles a TCH processes (R136). -/
def chainTiles (nkv : Nat) (len : Option Nat) : Nat := match len with | some n => min nkv (ceilDiv n 64) | none => nkv

/-- What an issued instruction touches (R96); `tepFinal` is the place of a TEP with OXF in its sequence. -/
def MCore.touch (m : MCore) (i : Issued) (tepFinal : Option (Bool × Nat)) : Touch :=
  let at' (a : Nat) : Nat := 64 * i.ars.getD a 0
  match i.op with
  | .xfer st _ car _ _ nrow rlen _ => if st then { reads := [(at' car, nrow * rlen * 64)] } else { writes := [(at' car, nrow * rlen * 64)] }
  | .thx dir _ car _ nrow rlen _ => if dir = 0 then { reads := [(at' car, nrow * rlen * 64)] } else { writes := [(at' car, nrow * rlen * 64)] }
  | .tma arr bank acc lfmt rfmt lar rar klen l r lps rps _ iar =>
    let kk := 64 * klen
    { reads := [(at' lar, leftBytes (m.pconf lps) lfmt klen), (at' rar, 512 * klen * fmtWidth rfmt)] ++
        (if l.sc = 0 then [] else [(at' l.ar, scaleBytes l kk)]) ++ (if r.sc = 0 then [] else [(at' r.ar, scaleBytes r kk)]) ++
        (if acc = 2 then [(at' iar, 16384)] else []) ++ slotReads (m.pconf lps) i.ars kk 1 ++ slotReads (m.pconf rps) i.ars kk 1,
      banks := [2 * arr + bank] }
  | .tch sbank obank _ last qfmt kfmt vfmt qar kar var dlen nkv _ kv vsar star _ qps kps q =>
    let dh := 64 * dlen
    let n := chainTiles nkv i.len
    let sc := n * (64 * dh / blkSize kv.blk)
    { reads := [(at' qar, 8 * dh * fmtWidth qfmt), (at' kar, n * (8 * dh * fmtWidth kfmt)), (at' var, n * (8 * dh * fmtWidth vfmt))] ++
        (if q.sc = 0 then [] else [(at' q.ar, scaleBytes q dh)]) ++ (if kv.sc = 0 then [] else [(at' kv.ar, sc), (at' vsar, sc)]) ++
        slotReads (m.pconf qps) i.ars dh 1 ++ (if n = 0 then [] else slotReads (m.pconf kps) i.ars dh n),
      writes := if last = 1 then [(at' star, 512)] else [],
      banks := sbank :: outBanks dlen obank }
  | .trw op _ ar arr bank =>
    match op with
    | 0 => { reads := [(at' ar, 64)] }
    | 1 => { banks := [2 * arr + bank] }
    | 2 => { writes := [(at' ar, 512)] }
    | _ => { reads := [(at' ar, 512)] }
  | .tep arr bank eslot ofmt oar sar bvar _ nrows =>
    let q := (m.econf eslot).getD {}
    let r := tepRanges i.ars q ofmt oar sar bvar nrows (if q.oxf then some (tepFinal.getD (true, q.oxv)) else none)
    { reads := r.1, writes := r.2, banks := [2 * arr + bank] }
  | _ => {}

/-- Two lists of ranges overlap. -/
def rangesMeet (a b : List (Nat × Nat)) : Bool := a.any fun x => b.any fun y => overlap x.1 x.2 y.1 y.2

/-- Two instructions may not run side by side (R74, R95). -/
def Touch.meets (a b : Touch) : Bool :=
  rangesMeet a.writes b.writes || rangesMeet a.writes b.reads || rangesMeet a.reads b.writes || a.banks.any b.banks.contains

def Started.touch (r : Started) : Touch := { reads := r.reads, writes := r.core, banks := r.banks }

/-- Place of the next TEP with OXF in its sequence (R160): it is the last, and OXV of the sequence. -/
def MCore.oxfNext (m : MCore) (q : EConf) : Bool × Nat :=
  let v := if m.xp = 0 then q.oxv else m.oxv
  (m.xp + 1 = oxfPositions v, v)

/-- A TEP's place for its own start; none for other instructions. -/
def MCore.tepPlace (m : MCore) (i : Issued) : Option (Bool × Nat) :=
  match i.op with
  | .tep _ _ eslot .. => some (m.oxfNext ((m.econf eslot).getD {}))
  | _ => none

/-- A TEP draws from a lane that a command or a draw ahead of it in arrival order holds (R192, R215). -/
def State.laneWaits (s : State) (c : Nat) (m : MCore) (i : Issued) : Bool :=
  match i.op with
  | .tep _ _ eslot ofmt .. =>
    ((m.econf eslot).getD {}).draws ofmt && (List.range 8).any fun l => s.lanePending (c / 8) (8 * (c % 8) + l) (2 ^ 15 + c)
  | _ => false

/-- Nothing but the lanes of a TEP keeps an issued instruction from starting (R74, R80, R94, R95): `before` are the
instructions queued ahead of it. R80 and R95 name TLD and TST as waiting for an outstanding tag; a THX waits for its tag too (DEDUCED from
R89 and R91, log entry 62). -/
def MCore.ready (m : MCore) (before : List Issued) (i : Issued) : Bool :=
  let t := m.touch i (m.tepPlace i)
  let same (o : Tile) : Bool := o.units.any i.op.units.contains
  !(before.any fun b => same b.op || t.meets (m.touch b none)) &&
  !(m.running.any fun r => t.meets r.touch || (same r.i.op && !i.op.units.contains 4) || (i.op.tag?.isSome && r.i.op.tag? == i.op.tag?))

/-- An issued instruction may start. -/
def State.mayStart (s : State) (c : Nat) (m : MCore) (before : List Issued) (i : Issued) : Bool := m.ready before i && !s.laneWaits c m i

/-! ## Core state -/

/-- The partition of a matrix core. -/
def State.corePart (s : State) (c : Nat) : Nat := (s.owner (c / 8)).getD 0

/-- FLUSH is in force on a core (R59, R99). -/
def State.flushes (s : State) (c : Nat) : Bool := s.fget .mcrModeSubn c == 0

def State.markCore (s : State) (c : Nat) (snf sat : Bool) : State :=
  let s1 := if snf then s.fset .mcrStatusSnflush c 1 else s
  if sat then s1.fset .mcrStatusIsat c 1 else s1

def State.setBank (s : State) (c b : Nat) (k : Bank) : State := s.setMcore c fun m => { m with banks := SMap.set {} m.banks b k }

/-- Change the started transfer with a tag. -/
def State.setXfer (s : State) (c tag : Nat) (f : Started → Started) : State :=
  s.setMcore c fun m => { m with running := m.running.map fun r => if r.i.op.tag? = some tag then f r else r }

/-- The started instructions that meet a condition have retired. -/
def State.retire (s : State) (c : Nat) (f : Started → Bool) : State := s.setMcore c fun m => { m with running := m.running.filter fun r => !f r }

/-! ## Transfers (R80, R169, R174) -/

/-- How a transfer went. -/
inductive XferRes where
  | done
  | wait (va : Nat) (write : Bool) (k : WaitKind)
  | bad
  deriving DecidableEq, Repr

/-- Read the rows of a transfer from partition memory. -/
def State.xferRows (s : State) (p ma pitch len : Nat) : Nat → Nat → List (List Byte) → State × (List (List Byte) ⊕ XferRes)
  | 0, _, acc => (s, .inl acc)
  | n + 1, r, acc =>
    match s.vread p (rowVa ma pitch r) len with
    | (s1, .ok b) => s1.xferRows p ma pitch len n (r + 1) (acc ++ [b])
    | (s1, .wait a k) => (s1, .inr (.wait a false k))
    | (s1, .bad _ _) => (s1, .inr .bad)

/-- Every row of a transfer translates for writing. -/
def State.probeRows (s : State) (p ma pitch len : Nat) : Nat → Nat → State × XferRes
  | 0, _ => (s, .done)
  | n + 1, r =>
    match s.vprobe p (rowVa ma pitch r) true len (len / 4096 + 2) with
    | (s1, .ok _) => s1.probeRows p ma pitch len n (r + 1)
    | (s1, .wait a k) => (s1, .wait a true k)
    | (s1, .bad _ _) => (s1, .bad)

/-- Write rows to partition memory, all or none. -/
def State.writeRowsTo (s : State) (p ma pitch len : Nat) (rows : List (List Byte)) : State × XferRes :=
  match s.probeRows p ma pitch len rows.length 0 with
  | (s1, .done) => (rows.zipIdx.foldl (fun (t : State) (x : List Byte × Nat) => (t.vwrite p (rowVa ma pitch x.2) x.1).1) s1, .done)
  | r => r

/-- Rows of the pool of skein memories, 64 B at a time (R174): a region's base in partition memory and in the pool. -/
def State.poolRow (s : State) (p base off va len : Nat) : List Byte :=
  (List.range (len / 64)).flatMap fun i => s.ld (s.poolDpa p (off + (va - base) + 64 * i)) 64

def State.poolWrite (s : State) (p base off va : Nat) (b : List Byte) : State :=
  (List.range (b.length / 64)).foldl (fun (t : State) i => t.st (t.poolDpa p (off + (va - base) + 64 * i)) ((b.drop (64 * i)).take 64)) s

/-- Consecutive pieces of a list. -/
def pieces (n : Nat) (l : List Byte) (k : Nat) : List (List Byte) := (List.range k).map fun i => (l.drop (n * i)).take n

/-- A feature-map transfer that its partition's codec mode does not code is counted (R169). -/
def State.countBypass (s : State) (p fmap : Nat) : State :=
  if fmap = 1 && 1 ≤ s.residency p && s.residency p ≤ 3 then s.fadd .ringBypass p 1 else s

/-- Move the data of a TLD or TST (R80): `off` is the core-memory offset. -/
def State.moveXfer (s : State) (c off ma fmap nrow rlen pitch : Nat) (st : Bool) : State × XferRes :=
  let p := s.corePart c
  let len := rlen * 64
  let x7 := if fmap = 1 then s.x7Place p ma pitch nrow rlen else none
  let cal := if fmap = 1 then s.coded p ma pitch nrow rlen else none
  let core := s.ld (coreMem c + off) (if st then nrow * len else 0)
  match x7, cal with
  | some (base, po), _ =>
    if st then
      ((pieces len core nrow).zipIdx.foldl (fun (t : State) (x : List Byte × Nat) => t.poolWrite p base po (rowVa ma pitch x.2) x.1) s, .done)
    else (s.st (coreMem c + off) ((List.range nrow).flatMap fun r => s.poolRow p base po (rowVa ma pitch r) len), .done)
  | none, some (mode, fmt) =>
    let cl := len / calRatio mode
    if st then
      let rows := (List.range (nrow / 8)).flatMap fun b => pieces cl (encodeBand mode fmt rlen (pieces len (core.drop (8 * b * len)) 8)) 8
      s.writeRowsTo p ma pitch cl rows
    else match s.xferRows p ma pitch cl nrow 0 [] with
      | (s1, .inl rows) =>
        let raw := (List.range (nrow / 8)).flatMap fun b => (decodeBand mode fmt rlen ((rows.drop (8 * b)).take 8).flatten).flatten
        (s1.st (coreMem c + off) raw, .done)
      | (s1, .inr e) => (s1, e)
  | none, none =>
    if st then
      let r := s.writeRowsTo p ma pitch len (pieces len core nrow)
      (if r.2 = .done then r.1.countBypass p fmap else r.1, r.2)
    else match s.xferRows p ma pitch len nrow 0 [] with
      | (s1, .inl rows) => ((s1.countBypass p fmap).st (coreMem c + off) rows.flatten, .done)
      | (s1, .inr e) => (s1, e)

/-- DPA ranges of `n` bytes of a partition's memory, 64 B at a time, as far as they are mapped writable (R98). -/
def State.vaRanges (s : State) (p va n : Nat) : List (Nat × Nat) :=
  (List.range (ceilDiv n 64)).filterMap fun i =>
    match s.translate p (va + 64 * i) true with
    | .dpa a => some (a, min 64 (n - 64 * i))
    | _ => none

/-- DPA ranges of the rows of a transfer (R98), in the pool of skein memories where X7 mode places them (R174). -/
def State.rowRanges (s : State) (p fmap ma pitch nrow rlen : Nat) : List (Nat × Nat) :=
  match if fmap = 1 then s.x7Place p ma pitch nrow rlen else none with
  | some (base, off) => (List.range nrow).flatMap fun r => (List.range rlen).map fun i =>
      (s.poolDpa p (off + (rowVa ma pitch r - base) + 64 * i), 64)
  | none => (List.range nrow).flatMap fun r => s.vaRanges p (rowVa ma pitch r) (64 * rlen)

/-! ## Halo exchange (R165 to R168) -/

/-- DSTEP and the word behind it in the WRITE of 8 B that carries a halo header; what that word holds is not stated. -/
def haloWord (step addr : Nat) : List Byte := toBytes 4 step ++ toBytes 4 (Config.haloPad step addr).toNat

/-- Key of an acknowledgement word in another module: device and address. -/
def ackKey (dev addr : Nat) : Nat := dev * 2 ^ 48 + addr

/-- The acknowledgement word CSTEP[b] in another module is written (R166): the WRITE of 8 B carries both words of the area, the other as
this job last wrote it, so that it keeps its value; 0xFFFF_FFFF before (R165). -/
def State.ackWords (s : State) (p dev ack b step : Nat) : State × List Byte :=
  match s.activeJob p with
  | none => (s, toBytes 8 (2 ^ 64 - 1))
  | some k =>
    let s1 := s.setJob k fun j => { j with acks := SMap.set 0xFFFFFFFF j.acks (ackKey dev (ack + 4 * b)) step }
    let word (i : Nat) : List Byte := toBytes 4 (SMap.get 0xFFFFFFFF (s1.job k).acks (ackKey dev (ack + 4 * i)))
    (s1, word 0 ++ word 1)

/-- Writes of a core's task go to the fabric, under its ring (R357). -/
def State.taskSubmit (s : State) (c : Nat) (l : List FabReq) : State := s.fabSubmit (l.map fun q => { q with ring := (s.mtask c).ring + 1 })

/-- Requests of a halo transfer have been answered, or not yet (R168): the next write is sent, the transfer ends, or the task ends
with MEMFAULT (R431). -/
def State.haloStep (s : State) (c tag : Nat) (next : List FabReq) : State :=
  let o := FabOwner.halo c tag
  match (s.mcore c).running.find? fun r => r.i.op.tag? = some tag with
  | none => s
  | some r =>
    if (r.halo ≠ 2 && r.halo ≠ 3) || s.fabOpen o then s
    else if s.fabWorst o ≠ 0 then (s.fabDrop o).stopMatrix c 7 r.i.pc
    else if r.halo = 2 then
      let s1 := ((s.fabDrop o).setXfer c tag fun r => { r with halo := 3 }).taskSubmit c next
      if s1.fabOpen o then s1
      else if s1.fabWorst o ≠ 0 then (s1.fabDrop o).stopMatrix c 7 r.i.pc
      else (s1.fabDrop o).setXfer c tag fun r => { r with halo := 0 }
    else (s.fabDrop o).setXfer c tag fun r => { r with halo := 0 }

/-- A transfer that waits for a translation. -/
def State.pauseXfer (s : State) (c tag va : Nat) (write : Bool) (k : WaitKind) : State :=
  (s.enterWait ⟨.matrix c, s.corePart c, va, write, k⟩).setXfer c tag fun r => { r with paused := true }

/-- A halo transfer that its size check refuses ends the task with RANGE and has written nothing (R166). -/
def State.haloRange (s : State) (c tag pc : Nat) : State := (s.retire c fun r => r.i.op.tag? = some tag).stopMatrix c 2 pc

/-- The table entry of a THX (R165); table address 0 stands for no neighbours (DEDUCED). -/
def State.haloEntry (s : State) (c nb slot : Nat) : State × XRes :=
  let h := (s.mcore c).halo
  if h = 0 then (s, .ok (List.replicate 64 0)) else s.vread (s.corePart c) (h + (nb * 16 + slot) * 64) 64

/-- THX send as far as it can go (R166, R168). -/
def State.haloSend (s : State) (c pc tag off nrow rlen : Nat) (e : List Byte) : State :=
  let p := s.corePart c
  let n := nrow * rlen * 64
  let step := s.fget .mcrStep c
  let b := step % 2
  let dst := fld e 0 6 + b * fld e 32 4
  if fld e 0 8 = 0 then s.setXfer c tag fun r => { r with halo := 0, paused := false }
  else if n + 64 > fld e 32 4 then s.haloRange c tag pc
  else match s.vread p (fld e 24 6 + 4 * b) 4 with
  | (s1, .wait a k) => s1.pauseXfer c tag a false k
  | (s1, .bad _ _) => s1.stopMatrix c 7 pc
  | (s1, .ok w) =>
    let cs := ofBytes w
    if cs ≠ 0xFFFFFFFF && (cs + 2) % 2 ^ 32 ≠ step then s1.setXfer c tag fun r => { r with halo := 1, paused := false }
    else
      let data := s1.ld (coreMem c + off) n
      let peer := fld e 36 2
      if peer = 0xFFFF then
        match s1.vprobe p dst true (n + 64) (n / 4096 + 3) with
        | (s2, .wait a k) => s2.pauseXfer c tag a true k
        | (s2, .bad _ _) => s2.stopMatrix c 7 pc
        | (s2, .ok _) => 
          (((s2.vwrite p (dst + 64) data).1.vwrite p dst (toBytes 4 step)).1).setXfer c tag fun r =>
            { r with halo := 0, paused := false, mem := s2.vaRanges p dst 4 ++ s2.vaRanges p (dst + 64) n }
      else
        let o := FabOwner.halo c tag
        let s2 := (s1.setXfer c tag fun r => { r with halo := 2, paused := false }).taskSubmit c (writeReqs o (peer % 4096) p (dst + 64) data)
        s2.haloStep c tag (writeReqs o (peer % 4096) p dst (haloWord step dst))

/-- THX receive as far as it can go (R166, R168). -/
def State.haloReceive (s : State) (c pc tag off nrow rlen : Nat) (e : List Byte) : State :=
  let p := s.corePart c
  let n := nrow * rlen * 64
  let step := s.fget .mcrStep c
  let b := step % 2
  let buf := fld e 16 6 + b * fld e 32 4
  let ack := fld e 8 6
  if fld e 16 8 = 0 then (s.st (coreMem c + off) (List.replicate n 0)).setXfer c tag fun r => { r with halo := 0, paused := false }
  else if n + 64 > fld e 32 4 then s.haloRange c tag pc
  else match s.vread p buf 4 with
  | (s1, .wait a k) => s1.pauseXfer c tag a false k
  | (s1, .bad _ _) => s1.stopMatrix c 7 pc
  | (s1, .ok w) =>
    if ofBytes w ≠ step then s1.setXfer c tag fun r => { r with halo := 1, paused := false }
    else match s1.vread p (buf + 64) n with
    | (s2, .wait a k) => s2.pauseXfer c tag a false k
    | (s2, .bad _ _) => s2.stopMatrix c 7 pc
    | (s2, .ok data) =>
      let s3 := s2.st (coreMem c + off) data
      let peer := fld e 36 2
      if peer = 0xFFFF then
        match s3.vwrite p (ack + 4 * b) (toBytes 4 step) with
        | (s4, .wait a k) => s4.pauseXfer c tag a true k
        | (s4, .bad _ _) => s4.stopMatrix c 7 pc
        | (s4, .ok _) => s4.setXfer c tag fun r => { r with halo := 0, paused := false, mem := s4.vaRanges p (ack + 4 * b) 4 }
      else
        let o := FabOwner.halo c tag
        let w := s3.ackWords p (peer % 4096) ack b step
        let s4 := (w.1.setXfer c tag fun r => { r with halo := 3, paused := false }).taskSubmit c (writeReqs o (peer % 4096) p ack w.2)
        s4.haloStep c tag []

/-- Run a started transfer as far as it can go. -/
def State.runXfer (s : State) (c : Nat) (i : Issued) : State :=
  let at' (a : Nat) : Nat := 64 * i.ars.getD a 0
  match i.op with
  | .xfer st tag car _ fmap nrow rlen pitch =>
    match s.moveXfer c (at' car) i.ma fmap nrow rlen pitch st with
    | (s1, .done) => s1.setXfer c tag fun r => { r with paused := false }
    | (s1, .wait a w k) => s1.pauseXfer c tag a w k
    | (s1, .bad) => s1.stopMatrix c 7 i.pc
  | .thx dir nb car tag nrow rlen slot =>
    match s.haloEntry c nb slot with
    | (s1, .wait a k) => s1.pauseXfer c tag a false k
    | (s1, .bad _ _) => s1.stopMatrix c 7 i.pc
    | (s1, .ok e) => if dir = 0 then s1.haloSend c i.pc tag (at' car) nrow rlen e else s1.haloReceive c i.pc tag (at' car) nrow rlen e
  | _ => s

/-- The next write of a halo transfer whose data writes have been answered: its header (R166, R168). -/
def State.haloAnswered (s : State) (c tag : Nat) : State :=
  match (s.mcore c).running.find? fun r => r.i.op.tag? = some tag with
  | some r =>
    match r.i.op with
    | .thx _ nb _ _ _ _ slot =>
      match s.haloEntry c nb slot with
      | (s1, .ok e) =>
        let step := s1.fget .mcrStep c
        let dst := fld e 0 6 + step % 2 * fld e 32 4
        s1.haloStep c tag (writeReqs (.halo c tag) (fld e 36 2 % 4096) (s1.corePart c) dst (haloWord step dst))
      | (s1, _) => s1.stopMatrix c 7 r.i.pc
    | _ => s
  | none => s

/-! ## Starting an instruction -/

/-- The feed of an operand. -/
def State.feed (s : State) (c : Nat) (i : Issued) (fmt kk blk : Nat) : Feed :=
  { cm := s.coreBytes c, ars := i.ars, fmt := fmt, kk := kk, fl := s.flushes c, blk := blk }

/-- A TMA starts: its data effect (R81). -/
def State.startTma (s : State) (c : Nat) (i : Issued) (arr bank acc lfmt rfmt lar rar klen : Nat) (l r : ScaleSpec) (lps rps llay iar : Nat) : State :=
  let m := s.mcore c
  let at' (a : Nat) : Nat := 64 * i.ars.getD a 0
  let cm := s.coreBytes c
  let kk := 64 * klen
  let left := operand (s.feed c i lfmt kk 0) (m.pconf lps) (at' lar) kk fun o k => leftElem cm (at' lar) lfmt llay o k
  let right := operand (s.feed c i rfmt kk 0) (m.pconf rps) (at' rar) kk fun o k => rightElem cm (at' rar) rfmt o k
  let t : TmaIn := { acc := acc, l := left, r := right, ls := l, rs := r, lsBase := at' l.ar, rsBase := at' r.ar, klen := klen, init := at' iar }
  let bk := SMap.get {} m.banks (2 * arr + bank)
  if acc = 1 && bk.st ≠ 0 && bk.ty ≠ accType left.fmt right.fmt l.sc r.sc then s.stopMatrix c 5 i.pc
  else
    let x := tmaBank (s.flushes c) cm t bk
    ((s.setBank c (2 * arr + bank) x.1).markCore c x.2.1 x.2.2).fadd (if arr = 0 then .mcrStepsA else .mcrStepsB) c kk

/-- A TCH starts: its data effect (R126, R132). -/
def State.startTch (s : State) (c : Nat) (i : Issued) (sbank obank first last qfmt kfmt vfmt qar kar var dlen nkv rus : Nat)
    (kv : ScaleSpec) (vsar star qps kps : Nat) (q : ScaleSpec) : State :=
  let m := s.mcore c
  let at' (a : Nat) : Nat := 64 * i.ars.getD a 0
  let cm := s.coreBytes c
  let fl := s.flushes c
  let dh := 64 * dlen
  let tk := 8 * dh * fmtWidth kfmt
  let tv := 8 * dh * fmtWidth vfmt
  let n := chainTiles nkv i.len
  let t : ChainIn :=
    { dlen := dlen, tiles := n,
      q := operand (s.feed c i qfmt dh 0) (m.pconf qps) (at' qar) dh fun o k => leftElem cm (at' qar) qfmt 1 o k,
      k := fun j => operand (s.feed c i kfmt dh j) (m.pconf kps) (at' kar + j * tk) dh fun o k => rightElem cm (at' kar + j * tk) kfmt o k,
      v := fun j => ⟨vfmt, fun o k => enter fl vfmt (rightElem cm (at' var + j * tv + o / 64 * (512 * fmtWidth vfmt)) vfmt (o % 64) k)⟩,
      qs := q, qsBase := at' q.ar, kv := kv, ksBase := at' kv.ar, vsBase := at' vsar, conf := m.rconf rus, len := i.len,
      first := first = 1, last := last = 1 }
  let outs := outBanks dlen obank
  let bankAt (b : Nat) : Bank := SMap.get {} m.banks b
  if first = 0 && outs.any fun b => (bankAt b).st ≠ 0 && (bankAt b).ty = 1 then s.stopMatrix c 5 i.pc
  else
    let start (r : Nat) : ChainRow :=
      if first = 1 then { mx := negInf32, sm := 0, o := List.replicate dh 0 }
      else { mx := SMap.get 0 m.stats r, sm := SMap.get 0 m.stats (64 + r),
             o := (List.range dh).map fun d => let b := bankAt (outs.getD (d / 64) 2); if b.st = 0 then 0 else b.at r (d % 64) }
    let rows := chainRows fl cm t start
    let ends := rows.map fun r => if last = 1 then chainFinish fl t r else (r.o, 0, 0)
    let out (h : Nat) : Bank := { st := 1, ty := 0, acc := bankOf fun r d => (((ends.getD r ([], 0, 0)).1).getD (64 * h + d) 0) }
    let s1 := outs.zipIdx.foldl (fun (u : State) (b : Nat × Nat) => u.setBank c b.1 (out b.2)) (s.setBank c sbank { st := 1, ty := 0 })
    let stats := (rows.zipIdx.foldl (fun (a : SMap Nat) (r : ChainRow × Nat) => SMap.set 0 (SMap.set 0 a r.2 r.1.mx) (64 + r.2) r.1.sm) m.stats)
    let s2 := s1.setMcore c fun m => { m with stats := stats }
    let s3 := if last = 1 then s2.st (coreMem c + at' star) (ends.flatMap fun e => toBytes 4 e.2.1 ++ toBytes 4 e.2.2) else s2
    ((s3.markCore c (chainFlushed fl cm t || rows.any (·.snf)) false).fadd .mcrStepsA c (n * dh)).fadd .mcrStepsB c (n * dh)

/-- A TEP starts: its data effect (R85, R120 to R124, R160). -/
def State.startTep (s : State) (c : Nat) (i : Issued) (arr bank eslot ofmt oar sar bvar keep nrows : Nat) : State :=
  let m := s.mcore c
  let b := 2 * arr + bank
  let bk := SMap.get {} m.banks b
  let word (r n : Nat) : Nat := if bk.st = 0 then 0 else bk.at r n
  let ty := if bk.st = 0 then 0 else bk.ty
  let x (r n : Nat) : Val := v32 (bankF32 ty (word r n))
  let s0 := s.setBank c b { bk with st := 3, back := bk.st = 2 && keep = 1 }
  let q := (m.econf eslot).getD {}
  let t : TepIn := { fl := s.flushes c, cm := s.coreBytes c, ars := i.ars, q := q, ofmt := ofmt, oar := oar, sar := sar, bvar := bvar, nrows := nrows }
  if eslot = 0 && ofmt = (if ty = 1 then 9 else 8) then s0.rawCopy c (64 * i.ars.getD oar 0) nrows word
  else if q.oxf then
    let (fin, v) := m.oxfNext q
    let buf := oxfAdd v m.xp nrows m.oxf x
    if fin then
      let rows := epiRows t (some v) fun r n o => v32 (SMap.get 0 buf (16 * (64 * r + n) + o))
      let y := s0.writeRows c t rows rows false
      (y.1.setMcore c fun m => { m with oxf := [], xp := 0, oxv := 0 }).markCore c y.2 false
    else s0.setMcore c fun m => { m with oxf := buf, xp := m.xp + 1, oxv := v }
  else
    let rows := epiRows t none fun r n _ => x r n
    let y := s0.writeRows c t rows rows false
    y.1.markCore c y.2 false

/-- A TRW starts and is over (R83, R125, R127, R128). -/
def State.startTrw (s : State) (c : Nat) (i : Issued) (op slot ar arr bank : Nat) : State :=
  let a := coreMem c + 64 * i.ars.getD ar 0
  match op with
  | 0 =>
    let b := s.ld a 64
    if rWordOk b then s.setMcore c fun m => { m with slots := SMap.set [] m.slots (8 + slot) b } else s.stopMatrix c 1 i.pc
  | 1 =>
    let m := s.mcore c
    s.setBank c (2 * arr + bank) (applyBank (s.flushes c) (m.rconf slot) (SMap.get {} m.banks (2 * arr + bank)))
  | 2 => s.st a ((List.range 64).flatMap fun r => toBytes 4 (SMap.get 0 (s.mcore c).stats r) ++ toBytes 4 (SMap.get 0 (s.mcore c).stats (64 + r)))
  | _ =>
    let st := (List.range 64).foldl (fun (m : SMap Nat) r => SMap.set 0 (SMap.set 0 m r (s.ldNat (a + 8 * r) 4)) (64 + r) (s.ldNat (a + 8 * r + 4) 4))
      (s.mcore c).stats
    s.setMcore c fun m => { m with stats := st }

/-- A written range meets the deckle window (R68). -/
def State.inWindow (s : State) (c : Nat) (r : Nat × Nat) : Bool :=
  let n := s.fget .mcrDeckleSize c
  n ≠ 0 && overlap r.1 r.2 (s.fget .mcrDeckleBase c * 0x4000) (n * 0x4000)

/-- An instruction starts on its unit (R94): ranges are checked (R96, R68), then its effect takes place. One that RANGE or WINDOW refuses
has not started, and names nothing under R98; one that ACCTYPE refuses has (DEDUCED, log entry 62). -/
def State.startIssued (s : State) (c : Nat) (i : Issued) : State :=
  let m := s.mcore c
  let t := m.touch i (m.tepPlace i)
  let s1 := s.setMcore c fun m => { m with queue := m.queue.erase i }
  let s0 := if t.reads.isEmpty then s1 else s1.countCorrected .mcrEccCe c
  let mem := match i.op with
    | .xfer _ _ _ _ fmap nrow rlen pitch => s.rowRanges (s.corePart c) fmap i.ma pitch nrow rlen
    | _ => []
  let run : Started := { i := i, core := t.writes, reads := t.reads, mem := mem, banks := t.banks }
  let go (s : State) : State := s.setMcore c fun m => { m with running := m.running ++ [run] }
  if (t.reads ++ t.writes).any fun r => r.1 + r.2 > 0x400000 then s0.stopMatrix c 2 i.pc
  else if t.writes.any fun r => s.inWindow c r then s0.stopMatrix c 3 i.pc
  else match i.op with
  | .tma arr bank acc lfmt rfmt lar rar klen l r lps rps llay iar =>
    (go s0).startTma c i arr bank acc lfmt rfmt lar rar klen l r lps rps llay iar
  | .tch sbank obank first last qfmt kfmt vfmt qar kar var dlen nkv rus kv vsar star _ qps kps q =>
    (go s0).startTch c i sbank obank first last qfmt kfmt vfmt qar kar var dlen nkv rus kv vsar star qps kps q
  | .tep arr bank eslot ofmt oar sar bvar keep nrows => (go s0).startTep c i arr bank eslot ofmt oar sar bvar keep nrows
  | .trw op slot ar arr bank => s0.startTrw c i op slot ar arr bank
  | _ => (go s0).runXfer c i

/-- The first queued instruction that may start. -/
def State.nextIssued (s : State) (c : Nat) (m : MCore) : List Issued → List Issued → Option Issued
  | _, [] => none
  | before, i :: rest => if s.mayStart c m before i then some i else s.nextIssued c m (before ++ [i]) rest

/-- A TEP that waits for its lanes alone takes its place in their arrival order (R215). -/
def State.joinLanes (s : State) (c : Nat) (m : MCore) : List Issued → List Issued → State
  | _, [] => s
  | before, i :: rest =>
    if m.ready before i && s.laneWaits c m i then (List.range 8).foldl (fun t l => t.joinLane (c / 8) (8 * (c % 8) + l) (2 ^ 15 + c)) s
    else s.joinLanes c m (before ++ [i]) rest

/-- The task of a core runs: it has started and not ended, and nothing holds its partition. -/
def State.coreLive (s : State) (c : Nat) : Bool :=
  (s.mtask c).active && (s.mtask c).outcome.isNone && s.fget .mcrStatusBusy c == 1 && !s.halted (s.corePart c)

/-- An issued instruction draws from lanes (R219). -/
def State.draws (s : State) (c : Nat) (i : Issued) : Bool :=
  match i.op with
  | .tep _ _ eslot ofmt .. => (((s.mcore c).econf eslot).getD {}).draws ofmt
  | _ => false

/-- Start every queued instruction that may start. -/
def State.pumpCore (s : State) (c : Nat) : Nat → State
  | 0 => s
  | n + 1 =>
    if !s.coreLive c then s
    else match s.nextIssued c (s.mcore c) [] (s.mcore c).queue with
      | none => s.joinLanes c (s.mcore c) [] (s.mcore c).queue
      | some i => (((if s.draws c i then s.leaveLanes (2 ^ 15 + c) else s).startIssued c i).syncUnits c).pumpCore c n

def State.pump (s : State) (c : Nat) : State := s.pumpCore c 64

/-- A lane of a skein has served a consumer: what waited for it on the skein's matrix cores starts (R215). -/
def State.pumpSkein (s : State) (k : Nat) : State := (List.range 8).foldl (fun t i => t.pump (8 * k + i)) s

/-- WHORL_CMD_COMPLETE. -/
def execWhorlCmdComplete (k : Fin 64) (s : State) : Res := .next ((s.whorlComplete k).pumpSkein k)

/-- The waits of a core's transfers have been served: they go on (R80). -/
def State.resumeCore (s : State) (c : Nat) : State :=
  (((s.mcore c).running.filter (·.paused)).foldl (fun (t : State) (r : Started) => if t.coreLive c then t.runXfer c r.i else t) s).pump c

end Sys2Proof.Machine
end

