-- ==== Sys2Proof/Machine/RvVec.lean ====
section
/-! DEFINITION. The vector instruction set of a carding core (R178, R180, R203): V 1.0 for VLEN 1,024 and ELEN 64 with Zvfh, Zvfbfmin
and Zvfbfwma, as functions of one thread. Encodings and results are those of the RISC-V standard (PRESUMED, log); a reserved
encoding is illegal. -/

namespace Sys2Proof.Machine

def Thread.vreg (h : Thread) (r : Nat) : Nat := SMap.get 0 h.v r
def Thread.setVreg (h : Thread) (r v : Nat) : Thread := { h with v := SMap.set 0 h.v r (v % 2 ^ 1024) }
/-- Element `i` of width `w` of the group that starts at a register. -/
def Thread.velt (h : Thread) (r w i : Nat) : Nat := bitField (h.vreg (r + i * w / 1024)) (i * w % 1024) w
/-- Mask bit. -/
def Thread.vbit (h : Thread) (r i : Nat) : Bool := (h.vreg r).testBit i

/-- What a vector instruction executes under: SEW, 8 times LMUL, vl, vstart, policies, no mask (vm), and its word, which decides the
agnostic elements that become ones (R61, R203). -/
structure VC where
  h : Thread
  sew : Nat
  l8 : Nat
  vl : Nat
  vstart : Nat
  ta : Bool
  ma : Bool
  vm : Bool
  iw : Nat
  deriving DecidableEq, Repr, Inhabited

/-- 8 times LMUL by its code; 0 for the reserved one. -/
def lmul8 : Nat → Nat
  | 0 => 8
  | 1 => 16
  | 2 => 32
  | 3 => 64
  | 5 => 1
  | 6 => 2
  | 7 => 4
  | _ => 0

/-- VLMAX (R180). -/
def vlmaxOf (sew l8 : Nat) : Nat := 128 * l8 / sew

/-- SEW and 8 times LMUL of a supported vtype. -/
def vtypeOf (t : Nat) : Option (Nat × Nat) :=
  let l8 := lmul8 (t % 8)
  let sew := 8 * 2 ^ bitField t 3 3
  if t ≥ 256 || l8 = 0 || sew > 64 || (l8 < 8 && sew > 8 * l8) then none else some (sew, l8)

/-- The context of an instruction; none with vill. -/
def vcOf (h : Thread) (w : Nat) : Option VC :=
  (vtypeOf h.vtype).map fun t =>
    { h := h, sew := t.1, l8 := t.2, vl := h.vl, vstart := h.vstart, ta := bitAt h.vtype 6, ma := bitAt h.vtype 7,
      vm := bitAt w 25, iw := w }

def VC.vlmax (c : VC) : Nat := vlmaxOf c.sew c.l8
/-- 8 times EMUL of elements of width `w`; 0 where it is below 1/8. -/
def VC.e8 (c : VC) (w : Nat) : Nat := c.l8 * w / c.sew
/-- Registers of a group. -/
def regs8 (n8 : Nat) : Nat := max 1 (n8 / 8)
/-- A group is legal: EMUL from 1/8 to 8, aligned. -/
def ok8 (n8 r : Nat) : Bool := 1 ≤ n8 && n8 ≤ 64 && r % regs8 n8 = 0
def VC.gok (c : VC) (r w : Nat) : Bool := ok8 (c.e8 w) r
/-- A destination group of width `w` is legal: a masked one is not v0. -/
def VC.dok (c : VC) (r w : Nat) : Bool := c.gok r w && (c.vm || r ≠ 0)
/-- Two groups do not overlap. -/
def apart (a na b nb : Nat) : Bool := decide (a + na ≤ b) || decide (b + nb ≤ a)
/-- A destination may overlap a source of another element width as V allows. -/
def VC.ov (c : VC) (d wd r ws : Nat) : Bool :=
  let nd := if wd = 1 then 1 else regs8 (c.e8 wd)
  let ns := if ws = 1 then 1 else regs8 (c.e8 ws)
  apart d nd r ns || wd = ws || (if wd < ws then d = r else (ws = 1 || c.e8 ws ≥ 8) && ws ≠ 1 && r + ns = d + nd)

def VC.active (c : VC) (i : Nat) : Bool := c.vm || c.h.vbit 0 i
/-- What an agnostic element becomes. -/
def VC.agn (c : VC) (i w old : Nat) : Nat := if Config.agnostic c.iw i then 2 ^ w - 1 else old

/-- New elements of a group from element `i` on: old ones, values of the body (none: inactive), then the tail. -/
def VC.merge (c : VC) (w : Nat) : Nat → List Nat → List (Option Nat) → List Nat
  | _, [], _ => []
  | i, o :: os, [] => (if c.ta then c.agn i w o else o) :: c.merge w (i + 1) os []
  | i, o :: os, v :: vs =>
    (if i < c.vstart then o
     else match v with
      | some x => x % 2 ^ w
      | none => if c.ma then c.agn i w o else o) :: c.merge w (i + 1) os vs

/-- Write a number over consecutive registers. -/
def Thread.setGroup (h : Thread) (r : Nat) (v : Nat) : Nat → Thread
  | 0 => h
  | n + 1 => (h.setVreg r (v % 2 ^ 1024)).setGroup (r + 1) (v / 2 ^ 1024) n

/-- Pack elements of width `w`. -/
def packElts (w : Nat) (l : List Nat) : Nat := l.foldr (fun x a => a * 2 ^ w + x % 2 ^ w) 0

/-- Write `vl` body values to a group of `regs` registers; nothing where vstart is at or beyond vl. -/
def VC.putN (c : VC) (h : Thread) (vd w regs : Nat) (vals : List (Option Nat)) : Thread :=
  if c.vstart ≥ vals.length then h
  else
    let old := (List.range (regs * 1024 / w)).map (h.velt vd w)
    h.setGroup vd (packElts w (c.merge w 0 old vals)) regs

def VC.put (c : VC) (h : Thread) (vd w : Nat) (vals : List (Option Nat)) : Thread := c.putN h vd w (regs8 (c.e8 w)) vals

/-- Write a mask result: its tail is always agnostic. -/
def VC.putMask (c : VC) (h : Thread) (vd : Nat) (vals : List (Option Bool)) : Thread :=
  { c with ta := true }.putN h vd 1 1 (vals.map fun (v : Option Bool) => v.map Bool.toNat)

/-- Write element 0; the rest of the register is tail. -/
def VC.putScalar (c : VC) (h : Thread) (vd w v : Nat) : Thread :=
  if c.vl = 0 || c.vstart ≥ c.vl then h else { c with vstart := 0 }.putN h vd w 1 [some v]

/-- Body indices. -/
def VC.idx (c : VC) : List Nat := List.range c.vl

/-- Body of an elementwise instruction: values of the active elements. -/
def VC.body {α : Type} (c : VC) (f : Nat → α) : List (Option α) :=
  c.idx.map fun i => if c.vstart ≤ i && c.active i then some (f i) else none

/-- Elements that take part. -/
def VC.count (c : VC) : Nat := (c.idx.filter fun i => c.vstart ≤ i && c.active i).length

/-- Bit 5 of a flag word stands for vxsat. -/
def Thread.raiseV (h : Thread) (fl : Nat) : Thread :=
  { h with fcsr := h.fcsr ||| fl % 32, vcsr := h.vcsr ||| fl / 32 % 2 }

/-- An elementwise result with flags. -/
def VC.fill (c : VC) (vd w flops : Nat) (f : Nat → FRes) : RvRes :=
  let b := c.body f
  let fl := b.foldl (fun (a : Nat) (v : Option FRes) => match v with | some r => a ||| r.fl | none => a) 0
  { th := (c.put c.h vd w (b.map fun v => v.map (·.w))).raiseV fl, flops := flops * c.count }

def VC.fillI (c : VC) (vd w : Nat) (f : Nat → Nat) : RvRes := c.fill vd w 0 fun i => { w := f i }

/-! ## Integer element operations: `a` is the element of vs2, `b` the other operand -/

/-- Fixed-point rounding by vxrm. -/
def fxRound (rm : Nat) (v : Int) (d : Nat) : Int :=
  if d = 0 then v
  else
    let q := v / 2 ^ d
    let r := v % 2 ^ d
    let half : Int := 2 ^ (d - 1)
    let up := match rm with
      | 0 => decide (r ≥ half)
      | 1 => decide (r > half) || (decide (r = half) && q % 2 == 1)
      | 2 => false
      | _ => r != 0 && q % 2 == 0
    if up then q + 1 else q

/-- Saturation: result and vxsat. -/
def satTo (w : Nat) (sg : Bool) (v : Int) : FRes :=
  let lo : Int := if sg then -(2 ^ (w - 1) : Nat) else 0
  let hi : Int := if sg then (2 ^ (w - 1) : Nat) - 1 else (2 ^ w : Nat) - 1
  if v < lo then { w := wrapInt w lo, fl := 32 } else if v > hi then { w := wrapInt w hi, fl := 32 } else { w := wrapInt w v }

/-- Single-width operations of OPIVV, OPIVX and OPIVI. -/
def opiElt (f6 w rm : Nat) (a b : Nat) : Option FRes :=
  let sa := signedOf w a
  let sb := signedOf w b
  let sh := b % w
  match f6 with
  | 0x00 => some { w := (a + b) % 2 ^ w }
  | 0x02 => some { w := wrapInt w ((a : Int) - b) }
  | 0x03 => some { w := wrapInt w ((b : Int) - a) }
  | 0x04 => some { w := min a b }
  | 0x05 => some { w := if sb < sa then b else a }
  | 0x06 => some { w := max a b }
  | 0x07 => some { w := if sa < sb then b else a }
  | 0x09 => some { w := a &&& b }
  | 0x0A => some { w := a ||| b }
  | 0x0B => some { w := a ^^^ b }
  | 0x20 => some (satTo w false ((a : Int) + b))
  | 0x21 => some (satTo w true (sa + sb))
  | 0x22 => some (satTo w false ((a : Int) - b))
  | 0x23 => some (satTo w true (sa - sb))
  | 0x25 => some { w := a * 2 ^ sh % 2 ^ w }
  | 0x27 => some (satTo w true (fxRound rm (sa * sb) (w - 1)))
  | 0x28 => some { w := a / 2 ^ sh }
  | 0x29 => some { w := wrapInt w (sa / 2 ^ sh) }
  | 0x2A => some { w := wrapInt w (fxRound rm a sh) }
  | 0x2B => some { w := wrapInt w (fxRound rm sa sh) }
  | _ => none

/-- Compares of OPI to a mask. -/
def opiCmp (f6 w : Nat) (a b : Nat) : Option Bool :=
  let sa := signedOf w a
  let sb := signedOf w b
  match f6 with
  | 0x18 => some (a == b)
  | 0x19 => some (a != b)
  | 0x1A => some (decide (a < b))
  | 0x1B => some (decide (sa < sb))
  | 0x1C => some (decide (a ≤ b))
  | 0x1D => some (decide (sa ≤ sb))
  | 0x1E => some (decide (a > b))
  | 0x1F => some (decide (sa > sb))
  | _ => none

/-- Single-width operations of OPMVV and OPMVX without an accumulator. -/
def opmElt (f6 w rm : Nat) (a b : Nat) : Option FRes :=
  let sa := signedOf w a
  let sb := signedOf w b
  match f6 with
  | 0x08 => some { w := wrapInt w (fxRound rm ((a : Int) + b) 1) }
  | 0x09 => some { w := wrapInt w (fxRound rm (sa + sb) 1) }
  | 0x0A => some { w := wrapInt w (fxRound rm ((a : Int) - b) 1) }
  | 0x0B => some { w := wrapInt w (fxRound rm (sa - sb) 1) }
  | 0x20 => some { w := mulDiv w 5 a b }
  | 0x21 => some { w := mulDiv w 4 a b }
  | 0x22 => some { w := mulDiv w 7 a b }
  | 0x23 => some { w := mulDiv w 6 a b }
  | 0x24 => some { w := mulDiv w 3 a b }
  | 0x25 => some { w := mulDiv w 0 a b }
  | 0x26 => some { w := mulDiv w 2 a b }
  | 0x27 => some { w := mulDiv w 1 a b }
  | _ => none

/-- Multiply-accumulate of OPM: `d` is the old destination. -/
def opmMac (f6 w : Nat) (a b d : Nat) : Option Nat :=
  match f6 with
  | 0x29 => some (wrapInt w ((b : Int) * d + a))
  | 0x2B => some (wrapInt w ((a : Int) - b * d))
  | 0x2D => some (wrapInt w ((b : Int) * a + d))
  | 0x2F => some (wrapInt w ((d : Int) - b * a))
  | _ => none

/-- Integer reductions by funct6. -/
def redOp (f6 w : Nat) (a b : Nat) : Nat :=
  match f6 with
  | 0 => (a + b) % 2 ^ w
  | 1 => a &&& b
  | 2 => a ||| b
  | 3 => a ^^^ b
  | 4 => min a b
  | 5 => if signedOf w b < signedOf w a then b else a
  | 6 => max a b
  | _ => if signedOf w a < signedOf w b then b else a

/-- Mask logic of OPM by funct6. -/
def maskOp (f6 : Nat) (a b : Bool) : Bool :=
  match f6 with
  | 0x18 => a && !b
  | 0x19 => a && b
  | 0x1A => a || b
  | 0x1B => a != b
  | 0x1C => a || !b
  | 0x1D => !(a && b)
  | 0x1E => !(a || b)
  | _ => a == b

/-- The other operand of an integer instruction: vs1, rs1 or the immediate, by funct3. -/
def VC.opr (c : VC) (w f3 : Nat) (unsignedImm : Bool) (wd i : Nat) : Nat :=
  let r := bitField w 15 5
  if f3 = 0 || f3 = 2 then c.h.velt r wd i
  else if f3 = 3 then (if unsignedImm then r else wrapInt wd (signedOf 5 r))
  else c.h.rx r % 2 ^ wd

/-- The source register of the other operand is legal. -/
def VC.opok (c : VC) (w f3 wd : Nat) : Bool := !(f3 = 0 || f3 = 2 || f3 = 1) || c.gok (bitField w 15 5) wd

/-- It may overlap a destination of width `wd`. -/
def VC.opov (c : VC) (w f3 vd wd ws : Nat) : Bool := !(f3 = 0 || f3 = 2 || f3 = 1) || c.ov vd wd (bitField w 15 5) ws

/-- Slides, gathers and register moves of OPI; `f3` 0 vv, 4 vx, 3 vi. -/
def VC.opiPermute (c : VC) (w f3 f6 : Nat) : Option RvRes :=
  let vd := bitField w 7 5
  let vs2 := bitField w 20 5
  let vs1 := bitField w 15 5
  let n := regs8 (c.l8)
  let off := if f3 = 3 then vs1 else c.h.rx vs1
  let base := c.dok vd c.sew && c.gok vs2 c.sew
  let get (j : Nat) : Nat := if j < c.vlmax then c.h.velt vs2 c.sew j else 0
  match f6, f3 with
  | 0x0C, 0 =>
    if base && c.gok vs1 c.sew && apart vd n vs2 n && apart vd n vs1 n then
      some (c.fillI vd c.sew fun i => get (c.h.velt vs1 c.sew i))
    else none
  | 0x0C, _ => if base && apart vd n vs2 n then some (c.fillI vd c.sew fun _ => get off) else none
  | 0x0E, 0 =>
    if base && c.gok vs1 16 && apart vd n vs2 n && apart vd n vs1 (regs8 (c.e8 16)) then
      some (c.fillI vd c.sew fun i => get (c.h.velt vs1 16 i))
    else none
  | 0x0E, _ =>
    if base && apart vd n vs2 n then
      let vals := c.idx.map fun i =>
        if i < off then some (c.h.velt vd c.sew i)
        else if c.active i then some (c.h.velt vs2 c.sew (i - off)) else none
      some { th := c.put c.h vd c.sew vals }
    else none
  | 0x0F, 0 => none
  | 0x0F, _ => if base then some (c.fillI vd c.sew fun i => get (i + off)) else none
  | _, _ => none

/-- OPIVV, OPIVX, OPIVI. -/
def VC.opi (c : VC) (w f3 f6 : Nat) : Option RvRes :=
  let vd := bitField w 7 5
  let vs2 := bitField w 20 5
  let vs1 := bitField w 15 5
  let sew := c.sew
  let rm := bitField c.h.vcsr 1 2
  let shift := f6 = 0x25 || (0x28 ≤ f6 && f6 < 0x30)
  let b (i : Nat) : Nat := c.opr w f3 shift sew i
  let a (i : Nat) : Nat := c.h.velt vs2 sew i
  let srcOk := c.gok vs2 sew && c.opok w (if f3 = 0 then 0 else 4) sew
  if f6 = 0x0C || f6 = 0x0E || f6 = 0x0F then c.opiPermute w f3 f6
  else if f6 = 0x10 || f6 = 0x12 then
    -- vadc, vsbc
    if c.vm || (f6 = 0x12 && f3 = 3) || vd = 0 || !srcOk || !c.gok vd sew then none
    else
      let all := { c with vm := true }
      some (all.fillI vd sew fun i =>
        let k : Int := if c.h.vbit 0 i then 1 else 0
        wrapInt sew (if f6 = 0x10 then (a i : Int) + b i + k else (a i : Int) - b i - k))
  else if f6 = 0x11 || f6 = 0x13 then
    -- vmadc, vmsbc
    if (f6 = 0x13 && f3 = 3) || !srcOk || !c.ov vd 1 vs2 sew || !c.opov w (if f3 = 0 then 0 else 4) vd 1 sew then none
    else
      let all := { c with vm := true }
      some { th := all.putMask c.h vd (all.body fun i =>
        let k : Nat := if !c.vm && c.h.vbit 0 i then 1 else 0
        if f6 = 0x11 then decide (a i + b i + k ≥ 2 ^ sew) else decide (a i < b i + k)) }
  else if f6 = 0x17 then
    -- vmerge, vmv.v
    if !c.gok vd sew || !c.opok w (if f3 = 0 then 0 else 4) sew then none
    else if c.vm then
      if vs2 ≠ 0 then none else some (c.fillI vd sew b)
    else if vd = 0 || !c.gok vs2 sew then none
    else
      let all := { c with vm := true }
      some (all.fillI vd sew fun i => if c.h.vbit 0 i then b i else a i)
  else if f6 = 0x27 && f3 = 3 then
    -- vmv<n>r.v
    let n := vs1 + 1
    if !c.vm || !(n = 1 || n = 2 || n = 4 || n = 8) || vd % n ≠ 0 || vs2 % n ≠ 0 then none
    else
      let k := n * 1024 / sew
      some { th := c.putN c.h vd sew n ((List.range k).map fun i => some (c.h.velt vs2 sew i)) }
  else if 0x18 ≤ f6 && f6 < 0x20 then
    if (f3 = 0 && f6 ≥ 0x1E) || (f3 = 3 && (f6 = 0x1A || f6 = 0x1B)) || !srcOk || !c.ov vd 1 vs2 sew ||
        !c.opov w (if f3 = 0 then 0 else 4) vd 1 sew then none
    else some { th := c.putMask c.h vd (c.body fun i => (opiCmp f6 sew (a i) (b i)).getD false) }
  else if 0x2C ≤ f6 && f6 < 0x30 then
    -- narrowing shifts and clips
    let w2 := 2 * sew
    if sew = 64 || !c.dok vd sew || !c.gok vs2 w2 || !c.opok w (if f3 = 0 then 0 else 4) sew || !c.ov vd sew vs2 w2 then none
    else some (c.fill vd sew 0 fun i =>
      let x := c.h.velt vs2 w2 i
      let sh := b i % w2
      match f6 with
      | 0x2C => { w := x / 2 ^ sh % 2 ^ sew }
      | 0x2D => { w := wrapInt sew (signedOf w2 x / 2 ^ sh) }
      | 0x2E => satTo sew false (fxRound rm x sh)
      | _ => satTo sew true (fxRound rm (signedOf w2 x) sh))
  else if f6 = 0x30 || f6 = 0x31 then
    -- widening sums
    if f3 ≠ 0 || sew = 64 || c.vstart ≠ 0 || !c.gok vs2 sew then none
    else
      let w2 := 2 * sew
      let wide (x : Nat) : Nat := if f6 = 0x31 then wrapInt w2 (signedOf sew x) else x
      let r := (c.body a).foldl (fun t v => match v with | some x => (t + wide x) % 2 ^ w2 | none => t) (c.h.velt vs1 w2 0)
      some { th := c.putScalar c.h vd w2 r }
  else
    let formOk := match f3 with
      | 0 => f6 ≠ 0x03
      | 3 => [0x00, 0x03, 0x09, 0x0A, 0x0B, 0x20, 0x21, 0x25, 0x28, 0x29, 0x2A, 0x2B].contains f6
      | _ => true
    if !formOk || !srcOk || !c.dok vd sew || (opiElt f6 sew rm 0 0).isNone then none
    else some (c.fill vd sew 0 fun i => (opiElt f6 sew rm (a i) (b i)).getD default)

/-- First active set bit of a mask source. -/
def VC.firstBit (c : VC) (r : Nat) : Option Nat := c.idx.find? fun i => c.active i && c.h.vbit r i

/-- OPMVV and OPMVX, `f3` 2 or 6. -/
def VC.opm (c : VC) (w f3 f6 : Nat) : Option RvRes :=
  let vd := bitField w 7 5
  let vs2 := bitField w 20 5
  let vs1 := bitField w 15 5
  let sew := c.sew
  let w2 := 2 * sew
  let rm := bitField c.h.vcsr 1 2
  let vv := f3 = 2
  let a (i : Nat) : Nat := c.h.velt vs2 sew i
  let b (i : Nat) : Nat := c.opr w f3 false sew i
  let n := regs8 c.l8
  let opok := !vv || c.gok vs1 sew
  if f6 < 8 then
    if !vv || c.vstart ≠ 0 || !c.gok vs2 sew then none
    else
      let r := (c.body a).foldl (fun t v => match v with | some x => redOp f6 sew t x | none => t) (c.h.velt vs1 sew 0)
      some { th := c.putScalar c.h vd sew r }
  else if f6 = 0x0E || f6 = 0x0F then
    -- vslide1up, vslide1down
    if vv || !c.dok vd sew || !c.gok vs2 sew || (f6 = 0x0E && !apart vd n vs2 n) then none
    else
      let x := c.h.rx vs1 % 2 ^ sew
      some (c.fillI vd sew fun i =>
        if f6 = 0x0E then (if i = 0 then x else a (i - 1)) else if i + 1 = c.vl then x else a (i + 1))
  else if f6 = 0x10 then
    if vv then
      match vs1 with
      | 0 => if c.vm then some { th := c.h.wx vd (sx sew (a 0)) } else none
      | 0x10 => if c.vstart ≠ 0 then none
        else some { th := c.h.wx vd ((c.idx.filter fun i => c.active i && c.h.vbit vs2 i).length) }
      | 0x11 => if c.vstart ≠ 0 then none
        else some { th := c.h.wx vd (match c.firstBit vs2 with | some i => i | none => 2 ^ 64 - 1) }
      | _ => none
    else if vs2 = 0 && c.vm then some { th := c.putScalar c.h vd sew (c.h.rx vs1) } else none
  else if f6 = 0x12 then
    if !vv || vs1 < 2 || vs1 > 7 then none
    else
      let k := if vs1 < 4 then 8 else if vs1 < 6 then 4 else 2
      let ws := sew / k
      if ws < 8 || !c.dok vd sew || !c.gok vs2 ws || !c.ov vd sew vs2 ws then none
      else some (c.fillI vd sew fun i =>
        let x := c.h.velt vs2 ws i
        if vs1 % 2 = 1 then wrapInt sew (signedOf ws x) else x)
  else if f6 = 0x14 then
    if !vv || (vs1 ≠ 0x11 && c.vstart ≠ 0) then none
    else match vs1 with
    | 1 | 2 | 3 =>
      if vd = vs2 || (!c.vm && vd = 0) then none
      else
        let first := c.firstBit vs2
        some { th := c.putMask c.h vd (c.body fun i =>
          match first with
          | none => vs1 ≠ 2
          | some j => if vs1 = 1 then decide (i < j) else if vs1 = 2 then decide (i = j) else decide (i ≤ j)) }
    | 0x10 =>
      if !c.dok vd sew || !apart vd n vs2 1 then none
      else some (c.fillI vd sew fun i => ((List.range i).filter fun j => c.active j && c.h.vbit vs2 j).length)
    | 0x11 => if vs2 ≠ 0 || !c.dok vd sew then none else some (c.fillI vd sew id)
    | _ => none
  else if f6 = 0x17 then
    -- vcompress
    if !vv || !c.vm || c.vstart ≠ 0 || !c.gok vd sew || !c.gok vs2 sew || !apart vd n vs2 n || !apart vd n vs1 1 then none
    else
      let got := (c.idx.filter fun i => c.h.vbit vs1 i).map a
      if c.vl = 0 then some { th := c.h }
      else
        let old := (List.range (n * 1024 / sew)).map (c.h.velt vd sew)
        some { th := c.h.setGroup vd (packElts sew (c.merge sew 0 old (got.map some))) n }
  else if 0x18 ≤ f6 && f6 < 0x20 then
    if !vv || !c.vm then none
    else some { th := c.putMask c.h vd (c.body fun i => maskOp f6 (c.h.vbit vs2 i) (c.h.vbit vs1 i)) }
  else if f6 = 0x29 || f6 = 0x2B || f6 = 0x2D || f6 = 0x2F then
    if !c.dok vd sew || !c.gok vs2 sew || !opok then none
    else some (c.fillI vd sew fun i => (opmMac f6 sew (a i) (b i) (c.h.velt vd sew i)).getD 0)
  else if f6 ≥ 0x30 then
    -- widening
    let dotw := 0x34 ≤ f6 && f6 < 0x38
    let ws2 := if dotw then w2 else sew
    if f6 = 0x39 || (f6 = 0x3E && vv) || sew = 64 || !c.dok vd w2 || !c.gok vs2 ws2 || !opok || !c.ov vd w2 vs2 ws2 ||
        (vv && !c.ov vd w2 vs1 sew) then none
    else some (c.fillI vd w2 fun i =>
      let x := c.h.velt vs2 ws2 i
      let ua : Int := x
      let sa := signedOf ws2 x
      let ub : Int := b i
      let sb := signedOf sew (b i)
      let d : Int := c.h.velt vd w2 i
      wrapInt w2 (match f6 with
        | 0x30 | 0x34 => ua + ub
        | 0x31 | 0x35 => sa + sb
        | 0x32 | 0x36 => ua - ub
        | 0x33 | 0x37 => sa - sb
        | 0x38 => ua * ub
        | 0x3A => sa * ub
        | 0x3B => sa * sb
        | 0x3C => ua * ub + d
        | 0x3D => sa * sb + d
        | 0x3E => sa * ub + d
        | _ => ua * sb + d))
  else if !c.dok vd sew || !c.gok vs2 sew || !opok || (opmElt f6 sew rm 0 0).isNone then none
  else some (c.fill vd sew 0 fun i => (opmElt f6 sew rm (a i) (b i)).getD default)

/-! ## Floating point -/

/-- The format of a width; none for 8 bits. -/
def fltOf : Nat → Option Flt
  | 16 => some fp16
  | 32 => some fp32
  | 64 => some fp64
  | _ => none

/-- The 7-bit estimate of a reciprocal: the nearest 7-bit fraction of the middle of an interval. -/
def rec7 (i : Nat) : Nat := (2 * 65536 + (257 + 2 * i)) / (2 * (257 + 2 * i)) - 128
/-- The same for a reciprocal square root, by exponent parity and six fraction bits. -/
def rsqrt7 (i : Nat) : Nat := (Nat.sqrt (2 ^ 18 * 128 / ((129 + 2 * (i % 64)) * (if i < 64 then 2 else 1))) + 1) / 2 - 128

/-- Exponent and fraction of a finite nonzero word, normalized. -/
def normParts (f : Flt) (a : Nat) : Int × Nat :=
  let e := a / 2 ^ f.mb % 2 ^ f.eb
  let m := a % 2 ^ f.mb
  if e ≠ 0 then (e, m)
  else let k := f.mb - 1 - Nat.log2 m; (-(k : Int), m * 2 ^ (k + 1) % 2 ^ f.mb)

/-- vfrec7.v. -/
def fRec7 (f : Flt) (r : Rnd) (a : Nat) : FRes :=
  match f.dec a with
  | .nan => { w := f.nan, fl := nvIf (f.isSnan a) }
  | .inf n => { w := f.signBit n }
  | .fin n m _ =>
    if m = 0 then { w := f.signBit n + f.infWord, fl := 8 }
    else
      let p := normParts f a
      if p.1 < -1 then { w := f.signBit n + (if f.clips r n then f.maxWord else f.infWord), fl := 5 }
      else
        let sig := rec7 (p.2 / 2 ^ (f.mb - 7)) * 2 ^ (f.mb - 7)
        let e : Int := 2 * f.bias - 1 - p.1
        { w := f.signBit n + (if e ≥ 1 then e.toNat * 2 ^ f.mb + sig
            else let s1 := sig / 2 + 2 ^ (f.mb - 1); if e = 0 then s1 else s1 / 2) }

/-- vfrsqrt7.v. -/
def fRsqrt7 (f : Flt) (a : Nat) : FRes :=
  match f.dec a with
  | .nan => { w := f.nan, fl := nvIf (f.isSnan a) }
  | .inf n => if n then { w := f.nan, fl := 16 } else { w := 0 }
  | .fin n m _ =>
    if m = 0 then { w := f.signBit n + f.infWord, fl := 8 }
    else if n then { w := f.nan, fl := 16 }
    else
      let p := normParts f a
      let i := (p.1 % 2).toNat * 64 + p.2 / 2 ^ (f.mb - 6)
      { w := ((3 * f.bias - 1 - p.1) / 2).toNat * 2 ^ f.mb + rsqrt7 i * 2 ^ (f.mb - 7) }

/-- Rounding to odd, for vfncvt.rod. -/
def ftoFodd (f g : Flt) (a : Nat) : FRes :=
  let z := ftoF f g .rtz a
  { z with w := if bitAt z.fl 0 then z.w ||| 1 else z.w }

/-- The other operand of a floating-point instruction: vs1 or f[rs1]. -/
def VC.oprF (c : VC) (w f3 : Nat) (f : Flt) (i : Nat) : Nat :=
  if f3 = 1 then c.h.velt (bitField w 15 5) f.width i else unbox f (c.h.rf (bitField w 15 5))

/-- Conversions (VFUNARY0) by the code in vs1. -/
def VC.fcvt (c : VC) (w : Nat) (r : Rnd) : Option RvRes :=
  let vd := bitField w 7 5
  let vs2 := bitField w 20 5
  let k := bitField w 15 5
  let sew := c.sew
  let kind := k % 8
  let wd := if k / 8 = 1 then 2 * sew else sew
  let ws := if k / 8 = 2 then 2 * sew else sew
  if k ≥ 0x18 && k ≠ 0x1D then none
  else
    let bf := k = 0x0D || k = 0x1D
    let wd := if k = 0x1D then sew else wd
    let ws := if k = 0x1D then 2 * sew else ws
    let fd := if k = 0x1D then some bf16 else fltOf wd
    let fs := if k = 0x0D then some bf16 else fltOf ws
    if !c.dok vd wd || !c.gok vs2 ws || !c.ov vd wd vs2 ws || wd > 64 || ws > 64 || (bf && sew ≠ 16) then none
    else
      let x (i : Nat) : Nat := c.h.velt vs2 ws i
      let go (f : Nat → FRes) : Option RvRes := some (c.fill vd wd 0 f)
      if kind = 0 || kind = 1 then fs.bind fun f => go fun i => ftoInt f r wd (kind = 1) (x i)
      else if kind = 6 || kind = 7 then fs.bind fun f => go fun i => ftoInt f .rtz wd (kind = 7) (x i)
      else if kind = 2 || kind = 3 then fd.bind fun f => go fun i => intToF f r ws (kind = 3) (x i)
      else if k < 8 then none
      else match fs, fd with
        | some f, some g =>
          if kind = 4 || bf then go fun i => ftoF f g r (x i)
          else if k = 0x15 then go fun i => ftoFodd f g (x i)
          else none
        | _, _ => none

/-- Pairwise sums, level after level (R203). -/
def pairSums (f : Flt) (r : Rnd) : List Nat → List Nat × Nat
  | a :: b :: l =>
    let z := farith f r 0 a b
    let t := pairSums f r l
    (z.w :: t.1, z.fl ||| t.2)
  | l => (l, 0)

/-- The pairwise tree over all values. -/
def treeSum (f : Flt) (r : Rnd) : Nat → List Nat → Nat → List Nat × Nat
  | 0, l, fl => (l, fl)
  | n + 1, l, fl =>
    match l with
    | _ :: _ :: _ => let t := pairSums f r l; treeSum f r n t.1 (fl ||| t.2)
    | _ => (l, fl)

/-- A sum reduction in format `f` of the active values (R203). -/
def redSum (f : Flt) (r : Rnd) (ordered : Bool) (init : Nat) (l : List Nat) : FRes :=
  if ordered then l.foldl (fun (t : FRes) x => let z := farith f r 0 t.w x; { z with fl := z.fl ||| t.fl }) { w := init }
  else match treeSum f r 11 l 0 with
    | (t :: _, fl) => let z := farith f r 0 t init; { z with fl := z.fl ||| fl }
    | _ => { w := init }

/-- OPFVV and OPFVF, `f3` 1 or 5. -/
def VC.opf (c : VC) (w f3 f6 : Nat) : Option RvRes :=
  let vd := bitField w 7 5
  let vs2 := bitField w 20 5
  let vs1 := bitField w 15 5
  let sew := c.sew
  let vv := f3 = 1
  let n := regs8 c.l8
  match c.h.rm 7 with
  | none => none
  | some r =>
  if f6 = 0x12 then (if vv then c.fcvt w r else none)
  else match fltOf sew with
  | none => none
  | some f =>
    let a (i : Nat) : Nat := c.h.velt vs2 sew i
    let b (i : Nat) : Nat := c.oprF w f3 f i
    let opok := !vv || c.gok vs1 sew
    let std := c.dok vd sew && c.gok vs2 sew && opok
    let one (p : Bool) (k : Nat) (g : Nat → FRes) : Option RvRes := if p && std then some (c.fill vd sew k g) else none
    let red (wd : Nat) (g : Flt) (h : List Nat → FRes) : Option RvRes :=
      if !vv || c.vstart ≠ 0 || !c.gok vs2 sew || g.width ≠ wd then none
      else
        let l := (c.body a).filterMap id
        let z := h l
        if c.vl = 0 then some { th := c.h } else some { th := (c.putScalar c.h vd wd z.w).raiseV z.fl, flops := l.length }
    match f6 with
    | 0x00 => one true 1 fun i => farith f r 0 (a i) (b i)
    | 0x02 => one true 1 fun i => farith f r 1 (a i) (b i)
    | 0x24 => one true 1 fun i => farith f r 2 (a i) (b i)
    | 0x20 => one true 1 fun i => farith f r 3 (a i) (b i)
    | 0x21 => one (!vv) 1 fun i => farith f r 3 (b i) (a i)
    | 0x27 => one (!vv) 1 fun i => farith f r 1 (b i) (a i)
    | 0x04 => one true 0 fun i => fminmax f false (a i) (b i)
    | 0x06 => one true 0 fun i => fminmax f true (a i) (b i)
    | 0x08 | 0x09 | 0x0A => one true 0 fun i => { w := fsgnj f (f6 - 8) (a i) (b i) }
    | 0x01 => red sew f fun l => redSum f r false (c.h.velt vs1 sew 0) l
    | 0x03 => red sew f fun l => redSum f r true (c.h.velt vs1 sew 0) l
    | 0x05 | 0x07 =>
      (red sew f fun l => l.foldl (fun (t : FRes) x =>
        let z := fminmax f (f6 = 7) t.w x
        { z with fl := z.fl ||| t.fl }) { w := c.h.velt vs1 sew 0 }).map fun z => { z with flops := 0 }
    | 0x0E | 0x0F =>
      if vv || !c.dok vd sew || !c.gok vs2 sew || (f6 = 0x0E && !apart vd n vs2 n) then none
      else
        let x := unbox f (c.h.rf vs1)
        some (c.fillI vd sew fun i =>
          if f6 = 0x0E then (if i = 0 then x else a (i - 1)) else if i + 1 = c.vl then x else a (i + 1))
    | 0x10 =>
      if vv then (if vs1 = 0 && c.vm then some { th := c.h.wf vd (nanBox sew (a 0)) } else none)
      else if vs2 = 0 && c.vm then some { th := c.putScalar c.h vd sew (unbox f (c.h.rf vs1)) } else none
    | 0x13 =>
      if !vv || !c.dok vd sew || !c.gok vs2 sew then none
      else match vs1 with
      | 0 => some (c.fill vd sew 1 fun i => fsqrtR f r (a i))
      | 4 => some (c.fill vd sew 0 fun i => fRsqrt7 f (a i))
      | 5 => some (c.fill vd sew 0 fun i => fRec7 f r (a i))
      | 0x10 => some (c.fill vd sew 0 fun i => { w := fclass f (a i) })
      | _ => none
    | 0x17 =>
      if vv || !c.gok vd sew then none
      else if c.vm then (if vs2 = 0 then some (c.fillI vd sew b) else none)
      else if vd = 0 || !c.gok vs2 sew then none
      else
      let all := { c with vm := true }
      some (all.fillI vd sew fun i => if c.h.vbit 0 i then b i else a i)
    | 0x18 | 0x19 | 0x1B | 0x1C | 0x1D | 0x1F =>
      if (vv && f6 ≥ 0x1D) || !c.gok vs2 sew || !opok || !c.ov vd 1 vs2 sew || (vv && !c.ov vd 1 vs1 sew) then none
      else
        let bd := c.body fun i =>
          match f6 with
          | 0x18 => fcmp f 2 (a i) (b i)
          | 0x19 => fcmp f 0 (a i) (b i)
          | 0x1B => fcmp f 1 (a i) (b i)
          | 0x1C => let z := fcmp f 2 (a i) (b i); { z with w := 1 - z.w }
          | 0x1D => fcmp f 1 (b i) (a i)
          | _ => fcmp f 0 (b i) (a i)
        let fl := bd.foldl (fun t v => match v with | some z => t ||| z.fl | none => t) 0
        some { th := (c.putMask c.h vd (bd.map fun v => v.map fun z => z.w == 1)).raiseV fl }
    | 0x28 | 0x29 | 0x2A | 0x2B | 0x2C | 0x2D | 0x2E | 0x2F =>
      let k := f6 % 4
      one true 2 fun i =>
        let d := c.h.velt vd sew i
        if f6 < 0x2C then ffma f r (k = 1 || k = 3) (k = 1 || k = 2) (b i) d (a i)
        else ffma f r (k = 1 || k = 3) (k = 1 || k = 2) (b i) (a i) d
    | _ =>
      match fltOf (2 * sew) with
      | none => none
      | some g =>
        let w2 := 2 * sew
        let dotw := f6 = 0x34 || f6 = 0x36
        let ws2 := if dotw then w2 else sew
        let legal := c.dok vd w2 && c.gok vs2 ws2 && opok && c.ov vd w2 vs2 ws2 && (!vv || c.ov vd w2 vs1 sew)
        let wide (x : Nat) : FRes := ftoF f g .rne x
        let add (op : Nat) (x y : FRes) : FRes := let z := farith g r op x.w y.w; { z with fl := z.fl ||| x.fl ||| y.fl }
        let two (k : Nat) (h : Nat → FRes) : Option RvRes := if legal then some (c.fill vd w2 k h) else none
        let x (i : Nat) : FRes := if dotw then { w := c.h.velt vs2 w2 i } else wide (a i)
        let k := f6 % 4
        match f6 with
        | 0x30 | 0x34 => two 1 fun i => add 0 (x i) (wide (b i))
        | 0x32 | 0x36 => two 1 fun i => add 1 (x i) (wide (b i))
        | 0x38 => two 1 fun i => add 2 (x i) (wide (b i))
        | 0x31 | 0x33 =>
          (red w2 g fun l =>
            let z := redSum g r (f6 = 0x33) (c.h.velt vs1 w2 0) (l.map fun e => (wide e).w)
            { z with fl := z.fl ||| l.foldl (fun t e => t ||| (wide e).fl) 0 })
        | 0x3C | 0x3D | 0x3E | 0x3F =>
          two 2 fun i => ffmaW f g r (k = 1 || k = 3) (k = 1 || k = 2) (b i) (a i) (c.h.velt vd w2 i)
        | 0x3B =>
          if sew ≠ 16 then none
          else two 2 fun i => ffmaW bf16 fp32 r false false (c.oprF w f3 bf16 i) (a i) (c.h.velt vd w2 i)
        | _ => none

/-! ## Configuration -/

/-- vsetvli, vsetivli, vsetvl (R180). -/
def vsetOp (h : Thread) (w : Nat) : Option RvRes :=
  let rd := bitField w 7 5
  let rs1 := bitField w 15 5
  let go (t : Nat) (avl : Nat) : RvRes :=
    match vtypeOf t with
    | none => { th := { h.wx rd 0 with vtype := 2 ^ 63, vl := 0 } }
    | some q =>
      let vl := min avl (vlmaxOf q.1 q.2)
      { th := { h.wx rd vl with vtype := t, vl := vl } }
  let avl := if rs1 ≠ 0 then h.rx rs1 else if rd ≠ 0 then 2 ^ 64 - 1 else h.vl
  if !bitAt w 31 then some (go (bitField w 20 11) avl)
  else if bitAt w 30 then some (go (bitField w 20 10) rs1)
  else if bitField w 25 7 = 0x40 then some (go (h.rx (bitField w 20 5)) avl)
  else none

/-- An OP-V instruction. It leaves vstart zero. -/
def vecOp (h : Thread) (w : Nat) : Option RvRes :=
  let f3 := bitField w 12 3
  let f6 := bitField w 26 6
  let r := if f3 = 7 then vsetOp h w
    else (vcOf h w).bind fun c =>
      if f3 = 0 || f3 = 3 || f3 = 4 then c.opi w f3 f6
      else if f3 = 2 || f3 = 6 then c.opm w f3 f6
      else c.opf w f3 f6
  r.map fun z => { z with th := { z.th with vstart := 0 } }

/-! ## Vector loads and stores -/

/-- The accesses of a vector load or store: element width, group, fields, elements with their addresses by field. -/
structure VMem where
  c : VC
  store : Bool
  fof : Bool := false
  w : Nat
  n8 : Nat
  nf : Nat := 1
  vd : Nat
  elems : List (Nat × List Nat)
  deriving DecidableEq, Repr, Inhabited

/-- Element widths by the width field. -/
def vWidth : Nat → Nat
  | 0 => 8
  | 5 => 16
  | 6 => 32
  | _ => 64

/-- The accesses of an instruction; `none` is illegal. -/
def vmemOf (h : Thread) (w : Nat) : Option VMem :=
  let store := w % 128 = 0x27
  let vd := bitField w 7 5
  let base := h.rx (bitField w 15 5)
  let r2 := bitField w 20 5
  let ew := vWidth (bitField w 12 3)
  let mop := bitField w 26 2
  let nf := bitField w 29 3 + 1
  let vm := bitAt w 25
  if bitAt w 28 then none
  else if mop = 0 && r2 = 8 then
    -- whole registers: no vtype
    if !vm || !(nf = 1 || nf = 2 || nf = 4 || nf = 8) || vd % nf ≠ 0 || (store && ew ≠ 8) then none
    else
      let k := nf * 1024 / ew
      let c : VC := { h := h, sew := ew, l8 := 8 * nf, vl := k, vstart := h.vstart, ta := false, ma := false, vm := true, iw := w }
      some { c := c, store := store, w := ew, n8 := 8 * nf, vd := vd,
             elems := c.idx.filterMap fun i => if h.vstart ≤ i then some (i, [(base + i * (ew / 8)) % 2 ^ 64]) else none }
  else (vcOf h w).bind fun c =>
    let mk (c : VC) (dw n8 : Nat) (fof : Bool) (at' : Nat → Nat → Nat) : Option VMem :=
      if !ok8 n8 vd || nf * regs8 n8 > 8 || vd + nf * regs8 n8 > 32 || (!store && !c.vm && vd = 0) then none
      else some { c := c, store := store, fof := fof, w := dw, n8 := n8, nf := nf, vd := vd,
                  elems := c.idx.filterMap fun i =>
                    if c.vstart ≤ i && c.active i then some (i, (List.range nf).map fun k => at' i k % 2 ^ 64) else none }
    let step (dw i k : Nat) : Nat := base + (i * nf + k) * (dw / 8)
    match mop with
    | 0 =>
      match r2 with
      | 0 => mk c ew (c.e8 ew) false (step ew)
      | 0x0B =>
        if nf ≠ 1 || ew ≠ 8 || !vm then none
        else mk { c with vl := ceilDiv c.vl 8, ta := true } 8 8 false (step 8)
      | 0x10 => if store then none else mk c ew (c.e8 ew) true (step ew)
      | _ => none
    | 2 => mk c ew (c.e8 ew) false fun i k => (base + i * h.rx r2 + k * (ew / 8))
    | _ =>
      let dn := c.l8
      if !c.gok r2 ew || (!store && !(if nf = 1 then c.ov vd c.sew r2 ew else apart vd (nf * regs8 dn) r2 (regs8 (c.e8 ew)))) then none
      else mk c c.sew dn false fun i k => base + h.velt r2 ew i + k * (c.sew / 8)

/-- The thread after a load: values by element and field; `short`: vl as a fault-only-first load leaves it. -/
def VMem.loaded (m : VMem) (vals : List (Nat × List Nat)) (short : Option Nat) : Thread :=
  let h1 := (List.range m.nf).foldl (fun (t : Thread) k =>
    let vs : List (Option Nat) := (List.range m.c.vl).map fun i => (vals.find? fun v => v.1 = i).map fun v => v.2.getD k 0
    let vs := match short with | some n => vs.take n | none => vs
    m.c.putN t (m.vd + k * regs8 m.n8) m.w (regs8 m.n8) vs) m.c.h
  { h1 with vstart := 0, vl := short.getD h1.vl }

end Sys2Proof.Machine
end

