-- ==== Sys2Proof/Machine/Carding.lean ====
section
/-! DEFINITION. Carding threads: memory (R182, R183), the instructions of RISC-V (R178 to R185) and of Xcard (R186 to R202). -/

namespace Sys2Proof

/-- Number of a thread. -/
def ThreadId.num (t : ThreadId) : Nat := 8 * t.core.val + t.thread.val

end Sys2Proof

namespace Sys2Proof.Machine

/-! ## Memory of a thread -/

/-- The partition of a thread: that of its skein. -/
def State.threadPart (s : State) (t : Nat) : Nat := (s.owner (t / 256)).getD 0

/-- What lies at an address for a thread. -/
inductive CLoc where
  | mem (dpa : Nat)
  | reg (b : Blk) (inst off : Nat)
  | host (a : Nat)
  | refused
  | fault (code : Nat)
  | wait (k : WaitKind)
  deriving DecidableEq, Repr

/-- Resolve an address (R182, R183, R230): the local window, then the partition's page tables. Addresses of 2^48 and above are in no
table (DEDUCED): MEMFAULT. -/
def State.cardLoc (s : State) (t va : Nat) (write : Bool) : CLoc :=
  if va ≥ 2 ^ 48 then .fault 3
  else if va ≥ localWindow then .mem (localMem (t / 8) + (va - localWindow))
  else match s.translate (s.threadPart t) va write with
    | .dpa a =>
      if write && s.region a = .t2 then .fault 4
      else match s.dpaLoc (.part (s.threadPart t)) a with
        | .mem x => .mem x
        | .reg b i o => .reg b i o
        | _ => .refused
    | .host a => .host a
    | .demand => .wait .demand
    | .ats _ => .wait .ats
    | .readOnly => .fault 4
    | .unmapped _ => .fault 3

/-- Outcome of an access of a thread. -/
inductive CAcc where
  | ok (data : List Byte)
  | fault (code va : Nat)
  | wait (va : Nat) (k : WaitKind)
  /-- The store is held until its register takes it (R215, R439). -/
  | held
  deriving DecidableEq, Repr

/-- A store to this register is held: SKN_WHORL_CMD with 16 commands pending (R215), FLK_P_COLL with 16 descriptors queued (R439). -/
def State.regHeld (s : State) (l : CLoc) : Bool :=
  match l with
  | .reg b inst off =>
    ((locHits (.reg b inst off) .sknWhorlCmdLane).isSome && s.whorlFull inst) ||
      ((locHits (.reg b inst off) .flkQColl).isSome && s.collFull ((off - 0x2000) / 0x40))
  | _ => false

/-- Count a malformed page-table entry that a thread met (R229). -/
def State.noteCard (s : State) (t va : Nat) (write : Bool) : State :=
  if va < localWindow then s.noteWalk (s.translate (s.threadPart t) va write) else s

/-- A read of local memory counts the errors it corrects (R182, R206). -/
def State.countLocal (s : State) (a : Nat) : State :=
  match s.region a with
  | .local n => s.countCorrected .crdEccCe n
  | _ => s

/-- Read bytes, page by page. A register is read with 4 or 8 aligned bytes; other sizes read all ones (R9). -/
def State.creadGo (s : State) (t va : Nat) (acc : List Byte) : Nat → Nat → State × CAcc
  | 0, _ => (s, .ok acc)
  | _, 0 => (s, .ok acc)
  | n + 1, fuel + 1 =>
    let k := min (n + 1) (4096 - va % 4096)
    let go (u : State) (bs : List Byte) : State × CAcc := u.creadGo t (va + k) (acc ++ bs) (n + 1 - k) fuel
    match s.cardLoc t va false with
    | .mem a => go (s.countLocal a) (s.ld a k)
    | .reg b i o =>
      go s (if (k = 4 || k = 8) && o % k = 0 then toBytes k (s.regRead b i o (k = 8)) else List.replicate k 0xFF)
    | .host a =>
      match s.hostRefuses with
      | some u => (u, .fault 3 va)
      | none => go s ((List.range k).map fun i => Config.hostByte s.fresh (a + i))
    | .refused => go (s.fadd .tierUnbacked 0 1) (List.replicate k 0xFF)
    | .fault c => (s.noteCard t va false, .fault c va)
    | .wait k => (s, .wait va k)

def State.cread (s : State) (t va n : Nat) : State × CAcc := s.draw.creadGo t va [] n (n / 4096 + 2)

/-- Every page of a store may be written. -/
def State.cprobe (s : State) (t va : Nat) : Nat → Nat → State × CAcc
  | 0, _ => (s, .ok [])
  | _, 0 => (s, .ok [])
  | n + 1, fuel + 1 =>
    let k := min (n + 1) (4096 - va % 4096)
    match s.cardLoc t va true with
    | .fault c => (s.noteCard t va true, .fault c va)
    | .wait k => (s, .wait va k)
    | l => if s.regHeld l then (s, .held) else s.cprobe t (va + k) (n + 1 - k) fuel

/-- A store breaks the reservations on the bytes it writes. -/
def State.breakResv (s : State) (a n : Nat) : State :=
  { s with threads := SMap.mapVals {} (fun _ (h : Thread) =>
      match h.resv with
      | some (b, m, _) => if a < b + m && b < a + n then { h with resv := none } else h
      | none => h) s.threads }

/-- A write of one register through a page that maps it: the effect of a write there (R10 to R12, R90, R215, R273, R439). -/
def State.cardWord (s : State) (p : Nat) (b : Blk) (inst off : Nat) (wide : Bool) (x : Nat) : State :=
  let l := Loc.reg b inst off
  let fl := s.fget .mcrFlags inst
  if (locHits l .mcrFlagSet).isSome then s.for' .mcrFlags inst (x % 65536)
  else if (locHits l .mcrFlagClr).isSome then s.fset .mcrFlags inst (fl - (fl &&& x))
  else if (locHits l .sknWhorlCmdLane).isSome then s.whorlWrite inst x
  else if (locHits l .strmPArrive).isSome then s.arrive p (x % 256)
  else if (locHits l .flkQColl).isSome then s.collWrite p x
  else s.regWrite b inst off wide x

/-- A store to registers; 64 bits at two 32-bit registers write both, the lower first. -/
def State.cardReg (s : State) (p : Nat) (b : Blk) (inst off : Nat) (wide : Bool) (v : Nat) : State :=
  if wide && !(regAt b off).any (·.row.wide) then
    (s.cardWord p b inst off false (v % 2 ^ 32)).cardWord p b inst (off + 4) false (v / 2 ^ 32)
  else s.cardWord p b inst off wide (if wide then v else v % 2 ^ 32)

/-- Store bytes whose pages have been probed. -/
def State.cstoreGo (s : State) (t va : Nat) (bs : List Byte) : Nat → State
  | 0 => s
  | fuel + 1 =>
    if bs.isEmpty then s
    else
      let k := min bs.length (4096 - va % 4096)
      let d := bs.take k
      let s1 := match s.cardLoc t va true with
        | .mem a => ((s.soil a).st a d).breakResv a k
        | .reg b i o =>
          if (k = 4 || k = 8) && o % k = 0 then s.cardReg (s.threadPart t) b i o (k = 8) (ofBytes d) else s
        | .host a => s.emit (.hostWrite (s.threadPart t) a d)
        | .refused => s.fadd .tierUnbacked 0 1
        | _ => s
      s1.cstoreGo t (va + k) (bs.drop k) fuel

/-- Store bytes: all of them, or none. -/
def State.cwrite (s : State) (t va : Nat) (bs : List Byte) : State × CAcc :=
  match s.cprobe t va bs.length (bs.length / 4096 + 2) with
  | (s1, .ok _) => (s1.cstoreGo t va bs (bs.length / 4096 + 2), .ok [])
  | r => r

/-- Go on after an access, or fault, or wait for the translation with nothing done; a held store has not taken place yet. -/
def State.after (s0 : State) (t : Nat) (write : Bool) (r : State × CAcc) (k : State → List Byte → State) : State :=
  match r with
  | (s1, .ok b) => k s1 b
  | (s1, .fault c va) => s1.faultThread t c va
  | (_, .wait va w) =>
    (s0.enterWait ⟨.carding t, s0.threadPart t, va, write, w⟩).setThread t fun h => { h with wait := .translation }
  | (_, .held) => s0

/-! ## Issue -/

/-- Rows of the opcode table that a carding instruction belongs to. -/
inductive CRow where
  | ordinary | ecall | ebreak | fset | fclr | fwait | frd | tho | twait | stclr | stsave | stmerge | stfin | sort
  | vrnd | vsf | vfba | vcvt | vstat
  deriving DecidableEq, Repr

/-- The row of an instruction; `none`: an Xcard code that is not listed (R187, R188). -/
def rowOf (w : Nat) : Option CRow :=
  let f3 := bitField w 12 3
  let f7 := bitField w 25 7
  let fn := bitField w 26 6
  let hi := fn / 8
  let lo := fn % 8
  if w = 0x73 then some .ecall
  else if w = 0x00100073 then some .ebreak
  else match w % 128, f3 with
  | 0x0B, 6 => match f7 with
    | 0 => some .stclr
    | 1 => some .stsave
    | 2 => some .stmerge
    | 3 => some .stfin
    | _ => none
  | 0x0B, n =>
    if f7 ≠ 0 then none
    else match n with
    | 0 => some .fset
    | 1 => some .fclr
    | 2 => some .fwait
    | 3 => some .frd
    | 4 => some .tho
    | 5 => some .twait
    | _ => some .sort
  | 0x2B, 0 => if hi = 0 && lo ≤ 3 then some .vrnd else none
  | 0x2B, 1 => if hi ≤ 4 && lo ≤ 6 then some .vsf else none
  | 0x2B, 2 => if hi ≤ 4 && lo ≤ 5 then some .vfba else none
  | 0x2B, 3 => if fn < 32 && fn % 16 ≤ 9 then some .vcvt else none
  | 0x2B, 4 => if fn = 0 then some .vstat else none
  | 0x2B, _ => none
  | _, _ => some .ordinary

/-- The thread may issue: its task runs and it does not wait (R179). -/
def State.threadLive (s : State) (t : Nat) : Bool :=
  (s.ctask t).active && (s.ctask t).outcome.isNone && (s.thread t).wait == .none && !(s.thread t).halted && !s.halted (s.threadPart t)

/-- The instruction at an address: its word, expanded where it is compressed, and its length. -/
def State.cfetch (s : State) (t pc : Nat) : State × (CAcc ⊕ (Option Nat × Nat)) :=
  match s.cread t pc 2 with
  | (s1, .ok a) =>
    if ofBytes a % 4 ≠ 3 then (s1, .inr (expandC (ofBytes a), 2))
    else match s1.cread t (pc + 2) 2 with
      | (s2, .ok b) => (s2, .inr (some (ofBytes (a ++ b)), 4))
      | (s2, r) => (s2, .inl r)
  | (s1, r) => (s1, .inl r)

/-- The row of an instruction at its thread: it takes place where the instruction at the pc is of its kind. An instruction that no table
lists ends the task with ILLEGAL. -/
def State.cardRow (s : State) (t : Nat) (row : CRow) (f : State → Nat → Nat → Nat → State) : State :=
  if !s.threadLive t then s
  else
    let pc := s.fget .crdPc t
    match s.cfetch t pc with
    | (s1, .inl r) => s.after t false (s1, r) fun u _ => u
    | (s1, .inr (none, _)) => s1.stopThread t 1
    | (s1, .inr (some w, len)) =>
      match rowOf w with
      | none => s1.stopThread t 1
      | some r => if r = row then f s1 pc len w else s

/-- An instruction retires (R206): the thread after it, and where it goes. A pc of 2^48 or above cannot be fetched. -/
def State.cretire (s : State) (t : Nat) (h : Thread) (pc flops : Nat) : State :=
  let n := t / 8
  let s1 := (((s.setThread t fun _ => { h with instret := h.instret + 1 }).fset .crdPc t pc).fadd .crdInstr n 1).fadd .crdFlops n flops
  if pc ≥ 2 ^ 48 then s1.faultThread t 3 pc else s1

/-- Finish an instruction that only computes. -/
def State.finish (s : State) (t pc len : Nat) (r : Option RvRes) : State :=
  match r with
  | none => s.stopThread t 1
  | some z => s.cretire t z.th (z.pc.getD (pc + len)) z.flops

/-! ## Loads, stores, atomics -/

/-- A scalar load or store; `none` is illegal. Width by funct3, with FLW, FLD, FSW and FSD. -/
def State.scalarMem (s : State) (t pc len w : Nat) : Option State :=
  let h := s.thread t
  let f3 := bitField w 12 3
  let rd := bitField w 7 5
  let base := h.rx (bitField w 15 5)
  let va := (base + wrapInt 64 (signedOf 12 (w / 2 ^ 20))) % 2 ^ 64
  let vs := (base + wrapInt 64 (signedOf 12 (bitField w 7 5 + bitField w 25 7 * 32))) % 2 ^ 64
  let ld (n : Nat) (k : Nat → Thread) : Option State :=
    some (s.after t false (s.cread t va n) fun u b => u.cretire t (k (ofBytes b)) (pc + len) 0)
  let st (n v : Nat) : Option State :=
    some (s.after t true (s.cwrite t vs (toBytes n v)) fun u _ => u.cretire t (u.thread t) (pc + len) 0)
  match w % 128 with
  | 0x03 => if f3 = 7 then none
    else ld (2 ^ (f3 % 4)) fun v => h.wx rd (if f3 < 4 then sx (8 * 2 ^ (f3 % 4)) v else v)
  | 0x23 => if f3 > 3 then none else st (2 ^ f3) (h.rx (bitField w 20 5))
  | 0x07 => if f3 = 2 || f3 = 3 then ld (2 ^ f3) fun v => h.wf rd (nanBox (8 * 2 ^ f3) v) else none
  | _ => if f3 = 2 || f3 = 3 then st (2 ^ f3) (h.rf (bitField w 20 5)) else none

/-- LR, SC and the AMOs (R178): naturally aligned, or ALIGN. A reservation is on memory bytes of the module. -/
def State.atomic (s : State) (t pc len w : Nat) : State :=
  let h := s.thread t
  let f3 := bitField w 12 3
  let f5 := bitField w 27 5
  let rd := bitField w 7 5
  let rs2 := bitField w 20 5
  let va := h.rx (bitField w 15 5)
  let n := 2 ^ f3
  let bits := 8 * n
  let known := f5 = 2 || f5 = 3 || (amoOp bits f5 0 0).isSome
  if !(f3 = 2 || f3 = 3) || !known || (f5 = 2 && rs2 ≠ 0) then s.stopThread t 1
  else if va % n ≠ 0 then s.faultThread t 2 va
  else if f5 = 2 then
    s.after t false (s.cread t va n) fun u b =>
      let r := match s.cardLoc t va false with | .mem a => some (a, n, ofBytes b) | _ => none
      u.cretire t { h.wx rd (sx bits (ofBytes b)) with resv := r } (pc + len) 0
  else if f5 = 3 then
    s.after t true (s.cprobe t va n 2) fun u _ =>
      let held := match h.resv, u.cardLoc t va true with
        | some (a, m, v), .mem x => a = x && m = n && u.ldNat x n = v
        | _, _ => false
      let u1 := if held then (u.cwrite t va (toBytes n (h.rx rs2))).1 else u
      u1.cretire t { h.wx rd (if held then 0 else 1) with resv := none } (pc + len) 0
  else
    s.after t true (s.cprobe t va n 2) fun u _ =>
      s.after t true (u.cread t va n) fun u1 b =>
        let old := ofBytes b
        let u2 := (u1.cwrite t va (toBytes n ((amoOp bits f5 old (h.rx rs2 % 2 ^ bits)).getD 0))).1
        u2.cretire t ((u2.thread t).wx rd (sx bits old)) (pc + len) 0

/-- Fields of one element read or written in order: state, values, and the first access that did not succeed. -/
def State.vloadElem (s : State) (t n : Nat) : List Nat → List Nat → State × List Nat × Option CAcc
  | [], acc => (s, acc.reverse, none)
  | va :: vs, acc =>
    match s.cread t va n with
    | (s1, .ok b) => s1.vloadElem t n vs (ofBytes b :: acc)
    | (s1, r) => (s1, acc.reverse, some r)

/-- The elements of a vector load in order. -/
def State.vloadAll (s : State) (t n : Nat) : List (Nat × List Nat) → List (Nat × List Nat) → State × List (Nat × List Nat) × Option (Nat × CAcc)
  | [], acc => (s, acc.reverse, none)
  | e :: es, acc =>
    match s.vloadElem t n e.2 [] with
    | (s1, vals, none) => s1.vloadAll t n es ((e.1, vals) :: acc)
    | (s1, _, some r) => (s1, acc.reverse, some (e.1, r))

/-- The elements of a vector store in order. -/
def State.vstoreAll (s : State) (t : Nat) (m : VMem) : List (Nat × Nat × Nat) → State × CAcc
  | [] => (s, .ok [])
  | (i, k, va) :: es =>
    match s.cwrite t va (toBytes (m.w / 8) (m.c.h.velt (m.vd + k * regs8 m.n8) m.w i)) with
    | (s1, .ok _) => s1.vstoreAll t m es
    | r => r

/-- A vector load or store. A fault at element 0 ends the task; at a later element of a fault-only-first load it shortens vl. -/
def State.vectorMem (s : State) (t pc len w : Nat) : State :=
  match vmemOf (s.thread t) w with
  | none => s.stopThread t 1
  | some m =>
    if m.store then
      let es := m.elems.flatMap fun (e : Nat × List Nat) => e.2.zipIdx.map fun (x : Nat × Nat) => (e.1, x.2, x.1)
      s.after t true (s.vstoreAll t m es) fun u _ => u.cretire t { u.thread t with vstart := 0 } (pc + len) 0
    else
      match s.vloadAll t (m.w / 8) m.elems [] with
      | (s1, vals, none) => s1.cretire t (m.loaded vals none) (pc + len) 0
      | (s1, vals, some (i, .fault c va)) =>
        if m.fof && i > 0 then s1.cretire t (m.loaded vals (some i)) (pc + len) 0 else s1.faultThread t c va
      | (s1, _, some (_, r)) => s.after t false (s1, r) fun u _ => u

/-- An ordinary instruction (R178): what it computes, or its accesses. -/
def State.ordinary (s : State) (t pc len w : Nat) : State :=
  let f3 := bitField w 12 3
  match w % 128 with
  | 0x03 | 0x23 => match s.scalarMem t pc len w with | some u => u | none => s.stopThread t 1
  | 0x07 | 0x27 =>
    if f3 = 0 || f3 ≥ 5 then s.vectorMem t pc len w
    else match s.scalarMem t pc len w with | some u => u | none => s.stopThread t 1
  | 0x2F => s.atomic t pc len w
  | 0x57 => s.finish t pc len (vecOp (s.thread t) w)
  | _ =>
    let e : CsrEnv := { cycle := (Config.cardCycles s.fresh).toNat, time := s.time, core := t / 8, thread := t % 8, part := s.threadPart t }
    s.draw.finish t pc len (scalarOp (s.thread t) e pc len w)

/-- CARDING_INSTRUCTION. -/
def execCardingInstruction (t : ThreadId) (s : State) : Res :=
  .next (s.cardRow t.num .ordinary fun u pc len w => u.ordinary t.num pc len w)

/-- ECALL (R185). -/
def execEcall (t : ThreadId) (s : State) : Res :=
  .next (s.cardRow t.num .ecall fun u pc len _ =>
    let h := u.thread t.num
    let a0 := h.rx 10
    if a0 = 0 then (u.cretire t.num h (pc + len) 0).stopThread t.num 0
    else (u.fset .crdExit (t.num / 8) (a0 % 2 ^ 32)).stopThread t.num 7)

/-- EBREAK (R185). A debugger is attached while DBG_ACCESS is selected (DEDUCED: R530 is the one place that selects the debug port). -/
def execEbreak (t : ThreadId) (s : State) : Res :=
  .next (s.cardRow t.num .ebreak fun u pc len _ =>
    if u.fget .secDbgApplied 0 = 2 && u.fget .secDbgJtag 0 = 1 then
      u.cretire t.num { u.thread t.num with wait := .break } (pc + len) 0
    else u.stopThread t.num 6)

/-! ## Flags (R189) -/

/-- Values of rs1 and rs2. -/
def Thread.ops (h : Thread) (w : Nat) : Nat × Nat := (h.rx (bitField w 15 5), h.rx (bitField w 20 5))

/-- The thread has a hand-off whose lines are not all written. -/
def State.handsOff (s : State) (t : Nat) : Bool := s.handoffs.any fun h => h.thread = t && !h.done

/-- Run a flag instruction on matrix core rs1 of the skein with the mask of rs2 (R187). -/
def State.flagOp (s : State) (t w : Nat) (useMask : Bool) (k : State → Nat → Nat → State) : State :=
  let o := (s.thread t).ops w
  if o.1 > 7 || (useMask && o.2 > 0xFFFF) then s.stopThread t 1 else k s (8 * (t / 256) + o.1) o.2

/-- XC.FSET and XC.FCLR take effect once the thread's hand-offs have written their lines; its stores have. -/
def State.flagWrite (s : State) (t : Nat) (row : CRow) (f : Nat → Nat → Nat) : State :=
  s.cardRow t row fun u pc len w =>
    u.flagOp t w true fun v c m =>
      if v.handsOff t then s
      else (v.fset .mcrFlags c (f (v.fget .mcrFlags c) m)).cretire t (v.thread t) (pc + len) 0

/-- XC_FSET. -/
def execXcFset (t : ThreadId) (s : State) : Res := .next (s.flagWrite t.num .fset fun a m => a ||| m)

/-- XC_FCLR. -/
def execXcFclr (t : ThreadId) (s : State) : Res := .next (s.flagWrite t.num .fclr fun a m => a - (a &&& m))

/-- XC_FWAIT: it completes where every flag of the mask is set, and waits otherwise. -/
def execXcFwait (t : ThreadId) (s : State) : Res :=
  .next (s.cardRow t.num .fwait fun u pc len w =>
    u.flagOp t.num w true fun v c m =>
      let rd := bitField w 7 5
      let fl := v.fget .mcrFlags c
      if fl &&& m = m then v.cretire t.num ((v.thread t.num).wx rd fl) (pc + len) 0
      else v.setThread t.num fun h => { h with wait := .flags c m rd })

/-- FWAIT_WAKE (R189). -/
def execFwaitWake (t : ThreadId) (s : State) : Res :=
  .next (match (s.thread t.num).wait with
    | .flags c m rd =>
      let fl := s.fget .mcrFlags c
      let h := s.thread t.num
      if fl &&& m = m && (s.ctask t.num).active && !s.frozen (s.threadPart t.num) then
        s.cretire t.num { h.wx rd fl with wait := .none } (s.fget .crdPc t.num + 4) 0
      else s
    | _ => s)

/-- XC_FRD. -/
def execXcFrd (t : ThreadId) (s : State) : Res :=
  .next (s.cardRow t.num .frd fun u pc len w =>
    u.flagOp t.num w false fun v c _ =>
      v.cretire t.num ((v.thread t.num).wx (bitField w 7 5) (v.fget .mcrFlags c)) (pc + len) 0)

/-! ## Tile hand-off (R190, R191) -/

/-- A hand-off descriptor obeys R14, R15 and R190, and every row lies in both memories. -/
def handoffOk (d : List Byte) : Bool :=
  let rows := fld d 16 2
  let len := fld d 18 2
  let cp := signedOf 32 (fld d 8 4)
  let lp := signedOf 32 (fld d 12 4)
  let inside (o : Nat) (pitch : Int) (size : Nat) : Bool :=
    let a : Int := o
    let b : Int := o + pitch * (rows - 1 : Nat)
    decide (0 ≤ a) && decide (0 ≤ b) && decide (a + 64 * len ≤ size) && decide (b + 64 * len ≤ size)
  fld d 0 4 % 64 = 0 && fld d 4 4 % 64 = 0 && fld d 8 4 % 64 = 0 && fld d 12 4 % 64 = 0 && 1 ≤ rows && rows ≤ 4095 &&
  1 ≤ len && len ≤ 4095 && byteAt d 20 ≤ 7 && byteAt d 21 ≤ 1 && (byteAt d 22 ≤ 15 || byteAt d 22 = 255) && zeroAt d 23 41 &&
  inside (fld d 0 4) cp 0x400000 && inside (fld d 4 4) lp 0x40000

/-- A PUT whose rows touch the deckle window of its core (R68, R191). -/
def State.handoffInWindow (s : State) (n : Nat) (d : List Byte) : Bool :=
  let c := 8 * (n / 32) + byteAt d 20
  let size := s.fget .mcrDeckleSize c * 0x4000
  let base := coreMem c + s.fget .mcrDeckleBase c * 0x4000
  byteAt d 21 = 1 && size ≠ 0 && (List.range (fld d 16 2)).any fun r =>
    let a := (handoffRow n d r).1
    decide (a < base + size) && decide (base < a + 64 * fld d 18 2)

/-- XC_THO: checked, then it waits while 8 hand-offs of the core are busy. The descriptor stands in the local window (R190); another
address is ILLEGAL (DEDUCED). -/
def execXcTho (t : ThreadId) (s : State) : Res :=
  .next (s.cardRow t.num .tho fun u pc len w =>
    let n := t.num / 8
    let va := ((u.thread t.num).ops w).1
    if va % 64 ≠ 0 || va < localWindow || va ≥ 2 ^ 48 then u.stopThread t.num 1
    else
      let d := u.ld (localMem n + (va - localWindow)) 64
      if !handoffOk d then u.stopThread t.num 1
      else if u.handoffInWindow n d then
        u.draw.faultThread t.num 4 (Config.putFaultVa u.fresh)
      else if (u.handoffs.filter fun h => h.thread / 8 = n && !h.done).length ≥ 8 then s
      else (State.syncHandoffs { u with handoffs := u.handoffs ++ [{ thread := t.num, desc := d }] } n).cretire t.num (u.thread t.num) (pc + len) 0)

/-- Flags of a thread's completed hand-offs are set in order, behind every earlier hand-off of the thread (R189, R191). -/
def State.handoffFlags (s : State) (t : Nat) : List Handoff → State
  | [] => s
  | h :: hs =>
    if h.thread ≠ t then s.handoffFlags t hs
    else if !h.done then s
    else
      let f := byteAt h.desc 22
      let s1 := { s with handoffs := s.handoffs.erase h }
      (if f ≤ 15 then s1.for' .mcrFlags (8 * (t / 256) + byteAt h.desc 20) (2 ^ f) else s1).handoffFlags t hs

/-- The oldest of the equal hand-offs of a list has written its lines. -/
def markDone (h : Handoff) : List Handoff → List Handoff
  | [] => []
  | x :: xs => if x = h then { x with done := true } :: xs else x :: markDone h xs

/-- HANDOFF_COMPLETE: the hand-off in this place among the core's writes its lines (R191). -/
def execHandoffComplete (n : Fin 2048) (slot : Fin 8) (s : State) : Res :=
  .next (match (s.handoffs.filter fun h => h.thread / 8 = n.val && !h.done)[slot.val]? with
    | none => s
    | some h =>
      let lines := fld h.desc 16 2 * fld h.desc 18 2
      let s1 := s.handoffMove n.val h.desc lines
      let s2 : State := { s1 with handoffs := markDone h s1.handoffs }
      ((s2.fadd .crdHoBytes n.val (64 * lines)).handoffFlags h.thread s2.handoffs).syncHandoffs n.val)

/-- XC_TWAIT: it completes once every hand-off of the thread has. -/
def execXcTwait (t : ThreadId) (s : State) : Res :=
  .next (s.cardRow t.num .twait fun u pc len _ =>
    if u.handsOff t.num then s else u.cretire t.num (u.thread t.num) (pc + len) 0)

/-- A thread stands at an XC.TWAIT whose hand-offs have not ended. -/
def State.atTwait (s : State) (t : Nat) : Bool :=
  s.handsOff t && match (s.cfetch t (s.fget .crdPc t)).2 with
    | .inr (some w, _) => rowOf w == some .twait
    | _ => false

/-! ## Statistics (R199 to R202) -/

/-- FLUSH is in force on a carding core (R196). -/
def State.cardFlush (s : State) (n : Nat) : Bool := s.fget .crdModeSubn n == 0

/-- Set the sticky flush flag (R196). -/
def State.noteFlush (s : State) (n : Nat) (b : Bool) : State := if b then s.fset .crdStatusSnflush n 1 else s

/-- Run a statistics instruction on accumulator rs2 with the address of rs1; `record`: that of a statistic record, which is 64 B-aligned
(R187). -/
def State.statOp (s : State) (t w : Nat) (record : Bool) (k : State → Nat → StatAcc → Nat → State) : State :=
  let h := s.thread t
  let o := h.ops w
  if o.2 > 3 || (record && o.1 % 64 ≠ 0) then s.stopThread t 1 else k s o.2 (SMap.get {} h.stats o.2) o.1

def Thread.setStat (h : Thread) (i : Nat) (a : StatAcc) : Thread := { h with stats := SMap.set {} h.stats i a }

/-- XC_STCLR. -/
def execXcStclr (t : ThreadId) (s : State) : Res :=
  .next (s.cardRow t.num .stclr fun u pc len w =>
    u.statOp t.num w false fun v i _ _ => v.cretire t.num ((v.thread t.num).setStat i {}) (pc + len) 0)

/-- XC_STSAVE. -/
def execXcStsave (t : ThreadId) (s : State) : Res :=
  .next (s.cardRow t.num .stsave fun u pc len w =>
    u.statOp t.num w true fun v _ a va =>
      s.after t.num true (v.cwrite t.num va a.record) fun x _ => x.cretire t.num (x.thread t.num) (pc + len) 0)

/-- XC_STMERGE. -/
def execXcStmerge (t : ThreadId) (s : State) : Res :=
  .next (s.cardRow t.num .stmerge fun u pc len w =>
    u.statOp t.num w true fun v i a va =>
      s.after t.num false (v.cread t.num va 192) fun x b =>
        match statOf b with
        | none => x.stopThread t.num 1
        | some r => x.cretire t.num ((x.thread t.num).setStat i (a.merge r)) (pc + len) 0)

/-- XC_STFIN: the pair of 8 B stands at any address (R187 asks alignment of records only, R202). -/
def execXcStfin (t : ThreadId) (s : State) : Res :=
  .next (s.cardRow t.num .stfin fun u pc len w =>
    u.statOp t.num w false fun v _ a va =>
      let n := t.num / 8
      let r := a.final (v.cardFlush n) (v.thread t.num).xceps
      s.after t.num true (v.cwrite t.num va (toBytes 4 r.1 ++ toBytes 4 r.2.1)) fun x _ =>
        (x.cretire t.num (x.thread t.num) (pc + len) 0).noteFlush n r.2.2)

/-! ## Vector instructions of Xcard (R188) -/

/-- The context of an Xcard vector instruction: SEW must be 32, the groups legal, a masked destination not v0. It operates on elements
0 to vl - 1 as R188 says, whatever vstart holds (DEDUCED, log 53). -/
def xvc (h : Thread) (w : Nat) (srcs : List Nat) (dest : Bool) : Option VC :=
  (vcOf h w).bind fun c =>
    if c.sew = 32 && srcs.all (c.gok · 32) && (!dest || c.dok (bitField w 7 5) 32) then some { c with vstart := 0 } else none

/-- Active elements in index order. -/
def VC.actives (c : VC) : List Nat := c.idx.filter c.active

/-- Write values given for the active elements in order. -/
def VC.putActive (c : VC) (vd : Nat) (vals : List Nat) : Thread :=
  let l := c.actives.zip vals
  let b := c.idx.map fun i => (l.find? fun (e : Nat × Nat) => e.1 = i).map (·.2)
  { c.put c.h vd 32 b with vstart := 0 }

/-- Format code of an OFMT code (R188). -/
def ofmtCode : Nat → Nat
  | 0 => 8
  | 1 => 7
  | 2 => 6
  | 3 => 4
  | _ => 5

def fnOf : Nat → Fn
  | 0 => .exp
  | 1 => .log
  | 2 => .rsqrt
  | 3 => .sigmoid
  | 4 => .tanh
  | 5 => .gelu
  | _ => .silu

/-- One element of XC.VSF (R194, R196): the word and whether FLUSH replaced a value. -/
def vsfElt (fl : Bool) (f : Fn) (c w : Nat) : Nat × Bool :=
  let x := flushFmt fl 8 w
  let y := convert fl c .rne (fnFor f c x.1)
  (y.1, x.2 || y.2)

/-- One element of XC.VFBA (R196, R197): a of vs1, b of vs2, d of vd. -/
def vfbaElt (fl : Bool) (act c a b d : Nat) : Nat × Bool :=
  let x := flushFmt fl 8 a
  let y := flushFmt fl 8 b
  let z := flushFmt fl 8 d
  let p := flushFmt fl 8 (mul32 x.1 y.1)
  let q := flushFmt fl 8 (add32 p.1 z.1)
  let r := convert fl c .rne (if act = 0 then v32 q.1 else fnFor (actFn act) c q.1)
  (r.1, x.2 || y.2 || z.2 || p.2 || q.2 || r.2)

/-- Finish an elementwise Xcard instruction: results of the active elements. -/
def State.xcElts (s : State) (t pc len w : Nat) (c : VC) (r : List (Nat × Bool)) : State :=
  let n := t / 8
  let h := c.putActive (bitField w 7 5) (r.map (·.1))
  (((s.cretire t h (pc + len) 0).fadd .crdSfuElem n r.length).noteFlush n (r.any (·.2)))

/-- XC_VSF. -/
def execXcVsf (t : ThreadId) (s : State) : Res :=
  .next (s.cardRow t.num .vsf fun u pc len w =>
    match xvc (u.thread t.num) w [bitField w 20 5] true with
    | none => u.stopThread t.num 1
    | some c =>
      let fl := u.cardFlush (t.num / 8)
      u.xcElts t.num pc len w c (c.actives.map fun i =>
        vsfElt fl (fnOf (bitField w 26 3)) (ofmtCode (bitField w 29 3)) (c.h.velt (bitField w 20 5) 32 i)))

/-- XC_VFBA. -/
def execXcVfba (t : ThreadId) (s : State) : Res :=
  .next (s.cardRow t.num .vfba fun u pc len w =>
    match xvc (u.thread t.num) w [bitField w 20 5, bitField w 15 5] true with
    | none => u.stopThread t.num 1
    | some c =>
      let fl := u.cardFlush (t.num / 8)
      u.xcElts t.num pc len w c (c.actives.map fun i =>
        vfbaElt fl (bitField w 26 3) (ofmtCode (bitField w 29 3)) (c.h.velt (bitField w 15 5) 32 i)
          (c.h.velt (bitField w 20 5) 32 i) (c.h.velt (bitField w 7 5) 32 i)))

/-- Elements of XC.VCVT in index order (R57, R198): one word of the lane for each inexact element under RND. -/
def State.vcvtGo (s : State) (k lane : Nat) (rnd fl : Bool) (c : Nat) : List Nat → List (Nat × Bool) → State × List (Nat × Bool)
  | [], acc => (s, acc.reverse)
  | x :: xs, acc =>
    let y := flushFmt fl 8 x
    if rnd && c ≠ 9 && inexactFmt c (v32 y.1) then
      let r := s.drawWords k lane 1
      let z := convert fl c (.sr (r.2.headD 0 % 65536)) (v32 y.1)
      r.1.vcvtGo k lane rnd fl c xs ((z.1, y.2 || z.2) :: acc)
    else
      let z := convert fl c .rne (v32 y.1)
      s.vcvtGo k lane rnd fl c xs ((z.1, y.2 || z.2) :: acc)

/-- After a draw that had waited, what waits behind it on the matrix cores starts; `u`: the state before the draw. -/
def State.laneServed (s u : State) (k : Nat) : State := if u.whorlCmds.isEmpty then s else s.pumpSkein k

/-- XC_VCVT: with RND it waits, in its place, while a jump or seek of its lane is pending (R215). -/
def execXcVcvt (t : ThreadId) (s : State) : Res :=
  .next (s.cardRow t.num .vcvt fun u pc len w =>
    match xvc (u.thread t.num) w [bitField w 20 5] true with
    | none => u.stopThread t.num 1
    | some c =>
      let k := t.num / 256
      let lane := ((u.thread t.num).ops w).1 % 64
      let rnd := bitAt w 30
      if rnd && u.lanePending k lane (t.num + 1) then s.joinLane k lane (t.num + 1)
      else
        let r := (u.leaveLanes (t.num + 1)).vcvtGo k lane rnd (u.cardFlush (t.num / 8)) (bitField w 26 4)
          (c.actives.map fun i => c.h.velt (bitField w 20 5) 32 i) []
        (r.1.xcElts t.num pc len w c r.2).laneServed u k)

/-- Words an element of a kind consumes (R217). -/
def kindWords (kind : Nat) : Nat := if kind = 2 then 2 else 1

/-- An element of a kind from its words (R217): BITS, UNIFORM, GAUSS, GUMBEL. -/
def kindElt (kind w1 w2 : Nat) : Nat :=
  let minus (w : Nat) : Nat := w ^^^ 2 ^ 31
  match kind with
  | 0 => w1
  | 1 => r32 (.fin false (w1 / 256) (-24))
  | 2 => gauss32 w1 w2
  | _ => minus (fn32 .log (minus (fn32 .log (r32 (.fin false (2 * (w1 / 512) + 1) (-24))))))

/-- XC_VRND: draws of the lane for the active elements in index order (R192). -/
def execXcVrnd (t : ThreadId) (s : State) : Res :=
  .next (s.cardRow t.num .vrnd fun u pc len w =>
    let lane := ((u.thread t.num).ops w).1
    match xvc (u.thread t.num) w [] true with
    | none => u.stopThread t.num 1
    | some c =>
      let k := t.num / 256
      let kind := bitField w 26 3
      if lane ≥ 64 then u.stopThread t.num 1
      else if u.lanePending k lane (t.num + 1) then s.joinLane k lane (t.num + 1)
      else
        let m := kindWords kind
        let r := (u.leaveLanes (t.num + 1)).drawWords k lane (m * c.actives.length)
        let vals := (List.range c.actives.length).map fun i => kindElt kind (r.2.getD (m * i) 0) (r.2.getD (m * i + 1) 0)
        (r.1.cretire t.num (c.putActive (bitField w 7 5) vals) (pc + len) 0).laneServed u k)

/-- XC_VSTAT: exact in both subnormal modes (R196, R199). -/
def execXcVstat (t : ThreadId) (s : State) : Res :=
  .next (s.cardRow t.num .vstat fun u pc len w =>
    match xvc (u.thread t.num) w [bitField w 20 5] false with
    | none => u.stopThread t.num 1
    | some c =>
      let n := t.num / 8
      let i := ((u.thread t.num).ops w).1 % 4
      let r := c.actives.foldl (fun (a : StatAcc × Bool) e =>
        let x := a.1.add (c.h.velt (bitField w 20 5) 32 e)
        (x.1, a.2 || x.2)) (SMap.get {} (u.thread t.num).stats i, false)
      let h : Thread := { (u.thread t.num).setStat i r.1 with vstart := 0 }
      let s1 := (u.cretire t.num h (pc + len) 0).fadd .crdSfuElem n c.actives.length
      if r.2 then s1.fset .crdStatusStovf n 1 else s1)

/-! ## The sort network (R175 to R177, R193) -/

/-- XC_SORT: the request is queued, its STATUS reads pending; it waits while the queue holds 8. -/
def execXcSort (t : ThreadId) (s : State) : Res :=
  .next (s.cardRow t.num .sort fun u pc len w =>
    let k := t.num / 256
    let va := ((u.thread t.num).ops w).1
    if va % 64 ≠ 0 then u.stopThread t.num 1
    else if (u.sorts.filter fun r => r.skein = k).length ≥ 8 then s
    else
      s.after t.num false (u.cread t.num va 64) fun x d =>
        s.after t.num true (x.cwrite t.num (va + 36) (List.replicate 4 0xFF)) fun y _ =>
          State.cretire { y with sorts := y.sorts ++ [{ skein := k, thread := t.num, va := va, data := d }] } t.num (y.thread t.num) (pc + len) 0)

/-- A request breaks R14, R15 or R175. -/
def sortBad (d : List Byte) : Bool :=
  fld d 0 8 % 64 ≠ 0 || fld d 24 4 = 0 || fld d 28 2 = 0 || fld d 28 2 > 4096 || byteAt d 30 < 6 || byteAt d 30 > 9 ||
  byteAt d 31 ≥ 4 || !zeroAt d 40 24

/-- The order of R176: element a with index i comes no later than b with index j. -/
def sortLe (fmt : Nat) (smallest : Bool) (a b : Nat × Nat) : Bool :=
  let x := decFmt fmt a.1
  let y := decFmt fmt b.1
  if x.isNan then y.isNan && decide (a.2 ≤ b.2)
  else if y.isNan then true
  else if x.eqv y then decide (a.2 ≤ b.2)
  else if smallest then x.lt y else y.lt x

/-- Output values and indices of a request (R175, R176). -/
def sortOut (d : List Byte) (row : List Nat) : List Nat × List Nat :=
  let fmt := byteAt d 30
  let small := bitAt (byteAt d 31) 0
  let k := fld d 28 2
  let top := (row.zipIdx.mergeSort fun a b => sortLe fmt small a b).take k
  let fill := match fmtFlt fmt with
    | some f => f.signBit (!small) + f.infWord
    | none => if small then 2 ^ 31 - 1 else 2 ^ 31
  let pad := k - top.length
  (top.map (·.1) ++ List.replicate pad fill,
   top.map (fun x => (fld d 32 4 + x.2) % 2 ^ 32) ++ List.replicate pad (2 ^ 32 - 1))

/-- Bytes at an address as writes that lie in one 4 KiB page each. -/
def pageWrites (va : Nat) (bs : List Byte) : Nat → List (Nat × List Byte)
  | 0 => []
  | fuel + 1 =>
    if bs.isEmpty then []
    else
      let k := min bs.length (4096 - va % 4096)
      (va, bs.take k) :: pageWrites (va + k) (bs.drop k) fuel

/-- What a request writes (R175): its outputs from the row of elements, and STATUS last. -/
def sortWrites (r : SortReq) (row : List Nat) : List (Nat × List Byte) :=
  let d := r.data
  let o := sortOut d row
  let out (va m : Nat) (l : List Nat) : List (Nat × List Byte) := pageWrites va (l.flatMap (toBytes m)) 8
  out (fld d 8 8) (fmtWidth (byteAt d 30) / 8) o.1 ++ (if bitAt (byteAt d 31) 1 then [] else out (fld d 16 8) 4 o.2) ++
    [(r.va + 36, toBytes 4 0)]

/-- The request in the network becomes another. -/
def State.setSort (s : State) (r q : SortReq) : State := { s with sorts := s.sorts.map fun (x : SortReq) => if x = r then q else x }

/-- The network waits for a translation; what it has written stays written. -/
def State.sortWait (s : State) (r : SortReq) (va : Nat) (write : Bool) (w : WaitKind) : State :=
  s.enterWait ⟨.sort r.skein, s.threadPart r.thread, va, write, w⟩

/-- Perform the writes of the request in order; the last is STATUS, after which the request leaves the network. An unserved fault of an
output ends it with FAULT; one of the STATUS word leaves nothing to write. -/
def State.sortGo (s : State) (r : SortReq) (l : List (Nat × List Byte)) : Nat → State
  | 0 => s
  | fuel + 1 =>
    match l with
    | [] => { s with sorts := s.sorts.erase r }
    | (va, bs) :: rest =>
      match s.cwrite r.thread va bs with
      | (s1, .ok _) => s1.sortGo r rest fuel
      | (s1, .wait a w) => (s1.setSort r { r with writes := some l }).sortWait r a true w
      | (s1, _) => if rest.isEmpty then { s1 with sorts := s1.sorts.erase r } else s1.sortGo r [(r.va + 36, toBytes 4 2)] fuel

/-- The request ends with a STATUS and no further output. -/
def State.sortEnd (s : State) (r : SortReq) (status : Nat) : State := s.sortGo r [(r.va + 36, toBytes 4 status)] 2

/-- A translation of the request ends unserved (R175): FAULT, or no STATUS where it was that of the STATUS word. -/
def State.sortUnserved (s : State) (k : Nat) : State :=
  match s.sorts.find? fun r => r.skein = k with
  | none => s
  | some r => if r.writes.any fun l => l.length ≤ 1 then { s with sorts := s.sorts.erase r } else s.sortEnd r 2

/-- SORT_DONE: the oldest request of the skein's network goes on with its writes, or is read and sorted. -/
def execSortDone (k : Fin 64) (s : State) : Res :=
  .next (match s.sorts.find? fun r => r.skein = k.val with
    | none => s
    | some r =>
      let d := r.data
      if s.waitsFor (.sort k.val) then s
      else match r.writes with
      | some l => s.sortGo r l 24
      | none =>
        if sortBad d then s.sortEnd r 1
        else
          let n := fld d 24 4
          match s.cread r.thread (fld d 0 8) (n * (fmtWidth (byteAt d 30) / 8)) with
          | (s1, .ok b) => s1.sortGo r (sortWrites r ((List.range n).map fun i => elemOf (byteAt d 30) b i)) 24
          | (s1, .wait va w) => s1.sortWait r va false w
          | (s1, _) => s1.sortEnd r 2)

end Sys2Proof.Machine
end

