-- ==== Sys2Proof/Machine/Fabric.lean ====
section
/-! DEFINITION. Routed frames (R435 to R437, R444), requests from other devices and their answers (R430 to R432), answers to our own
(R431, R433), STOP (R445), SIGNAL_PEER (R357), and the fabric commands (R435, R436, R447). -/

namespace Sys2Proof.Machine

/-! ## Answers to our requests -/

/-- What an owner does when requests of its have been answered. -/
def State.notifyOwner (s : State) (o : FabOwner) : State :=
  match o with
  | .halo c tag => if s.fabOpen o then s else (s.haloAnswered c tag).pump c
  | .coll p dva => s.collAnswered p dva
  | _ => s

/-- Set the answer of the requests that meet a condition, and tell their owners. -/
def State.answerReqs (s : State) (c : FabReq → Bool) (a : Nat) : State :=
  let hit := s.fabReqs.filter fun r => r.answer.isNone && c r
  let s1 : State := { s with fabReqs := s.fabReqs.map fun (r : FabReq) => if r.answer.isNone && c r then { r with answer := some a } else r }
  let s2 := s1.fabSubmit []
  (hit.map (·.owner)).foldl (fun (t : State) o => t.notifyOwner o) s2

/-- One entry of a RESP from a device (R431, R432): an entry that answers nothing outstanding, or names another TGEN, is STALE. -/
def State.respEntry (s : State) (src : Nat) (e : List Byte) : State :=
  let tag := fld e 0 2
  let tgen := byteAt e 2
  let st := byteAt e 3
  let hit (r : FabReq) : Bool := r.dst = src && r.tag = some tag && r.tgen = tgen && r.answer.isNone
  if tgen = s.fget .flkIdTgen 0 && s.fabReqs.any hit then s.answerReqs hit (min st 4) else s.fadd .flkStale 0 1

/-- E2E_TIMEOUT (R433): the request is sent again, or ends UNREACHABLE at the retry limit. Under a STOP nothing is sent (R445). -/
def State.e2eTimeout (s : State) (dev tag : Nat) : State :=
  let hit (r : FabReq) : Bool := r.dst = dev && r.tag = some tag && r.answer.isNone
  match s.fabReqs.find? hit with
  | none => s
  | some r =>
    if r.resends ≥ s.fget .flkRoutingE2eRetry 0 then (s.fadd .flkUnreach 0 1).answerReqs (fun y => y = r) 5
    else
      let x := if s.stoppedTo dev r.spart then (s, r) else s.transmit r tag
      let r1 : FabReq := { x.2 with resends := r.resends + 1, answer := none }
      let s1 : State := { x.1 with fabReqs := x.1.fabReqs.map fun (y : FabReq) => if y = r then r1 else y }
      if x.2.answer.isSome then s1.answerReqs (fun y => y = r1) 4 else s1

/-- E2E_TIMEOUT. -/
def execE2eTimeout (dev : BitVec 12) (tag : BitVec 16) (s : State) : Res := .next (s.e2eTimeout dev.toNat tag.toNat)

/-! ## Answers we send -/

def State.rxSrc (s : State) (dev : Nat) : RxSrc := SMap.get {} s.rxSrcs dev
def State.setRxSrc (s : State) (dev : Nat) (f : RxSrc → RxSrc) : State := { s with rxSrcs := SMap.set {} s.rxSrcs dev (f (s.rxSrc dev)) }

/-- Send what has been gathered for a source, at most 32 entries (R431). -/
def State.sendResp (s : State) (dev : Nat) : State :=
  let q := s.rxSrc dev
  match q.answers with
  | [] => s
  | l =>
    let now := l.take 32
    let s1 := s.setRxSrc dev fun q => { q with answers := l.drop 32 }
    (s1.originate 5 dev 0 0 (s.fget .flkIdTgen 0) 0 0 now.length 0 (respBytes now)).1

/-- Answer a request (R431): gathered for up to 1 us, sent at once when 32 are there. -/
def State.answerPeer (s : State) (dev tag tgen st : Nat) : State :=
  let s1 := s.setRxSrc dev fun q => { q with answers := q.answers ++ [(tag, tgen, st)] }
  if (s1.rxSrc dev).answers.length ≥ 32 then s1.sendResp dev else s1

/-- RESP_GATHER_EXPIRY. -/
def execRespGatherExpiry (dev : BitVec 12) (s : State) : Res := .next (s.sendResp dev.toNat)

/-- The window base passes every leading recorded tag (R432). -/
def advanceBase (base : Nat) (done : List (Nat × Nat)) : Nat → Nat × List (Nat × Nat)
  | 0 => (base, done)
  | n + 1 =>
    if done.any fun e => e.1 = base then advanceBase ((base + 1) % 65536) (done.filter fun e => e.1 ≠ base) n else (base, done)

/-- The status of a request is recorded and answered (R432). -/
def State.recordTag (s : State) (dev tag tgen st : Nat) : State :=
  let s1 := s.setRxSrc dev fun q =>
    let r := advanceBase q.base ((tag, st) :: q.done) 1024
    { q with base := r.1, done := r.2 }
  s1.answerPeer dev tag tgen st

/-- A request of a device arrives with its TGEN and TAG (R432): `k` applies it and gives its status, or none while it waits. -/
def State.taggedReq (s : State) (dev tgen tag : Nat) (k : State → State × Option Nat) : State :=
  let q := s.rxSrc dev
  let age := (tgen + 256 - q.tgen) % 256
  if q.known && age ≥ 128 then s.fadd .flkStale 0 1
  else
    let s1 := if !q.known || age ≠ 0 then s.setRxSrc dev fun q => { q with known := true, tgen := tgen, base := 0, done := [] } else s
    let q1 := s1.rxSrc dev
    if (tag + 65536 - q1.base) % 65536 ≥ 1024 then s1.fadd .flkStale 0 1
    else match q1.done.find? fun e => e.1 = tag with
      | some e => (s1.fadd .flkDup 0 1).answerPeer dev tag tgen e.2
      | none =>
        if s1.fabPend.any fun x => x.src = dev && x.tag = tag && x.tgen = tgen then s1
        else match k s1 with
          | (s2, some st) => s2.recordTag dev tag tgen st
          | (s2, none) => s2

/-! ## WRITE and SIGNAL (R430, R356) -/

/-- The first enabled import window of a partition that holds the bytes and admits the source (R453). -/
def State.importWindow (s : State) (p src spart addr n : Nat) : Option Nat :=
  (List.range 16).find? fun w =>
    let i := 16 * p + w
    let base := s.fget .ringImpBase i * 65536
    s.fget .ringImpCtlEn i = 1 && base ≤ addr && addr + n ≤ base + s.fget .ringImpSize i * 65536 &&
    (s.fget .ringImpCtlAnydev i = 1 || s.fget .ringImpCtlSrc i = src) && (s.fget .ringImpCtlAnypart i = 1 || s.fget .ringImpCtlSpart i = spart)

/-- Pages of a WRITE, in order: refused, faulted, or waiting at the first that is not a writable DPA leaf. -/
def State.writePages (s : State) (p addr n : Nat) : Nat → Nat ⊕ (Nat × WaitKind)
  | 0 => .inl 0
  | fuel + 1 =>
    if n = 0 then .inl 0
    else
      let k := min n (4096 - addr % 4096)
      match s.translate p addr true with
      | .dpa a => if s.region a = .t2 then .inl 2 else s.writePages p (addr + k) (n - k) fuel
      | .host _ | .ats _ | .readOnly => .inl 2
      | .demand => .inr (addr, .demand)
      | .unmapped _ => .inl 3

/-- Apply a WRITE through a window, or wait for a translation in the pending buffer. -/
def State.applyWrite (s : State) (x : FabPend) : State × Option Nat :=
  match s.writePages x.part x.addr x.data.length 3 with
  | .inl 0 =>
    -- while a checkpoint is copied, a WRITE to a protected page waits (R458)
    if (s.ckpts.any fun c => c.1 = x.part && c.2.2) && (match s.translate x.part x.addr true with | .dpa a => s.region a = .t1 | _ => false) then
      ({ s with fabPend := if s.fabPend.contains x then s.fabPend else s.fabPend ++ [x] }, none)
    else
    let s1 := s.vstoreGo x.part x.addr x.data 3
    ((s1.fadd .ringImpAccepted (16 * x.part + x.window) 1).fadd .flkQRxbytes x.part x.data.length, some 0)
  | .inl st => ((if st = 2 then s.fadd .flkQRefused x.part 1 else s), some st)
  | .inr (va, k) =>
    let s1 : State := { s with fabPend := if s.fabPend.contains x then s.fabPend else s.fabPend ++ [x] }
    (s1.enterWait ⟨.fabric x.src x.tag, x.part, va, true, k⟩, none)

/-- A WRITE for a partition of this module. -/
def State.peerWrite (s : State) (src spart dpart addr tag tgen : Nat) (data : List Byte) : State × Option Nat :=
  if !s.formed dpart then (s.fadd .flkQRefused dpart 1, some 2)
  else match s.importWindow dpart src spart addr data.length with
    | none => (s.fadd .flkQRefused dpart 1, some 2)
    | some w => s.applyWrite { src := src, tag := tag, tgen := tgen, part := dpart, window := w, addr := addr, data := data }

/-- A WRITE that waited goes on (R430). -/
def State.resumeWrite (s : State) (src tag : Nat) : State :=
  match s.fabPend.find? fun x => x.src = src && x.tag = tag with
  | none => s
  | some x =>
    match s.applyWrite x with
    | (s1, some st) => { s1 with fabPend := s1.fabPend.erase x }.recordTag src tag x.tgen st
    | (s1, none) => s1

/-- Its translation cannot be served: FAULT. -/
def State.failWrite (s : State) (src tag : Nat) : State :=
  match s.fabPend.find? fun x => x.src = src && x.tag = tag with
  | none => s
  | some x => { s with fabPend := s.fabPend.erase x }.recordTag src tag x.tgen 3

/-! ## Routed frames (R437) -/

/-- A frame of this module to a source on VC3: STOP (R444). -/
def State.sendStop (s : State) (dev : Nat) : State :=
  (s.originate 0x15 dev 0 0 0 0 0 64 (s.fget .flkRateStopUs 0) []).1

/-- The rate limit of a source (R444): false where the frame is beyond it. A frame counts with its whole size on the wire (DEDUCED). -/
def State.rateAdmit (s : State) (src bytes : Nat) : State × Bool :=
  let lim := s.fget .flkRateGbps 0 * 10000
  if lim = 0 then (s, true)
  else
    let q := s.rxSrc src
    let q1 : RxSrc := if s.time ≥ q.winStart + 250 || q.winBytes = 0 then { q with winStart := s.time, winBytes := 0, stopped := false } else q
    if q1.winBytes + bytes ≤ lim then (s.setRxSrc src fun _ => { q1 with winBytes := q1.winBytes + bytes }, true)
    else
      let s1 := (s.fadd .flkRatedrop 0 1).setRxSrc src fun _ => { q1 with stopped := true }
      (if q1.stopped then s1 else s1.sendStop src, false)

/-- A frame arriving on port `p` is routed (R437). `deliver` takes it where it is for this module. -/
def State.routed (s : State) (p : Nat) (f : FabFrame) (deliver : State → State) : State :=
  let h := f.header
  let src := hdrSrc h
  let dst := hdrDst h
  let vc := hdrVc h
  let own := s.ownDev
  let e := s.route src
  if own.isNone && vc ≠ 3 then s
  else if s.quarantined src || s.quarantined dst || (e = 0 && own ≠ some src) || (e ≠ 0 && !bitAt e (8 + p)) then s.fadd .flkFiltered 0 1
  else if own = some dst then
    let r := s.rateAdmit src (48 + f.payload.length)
    if r.2 then deliver r.1 else r.1
  else if byteAt h 10 = 0 then s.fadd .flkHopdrop 0 1
  else
    let r := s.routeOut f
    if r.2 then r.1 else s.noRoute f

/-- A request frame for this module. -/
def State.rxRequest (s : State) (p ty : Nat) (fr : Frame) (k : State → FabFrame → State × Option Nat) : State :=
  s.rxFrame p ty fr fun u f => u.routed p f fun v =>
    v.taggedReq (hdrSrc f.header) (byteAt f.header 11) (bigFld f.header 12 2) fun w =>
      -- below P1 a request for this module is refused (R489)
      if w.fget .pwrState 0 ≥ 2 then (w.fadd .flkQRefused (byteAt f.header 8) 1, some 2) else k w f

/-- WRITE: while the pending buffer of 256 is full, its credits are held back, that is, the frame has not been taken (R430). -/
def execWrite (p : Fin 8) (f : Frame) (s : State) : Res :=
  .next (if s.fabPend.length ≥ 256 then s
    else s.rxRequest p 1 f fun u x =>
      let h := x.header
      u.peerWrite (hdrSrc h) (byteAt h 9) (byteAt h 8) (bigFld h 20 6) (bigFld h 12 2) (byteAt h 11) x.payload)

/-- SIGNAL (R356, R430). -/
def execSignal (p : Fin 8) (f : Frame) (s : State) : Res :=
  .next (s.rxRequest p 2 f fun u x =>
    let h := x.header
    let opf := bigFld h 26 2
    let part := byteAt h 8
    let r := u.peerSignal (hdrSrc h) part (opf / 256) (opf % 4) (fld x.payload 0 8)
    if r.2 = 0 then (r.1.fadd .flkQRxbytes part 8, some 0)
    else if r.2 = 8 then (r.1, some 1)
    else (r.1.fadd .flkQRefused part 1, some 2))

/-- COLL (R440). -/
def execColl (p : Fin 8) (f : Frame) (s : State) : Res :=
  .next (
    let t := s.rxRequest p 4 f fun u x =>
      let h := x.header
      let opf := bigFld h 26 2
      let part := byteAt h 8
      let r := u.collTake part (hdrSrc h) (byteAt h 9) (opf % 256) (opf / 256) (bigFld h 28 4) (bigFld h 20 6) x.payload
      (if r.2 = 2 then r.1.fadd .flkQRefused part 1 else r.1.fadd .flkQRxbytes part x.payload.length, some r.2)
    t.collDrive)

/-- RESP (R431). -/
def execResp (p : Fin 8) (f : Frame) (s : State) : Res :=
  .next (s.rxFrame p 5 f fun u x => u.routed p x fun v =>
    (splitBytes 8 (x.payload.length / 8) x.payload).foldl (fun (t : State) e => t.respEntry (hdrSrc x.header) e) v)

/-- STOP (R445): requests to its source are held for a partition, or all; a later one replaces the duration. -/
def execStop (p : Fin 8) (f : Frame) (s : State) : Res :=
  .next (s.rxFrame p 0x15 f fun u x => u.routed p x fun v =>
    let opf := bigFld x.header 26 2
    let e : FabStop := { dev := hdrSrc x.header, part := if bitAt opf 6 then 64 else opf % 64 }
    { v with fabStops := if v.fabStops.contains e then v.fabStops else v.fabStops ++ [e] })

/-- STOP_EXPIRY. -/
def execStopExpiry (dev : BitVec 12) (s : State) : Res :=
  .next (State.fabSubmit { s with fabStops := s.fabStops.filter fun x => x.dev ≠ dev.toNat } [])

/-! ## SIGNAL_PEER (R357) -/

/-- Writes that earlier records of the ring made are not all acknowledged. -/
def State.writesOpen (s : State) (g : Nat) : Bool :=
  s.fabReqs.any fun r => r.answer.isNone && r.ring = g + 1

/-- SIGNAL_PEER: sent to the peer, applied at once where the peer is this module, UNREACHABLE while no device number is set. -/
def State.signalPeer (s : State) (g : Nat) (r : Rec) : State :=
  let d := r.data
  let dev := fld d 14 2
  if s.writesOpen g then s
  else if r.reported then s.endRec g r.idx 0 0 0 0
  else match s.ownDev with
    | none => s.endRec g r.idx 0x10 0 0 0
    | some own =>
      if dev = own then
        let x := s.peerSignal own (byteAt d 16) (byteAt d 13) (byteAt d 12) (fld d 24 8)
        x.1.endRec g r.idx x.2 0 0 0
      else
        let q : FabReq := { owner := .signal g r.idx r.gen, dst := dev, ty := 2, spart := g / 16, dpart := byteAt d 16,
                            opf := byteAt d 12 + 256 * byteAt d 13, payload := toBytes 8 (fld d 24 8) }
        (s.started' g r.idx).fabSubmit [q]

/-- SIGNAL_PEER. -/
def execSignalPeer (p : Fin 64) (r : Fin 16) (s : State) : Res := .next (s.startRec p r 4 State.signalPeer)

/-- Status of a SIGNAL_PEER record by its answer (R357, R431): no route counts as unreachable (DEDUCED). -/
def peerStatus (a : Nat) : Nat :=
  match a with
  | 0 => 0
  | 1 => 8
  | 2 => 2
  | 3 => 2
  | _ => 0x10

/-- A request of SIGNAL_PEER on a ring. -/
def FabOwner.signals (g : Nat) : FabOwner → Bool
  | .signal q _ _ => q = g
  | _ => false

/-- SIGNAL_PEER_ANSWER: an answer under another ring generation is stale (R370). -/
def execSignalPeerAnswer (p : Fin 64) (r : Fin 16) (s : State) : Res :=
  .next (
    let g := 16 * p.val + r.val
    match s.fabReqs.find? fun x => x.answer.isSome && x.owner.signals g with
    | none => s
    | some x =>
      let s1 : State := { s with fabReqs := s.fabReqs.erase x }
      match x.owner with
      | .signal _ idx gen =>
        if s.fget .ringStateGen g ≠ gen then (s1.fadd .ringStale g 1).fadd .ringPstale (g / 16) 1
        else s1.endRec g idx (peerStatus (x.answer.getD 5)) 0 0 0
      | _ => s)

/-! ## Commands -/

/-- FAB_DEVNUM (R432, R435): the epoch rises, and tags start again under the new TGEN (DEDUCED). -/
def cmdFabDevnum (s : State) (m : Nat) (r : MbxReq) : State × Ans :=
  let old := toBytes 2 s.devnum
  let s1 : State := { s with epoch := s.epoch + 1, fabTags := [] }
  let s2 := ((s1.fset .flkIdDevnum 0 (fld r.data 16 2)).fset .flkIdSet 0 1).fset .flkIdTgen 0 (Config.nvEpoch + s1.epoch)
  (s2.logCmd m r 0x0D old (toBytes 2 s2.devnum), .logged [])

/-- A table breaks the layout of R436, or names a device twice. -/
def routesBad (l : List Nat) : Bool :=
  (l.any fun e => !bitAt e 0 || bitField e 18 14 ≠ 0 || bitField e 44 20 ≠ 0) || !(l.map fun e => bitField e 32 12).Nodup

/-- One side of FAB_ROUTE in the change log (R575). -/
def routeSide (l : List Nat) : List Byte := toBytes 2 l.length ++ (if l.isEmpty then [] else (sha384 (l.flatMap (toBytes 8))).take 14)

/-- FAB_ROUTE (R436): atomic. -/
def cmdFabRoute (s : State) (m : Nat) (r : MbxReq) : State × Ans :=
  let d := r.data
  let n := fld d 24 2
  match s.cmdRead m (byteAt d 5) (fld d 16 6) (8 * n) with
  | (s1, .inr a) => (s1, a)
  | (s1, .inl b) =>
    let l := (List.range n).map fun i => fld b (8 * i) 8
    if routesBad l then (s1, .now 1 (toBytes 2 16))
    else (({ s1 with routes := l }.fabSubmit []).logCmd m r 0x0D (routeSide s.routes) (routeSide l), .logged [])

/-- FAB_QUARANTINE (R447): requests to the device and collectives that include it end UNREACHABLE at once. -/
def cmdFabQuarantine (s : State) (m : Nat) (r : MbxReq) : State × Ans :=
  let d := r.data
  let dev := fld d 16 2
  let on := byteAt d 18 = 1
  let side (t : State) : List Byte := toBytes 2 dev ++ toBytes 1 (if t.quarantined dev then 1 else 0)
  let v := s.fget .flkQuar (dev / 32)
  let b := 2 ^ (dev % 32)
  let s1 := s.fset .flkQuar (dev / 32) (if on then v ||| b else v - (v &&& b))
  let s2 :=
    if !on then s1.fabSubmit []
    else
      let hit (x : FabReq) : Bool := x.dst = dev
      let u := s1.fadd .flkUnreach 0 ((s1.fabReqs.filter fun x => hit x && x.answer.isNone).length)
      let v := u.answerReqs hit 5
      ((v.colls.filter fun c => c.group.any fun e => e.1 = dev).foldl (fun (t : State) c => t.collEnd c.part c.dva 5) v).collDrive
  (s2.logCmd m r 0x0D (side s) (side s2), .logged [])

/-- FAB_DEVNUM. -/
def execFabDevnum (m : Mbx) (s : State) : Res := .next (s.runCommand m 0x601 cmdFabDevnum)
/-- FAB_ROUTE. -/
def execFabRoute (m : Mbx) (s : State) : Res := .next (s.runCommand m 0x603 cmdFabRoute)
/-- FAB_QUARANTINE. -/
def execFabQuarantine (m : Mbx) (s : State) : Res := .next (s.runCommand m 0x604 cmdFabQuarantine)

end Sys2Proof.Machine
end

