-- ==== Sys2Proof/Machine/StreamCmd.lean ====
section
/-! DEFINITION. The commands of the stream engines: a malformed descriptor marks its ring guilty (R258, R367). -/

namespace Sys2Proof.Machine

/-- MOVE. -/
def execMove (e : Fin 4) (ctx : Fin 136) (s : State) : Res := .next (s.doMove (136 * e + ctx)).takeGuilts

/-- BARSET. -/
def execBarset (e : Fin 4) (ctx : Fin 136) (s : State) : Res := .next (s.doBarset (136 * e + ctx)).takeGuilts

/-- DESCRIPTOR_COMPLETE. -/
def execDescriptorComplete (e : Fin 4) (ctx : Fin 136) (s : State) : Res := .next (s.doDescriptorComplete (136 * e + ctx))

/-- STREAM_FAULT_UNSERVED. -/
def execStreamFaultUnserved (e : Fin 4) (ctx : Fin 136) (s : State) : Res := .next (s.streamUnserved (136 * e + ctx))

/-- STREAM_DRAIN_TIMEOUT. -/
def execStreamDrainTimeout (s : State) : Res := .next s.drainTimeout

end Sys2Proof.Machine
end

