-- ==== Sys2Proof/Machine/Serve.lean ====
section
/-! DEFINITION. Translation faults that are served or not (R230), the address services of the host (R553, R554), and host memory
accesses that fail (R555). -/

namespace Sys2Proof.Machine

/-! ## What follows for each requester -/

/-- Take one wait out. -/
def State.endWait (s : State) (w : TransWait) : State := { s with waits := s.waits.erase w }

/-- The requester goes on. Rows that try the access again themselves (a fetch, a record, a dispatch, a stream, a mailbox command, a
sort) need nothing more. -/
def State.resume (s : State) (w : TransWait) : State :=
  let t := s.endWait w
  match w.req with
  | .node g idx n =>
    match t.graphOf g idx with
    | some x => if (x.node n).resolved then t else t.retryNode g idx n
    | none => t
  | .matrix c => if t.waitsFor (.matrix c) then t else t.resumeCore c
  | .carding h => if t.waitsFor (.carding h) then t else
      t.setThread h fun x => if x.wait = .translation then { x with wait := .none } else x
  | .collective p dva =>
    match t.colls.find? fun (c : Coll) => c.part = p && c.dva = dva with
    | some c => if c.running then t.collFinish p dva else t.collStart p dva
    | none => t
  | .fabric src tag => t.resumeWrite src tag
  | .late p va bytes => t.lateCpl p va bytes
  | .ssb p va bytes => t.ssbPut p va bytes
  | .video k => t.frameInput k
  | .stream x =>
    -- FAULTS of the engine counts the faults that were served (R284)
    match w.kind with
    | .demand => t.fadd .strmEFaults (x / 136) 1
    | .pri _ => t.fadd .strmEFaults (x / 136) 1
    | _ => t
  | _ => t

/-- The node that a GRAPH whose reads wait has reached (R359). -/
def State.waitNode (s : State) (p va nn : Nat) : Nat :=
  ((List.range nn).find? fun i => match s.readNodes p va nn (i + 1) [] with
    | (_, .inl _) => false
    | _ => true).getD 0

/-- A record whose own reads cannot be served completes FAULT (R349, R359). -/
def State.recUnserved (s : State) (g idx : Nat) : State :=
  match (s.ring g).recs.find? fun r => r.idx = idx with
  | none => s
  | some r =>
    let d1 := if byteAt r.data 0 = 1 then s.waitNode (g / 16) (fld r.data 16 6) (fld r.data 24 4) else 0
    let u := s.endRec g idx 2 0 d1 0
    let t := if byteAt r.data 0 = 1 then u.graphJobEnd g r else u.settleJobs (g / 16)
    if byteAt r.data 0 = 5 then t.fset .ringStateWaiting g 0 else t

/-- The completion record is lost, and the record completes (R350); one that a reset or an end of the partition completes is only
marked to have none. -/
def State.cplUnserved (s : State) (g idx : Nat) : State :=
  match (s.ring g).recs.find? fun r => r.idx = idx with
  | some r =>
    let t := s.fset .ringPstatusCpllost (g / 16) 1
    match r.outcome with
    | some st =>
      if s.fget .ringState g = 1 || (s.fget .ringState g = 2 && byteAt r.data 0 ≠ 6) then (t.afterCpl g r st).settleJobs (g / 16)
      else t.setRec g idx fun x => { x with data := x.data.set 1 (BitVec.ofNat 8 (byteAt x.data 1 &&& 0xFD)) }
    | none => t.setRec g idx fun x => { x with data := x.data.set 1 (BitVec.ofNat 8 (byteAt x.data 1 &&& 0xFD)) }
  | none => s

/-- A node's entry fails the node (R361), or the task that was to be dispatched ends before it starts (R362). -/
def State.nodeUnserved (s : State) (g idx n va : Nat) : State :=
  match s.graphOf g idx with
  | none => s
  | some x =>
    let nd := x.node n
    if !nd.resolved then
      (s.setGraph g idx fun y => (y.note 2 n).setNode n fun q => { q with resolved := true }).graphEnd g idx
    else
      let bump (y : Graph) : Graph := y.setNode n fun q => { q with next := q.next + 1 }
      let run (tg : Target) : State :=
        (s.dispatchFault tg (taskOf g idx x.gen n nd.next) va).setGraph g idx fun y => { bump y with running := y.running + 1 }
      match s.target (g / 16) nd.data nd.next with
      | some (.matrix c) => run (.matrix c)
      | some (.carding k t) => run (.carding k t)
      | _ =>
        let code := if byteAt nd.data 0 = 1 then 7 * 2 ^ 40 else 3 * 2 ^ 40 + 2 ^ 44
        (s.setGraph g idx fun y => (bump y).note 2 (n + nd.next * 2 ^ 16 + code)).graphEnd g idx

/-- The oldest waiting command of a mailbox about a partition is answered FAULT (R383). -/
def State.mbxUnserved (s : State) (m p va : Nat) : State :=
  match (s.mbx m).reqs.find? fun r => r.phase = 0 && byteAt r.data 5 = p with
  | some r => s.answer m r (.now 0x14 (toBytes 8 va))
  | none => s

/-- The outcome of an unserved fault for its requester (R98, R205, R230, R264, R343, R350, R359, R362, R383, R430, R439). -/
def State.unserved (s : State) (w : TransWait) : State :=
  match w.req with
  | .stream x => (s.streamUnserved x).endWait w
  | _ =>
    let t := s.endWait w
    match w.req with
    | .fetch g => t.markGuilty g 6 (t.fget .ringHead g)
    | .completion g idx => t.cplUnserved g idx
    | .record g idx => t.recUnserved g idx
    | .node g idx n => t.nodeUnserved g idx n w.va
    | .matrix c =>
      let pc := (((t.mcore c).running.find? (·.paused)).map (·.i.pc)).getD (t.fget .mcrPc c)
      t.stopMatrix c 7 pc
    | .carding h => t.faultThread h 3 w.va
    | .stream _ => t
    | .mailbox m => t.mbxUnserved m w.part w.va
    | .video k => t.videoUnserved k
    | .sort k => t.sortUnserved k
    | .collective p dva =>
      match t.colls.find? fun (c : Coll) => c.part = p && c.dva = dva with
      -- no status can be told where STATUS lies
      | some c => (if c.closing.isSome then t.collGone p dva 1 else t.collEnd p dva 2).collDrive
      | none => t
    | .fabric src tag => t.failWrite src tag
    | .late p _ _ => t.fset .ringPstatusCpllost p 1
    -- no status can be told there
    | .ssb .. => t

/-! ## Service by the tier manager -/

/-- The 64 KiB granule of a T1 or T2 copy that holds a DPA is copied again from the nearest lower tier (R470, R472). -/
def State.refillFrom (s : State) (dpa : Nat) : Option (Obj × Copy × Copy) :=
  (s.objs.map (·.2)).findSome? fun o =>
    (o.copies.find? fun c => c.tier ≠ 3 && c.base ≤ dpa && dpa < c.base + charged o.bytes).bind fun c =>
      ((o.copies.find? fun d => d.tier = c.tier + 1 && d.version = c.version).or
        (o.copies.find? fun d => d.tier = 3 && d.tier > c.tier && d.version = c.version)).map fun d => (o, c, d)

/-- Copy one granule. -/
def State.refill (s : State) (dpa : Nat) : State :=
  match s.refillFrom dpa with
  | none => s
  | some (_, c, d) =>
    let off := (dpa - c.base) / 0x10000 * 0x10000
    let src := if d.tier = 3 then s.flash else s.mem
    { s with mem := cellsCopy src s.mem (if d.tier = 3 then d.base * 4096 + off else d.base + off) 0x10000 (c.base + off) }

/-- TRANSLATION_FAULT_SERVED (R230): the tier manager serves the n-th access that waits; an object that cannot be made resident leaves
it unserved (R265). -/
def State.faultServed (s : State) (n : Nat) : State :=
  match s.waits[n]? with
  | none => s
  | some w =>
    if !s.millUp then s
    else match w.kind with
    | .demand =>
      if s.flashDown && ((s.part w.part).maps.any fun x => x.va ≤ w.va && w.va < x.va + x.size &&
          s.needsFlash w.part x.obj (if x.tier = 3 then 1 else x.tier)) then s
      else match s.serveDemand w.part w.va with
      | (t, true) => t.resume w
      | (_, false) => s.unserved w
    | .refill dpa => (s.refill dpa).resume w
    | _ => s

/-- TRANSLATION_FAULT_SERVED. -/
def execTranslationFaultServed (n : Nat) (s : State) : Res := .next (s.faultServed n)

/-! ## ATS and PRI -/

/-- PCIe function number: 0 PF0, 1 + p VF p. -/
def funcNum : Func → Nat
  | .pf0 => 0
  | .vf p => p.val + 1

/-- Page request groups outstanding of a partition's function (R554). -/
def State.priGroups (s : State) (p : Nat) : List Nat := s.waits.filterMap fun w => match w.kind with
  | .pri g => if w.part = p then some g else none
  | _ => none

/-- Change the kind of a wait. -/
def State.setWait (s : State) (w : TransWait) (k : WaitKind) : State :=
  { s with waits := s.waits.map fun x => if x = w then { x with kind := k } else x }

/-- Send a page request for a wait, or hold it while 256 of its function are outstanding (R554). -/
def State.askPri (s : State) (w : TransWait) : State :=
  let out := s.priGroups w.part
  if out.length ≥ 256 then s.setWait w .priQueued
  else
    let g : Nat := ((List.range 512).find? fun i => !out.contains i).getD 0
    let page := match s.translate w.part w.va w.write with | .ats a => a | _ => w.va / 4096 * 4096
    ((s.setWait w (.pri g)).fadd .pciPriReq 0 1).emit (.pageRequest (w.part + 1) page g)

/-- The next queued page request of a function is sent when one has left, in fault order. -/
def State.nextPri (s : State) (p : Nat) : State :=
  match s.waits.find? fun w => w.part = p && w.kind = .priQueued with
  | some w => s.askPri w
  | none => s

/-- ATS_TRANSLATION_COMPLETION (R553, R554): the n-th wait's access goes on with the page, or a page request is issued. -/
def execAtsTranslationCompletion (n : Nat) (granted : Option (BitVec 52)) (s : State) : Res :=
  .next (match s.waits[n]? with
    | none => s
    | some w =>
      if w.kind ≠ .ats then s
      else match s.translate w.part w.va w.write, granted with
        | .ats page, some host =>
          { s with atc := (w.part + 1, page, host.toNat * 4096 % 2 ^ 64) ::
                     s.atc.filter fun t => !(t.1 = w.part + 1 && t.2.1 = page) }.resume w
        | .ats _, none => s.askPri w
        | _, _ => s.resume w)

/-- ATS_INVALIDATE (R553): the cached translation leaves, and the completion follows. -/
def execAtsInvalidate (f : Func) (page : BitVec 52) (s : State) : Res :=
  let func := funcNum f
  let a := page.toNat * 4096
  let s1 : State := { s with atc := s.atc.filter fun t => !(t.1 = func && t.2.1 = a) }
  .next ((s1.fadd .pciAtsInv 0 1).emit (.atsInvalidated func a))

/-- An access whose page request ends unserved (R554). -/
def State.priFails (s : State) (w : TransWait) : State := ((s.pciError .pciPriFail).unserved w).nextPri w.part

/-- The wait of a function's page request group. -/
def State.priWait (s : State) (func prg : Nat) : Option TransWait :=
  s.waits.find? fun w => w.part + 1 = func && w.kind = .pri prg

/-- PAGE_REQUEST_GROUP_RESPONSE (R554): one that no request waits for came after the timeout, and is counted. -/
def execPageRequestGroupResponse (f : Func) (prg : BitVec 9) (success : Bool) (s : State) : Res :=
  .next (match s.priWait (funcNum f) prg.toNat with
    | none => s.pciError .pciPriLate
    | some w => if success then (s.resume w).nextPri w.part else s.priFails w)

/-- PRI_TIMEOUT (R554). -/
def execPriTimeout (f : Func) (prg : BitVec 9) (s : State) : Res :=
  .next (match s.priWait (funcNum f) prg.toNat with
    | none => s
    | some w => s.priFails w)

/-! ## Host memory accesses that fail (R555) -/

/-- The wait is for host memory. -/
def WaitKind.onHost : WaitKind → Bool
  | .ats | .priQueued | .pri _ => true
  | _ => false

/-- HOST_READ_ERROR (R555, R557): the n-th waiting access, one to host memory, ends as an unserved fault of its requester; where
that is none, the next read of host memory does. -/
def execHostReadError (n : Nat) (e : HostError) (s : State) : Res :=
  .next (match s.waits[n]? with
    | none => { s with hostErr := some e }
    | some w =>
      if w.kind.onHost then ((s.pciError (hostErrCounter e)).unserved w).nextPri w.part else { s with hostErr := some e })

/-- HOST_WRITE_REJECT (R555): counted, not retried. -/
def execHostWriteReject (s : State) : Res := .next (s.pciError .pciWrej)

/-- Every host memory access outstanding ends under R555 (R503, R556). -/
def State.dropHostAccesses (s : State) : State :=
  (s.waits.filter fun w => w.kind.onHost).foldl (fun (t : State) w => if t.waits.contains w then t.unserved w else t) s

end Sys2Proof.Machine
end

