-- ==== Sys2Proof/Machine/Flash.lean ====
section
/-! DEFINITION. The flash store's own work: journal and commit (R301 to R305), media upkeep (R296), lost channels (R298), package
temperatures (R299), and the erase after entry to RETURN (R517). -/

namespace Sys2Proof.Machine

/-! ## Journal and commit -/

/-- FTL_JOURNAL_WRITE (R301): every map change so far has reached flash. -/
def execFtlJournalWrite (s : State) : Res := .next (if s.ftlRuns then { s with journal := none } else s)

/-- The WAIT_COMMIT entry of the shutdown table ends: stage 4 (R508, R509). -/
def State.passStage4 (s : State) : State := if s.fget .pwrStateStage 0 = 3 then s.fset .pwrStateStage 0 4 else s

/-- FTL_COMMIT_DONE (R301, R303): the commit marker is written. What an aborted shutdown let the FTL do since the commit began is not in
it. -/
def execFtlCommitDone (s : State) : Res :=
  .next (if s.committing then
      let since : Option FlashState := if s.journal.isNone || s.commitOf = some s.flashNow then none else s.commitOf
      ({ s with journal := since, committing := false, commitOf := none, commitDone := true }.fadd .ftlCommits 0 1).passStage4
    else s)

/-- T3 is as the last flash journal write left it (R304): bytes, map, lost blocks, extents and objects. -/
def State.loseJournal (s : State) : State :=
  match s.journal with
  | none => s
  | some j =>
    -- objects registered since the start stand
    let kept := s.objs.foldl (fun m (e : Nat × Obj) => if e.2.copies.any fun c => c.tier ≠ 3 then SMap.set {} m e.1 e.2 else m) j.objs
    { s.setFtl fun f => { f with map := j.map } with flash := j.cells, objs := kept, t3alloc := j.extents, lostBlocks := j.lost, journal := none }

/-- The two channels that hold the metadata (R298). -/
def metaChannels : Nat × Nat :=
  let a := (Config.metaChannel false).val
  let b := (Config.metaChannel true).val
  (a, if a = b then (b + 1) % 16 else b)

/-- Both copies of the metadata are lost (R298). -/
def metaLost (lost : Nat) : Bool := lost.testBit metaChannels.1 && lost.testBit metaChannels.2

/-- Blocks marked bad at manufacture count as retired (R296, R308). -/
def State.showBad (s : State) : State := (List.range 16).foldl (fun t c => t.fset .ftlChBad c (Config.factoryBad (Fin.ofNat 16 c))) s

/-- STATE after the map is loaded (R298, R305, R307); READY while the erase of R517 runs. -/
def State.ftlOpen (s : State) : State :=
  if s.returnErase then (s.fset .ftlStatusState 0 1).showBad.ftlHealth
  else if metaLost s.flashLost then s.fset .ftlStatusState 0 4
  else
    let s1 := (s.fset .ftlStatusState 0 (if s.flashStale = 0 && !s.flashTwice then 1 else 2)).fset .ftlStatusRebuild 0 (if s.flashStale = 0 then 0 else 1)
    s1.showBad.ftlHealth.ftlWorn

/-- FLASH in READY_STATUS: the map is loaded (R305) and the hold-up store is charged (R563). -/
def State.flashReady (s : State) : State :=
  if s.ftlRuns && s.holdup.isSome then s.setReady 15 true else s

/-- FTL_MAP_LOAD_DONE (R304, R305). -/
def execFtlMapLoadDone (jlost : Bool) (s : State) : Res :=
  .next (if s.fget .ftlStatusState 0 ≠ 0 || !bitAt (s.fget .glbReadyStatus 0) 14 then s
    else
      let lost := jlost && s.fget .ftlStatusDirtystart 0 = 1 && s.journal.isSome
      let s1 := if lost then s.loseJournal.fset .ftlStatusJlost 0 1 else { s with journal := none }
      s1.ftlOpen.flashReady)

/-! ## Media upkeep (R296) -/

/-- READ_DISTURB_REFRESH. -/
def execReadDisturbRefresh (_block : Nat) (s : State) : Res :=
  .next (if s.ftlRuns then s.ftlRelocate.fadd .ftlRdReloc 0 1 else s)

/-- RETENTION_SCAN: corrected bits in percent of hard-decode capability; the bounds are 60 and 85 (R296, R297). -/
def execRetentionScan (_block corrected : Nat) (s : State) : Res :=
  .next (if !s.ftlRuns || corrected ≤ 60 then s
    else if corrected > 85 then s.ftlRelocate.fadd .ftlUrgent 0 1
    else s.ftlRelocate.fadd .ftlRetReloc 0 1)

/-- STATIC_WEAR_LEVELLING. -/
def execStaticWearLevelling (_ch : Fin 16) (s : State) : Res := .next (if s.ftlRuns then s.ftlRelocate else s)

/-- PROGRAM_ERASE_FAILURE: the data is rewritten and the block retired. -/
def execProgramEraseFailure (block : Nat) (s : State) : Res :=
  .next (if s.ftlRuns then
      let s1 := (s.draw.fadd .ftlProgBytes 0 (Config.flashMoved s.fresh)).fadd .ftlGrownBad 0 1
      (s1.fadd .ftlChBad (Config.blockChannel block) 1).ftlHealth.ftlWorn
    else s)

/-! ## Lost channels (R298) -/

/-- Written blocks that a further lost channel makes unrecoverable (R298): those on it or on one lost before, of a stripe that the
rebuild had not come to. -/
def State.twiceLost (s : State) (c : Nat) : List Nat :=
  (s.ftl.map.filter fun e =>
    let t := (e.2 - 1) / 16
    let at' := (e.2 - 1) % 16
    t < s.ftl.fresh && (s.flashStale ||| 2 ^ c).testBit at' && Config.stripeLost s.fresh t && !s.lostBlocks.contains e.1).map (·.1)

/-- FLASH_CHANNEL_LOST (R298); a store that is READONLY stays so (R307). -/
def State.flashChannelLost (s : State) (c : Nat) : State :=
  if s.flashLost.testBit c then s
  else
    let second := s.flashStale ≠ 0
    let s0 : State := if second then { s.draw with lostBlocks := s.lostBlocks ++ s.twiceLost c } else s
    let s1 : State := { s0.setFtl fun f => { f with fresh := f.next } with
      flashLost := s.flashLost ||| 2 ^ c, flashStale := s.flashStale ||| 2 ^ c, flashTwice := s.flashTwice || second }
    let s2 := (s1.fset .ftlChstatus 0 (s1.fget .ftlChstatus 0 ||| 2 ^ c)).fset .ftlChLost c 1
    let st := s2.fget .ftlStatusState 0
    let s3 :=
      if st = 0 || st = 4 then s2
      else if metaLost s2.flashLost then (s2.fset .ftlStatusState 0 4).setReady 15 false
      else (s2.fset .ftlStatusState 0 (if st = 3 then 3 else 2)).fset .ftlStatusRebuild 0 1
    (s3.logFault { cls := 0xC, unit := unitWord 6 c }).hardFault none (unitWord 6 c) 0xC

/-- FLASH_CHANNEL_LOST. -/
def execFlashChannelLost (ch : Fin 16) (s : State) : Res := .next (s.flashChannelLost ch)

/-- Every stripe written before the loss lies on the channels that are left (R298); the blocks of lost ones stay lost. -/
def State.rebuildStripes (s : State) : State :=
  let old := (s.ftl.map.filter fun e => (e.2 - 1) / 16 < s.ftl.fresh && !s.lostBlocks.contains e.1).map (·.1)
  { s.layBlocks old with flashStale := 0 }

/-- FLASH_REBUILD_DONE: STATE returns to READY, but for a store that lost a second channel meanwhile, or whose spares run low (R307). -/
def execFlashRebuildDone (s : State) : Res :=
  .next (if s.fget .ftlStatusRebuild 0 = 0 || !s.ftlRuns then s
    else
      let s1 := s.rebuildStripes.fset .ftlStatusRebuild 0 0
      if s1.fget .ftlStatusState 0 = 2 && !s1.flashTwice then s1.fset .ftlStatusState 0 (if s1.worn then 3 else 1) else s1)

/-! ## Temperature (R299, R308) -/

/-- FLASH_PACKAGE_TEMP_CHANGE. -/
def State.flashTemp (s : State) (c temp : Nat) : State :=
  let s1 : State := { s with pkgTemps := SMap.set 0 s.pkgTemps c temp }
  let at' (i : Nat) : Nat := SMap.get 0 s1.pkgTemps i
  let hot := (List.range 16).foldl (fun b i => if at' i > at' b then i else b) 0
  let throt := (List.range 16).any fun i => at' i ≥ 80
  let s2 := ((s1.fset .ftlTemp 0 (at' hot)).fset .ftlTempPkg 0 hot).fset .ftlTempThrot 0 (if throt then 1 else 0)
  let s3 := if throt then s2.fset .ftlTempWashot 0 1 else s2
  { s3 with temps := SMap.set 0 s3.temps 16 (at' hot) }

/-- FLASH_PACKAGE_TEMP_CHANGE. -/
def execFlashPackageTempChange (ch : Fin 16) (temp : BitVec 8) (s : State) : Res := .next (s.flashTemp ch temp.toNat)

/-- RETURN_ERASE_DONE (R517). -/
def execReturnEraseDone (s : State) : Res := .next { s with returnErase := false }

end Sys2Proof.Machine
end

