-- ==== Sys2Proof/Machine/Reset.lean ====
section
/-! DEFINITION. Resets of blocks, and what an end of a partition's work leaves (R503, R467). -/

namespace Sys2Proof.Machine

/-- Instances of a field that one instance of a block holds. -/
def fldIn (b : Blk) (f : Fld) : Option Nat :=
  b.rows.findSome? fun r => if r.fields.any fun x => x.fld = f then some (max 1 (r.n1 * r.n2 * r.subs)) else none

/-- The registers of the selected instances of a block return to their reset values. -/
def State.resetBlock (s : State) (b : Blk) (sel : Nat → Bool) : State :=
  s.fclearAll fun f i => match fldIn b f with
    | some n => sel (i / n)
    | none => false

/-- Entries whose key meets a condition leave a map. -/
def dropKeys {α : Type} (m : SMap α) (c : Nat → Bool) : SMap α := m.filter fun e => !c e.1

/-- Skein reset (R503): the blocks of the skein and its memories, with what its units hold. A FAILED noise source shows again (R209). -/
def State.resetSkein (s : State) (k : Nat) : State :=
  let s1 := ((s.resetBlock .mcr (· / 8 = k)).resetBlock .crd (· / 32 = k)).resetBlock .skn (· = k)
  let m := cellsZero (cellsZero (cellsZero s1.mem (coreMem (8 * k)) (8 * 0x400000)) (localMem (32 * k)) (32 * 0x40000)) (skeinMem k) 0x2000000
  { s1 with mem := m, mcores := dropKeys s1.mcores (· / 8 = k), mtasks := dropKeys s1.mtasks (· / 8 = k),
            threads := dropKeys s1.threads (· / 256 = k), ctasks := dropKeys s1.ctasks (· / 256 = k), lanes := dropKeys s1.lanes (· / 64 = k),
            sorts := s1.sorts.filter fun (r : SortReq) => r.skein ≠ k, handoffs := s1.handoffs.filter fun (h : Handoff) => h.thread / 256 ≠ k,
            whorlCmds := s1.whorlCmds.filter fun (w : WhorlCmd) => w.skein ≠ k }.fset .sknWhorlStatusSrcfail k (if s.noiseFailed then 1 else 0)

/-- The tasks of a partition stop under R98 and R205 and leave their units; what they were writing is unknown. -/
def State.stopTasks (s : State) (p : Nat) : State :=
  let s1 := (s.coresOf p).foldl (fun (t : State) c =>
    if (t.mtask c).active then
      ((if (t.mtask c).outcome.isNone then t.stopMatrix c 9 (t.fget .mcrPc c) else t).setMtask c fun _ => {}).setMcore c fun _ => {}
    else t) s
  (s.cardingOf p).foldl (fun (t : State) n => (List.range 8).foldl (fun (u : State) i =>
    let h := 8 * n + i
    if (u.ctask h).active then (if (u.ctask h).outcome.isNone then u.stopThread h 8 else u).setCtask h fun _ => {} else u) t) s1

/-- The wait belongs to a unit or a ring of the partition. -/
def Requester.unitOf (p : Nat) (cores cards : List Nat) (skeins : List Nat) (ctxPart : Nat → Bool) : Requester → Bool
  | .fetch g | .completion g _ | .record g _ | .node g _ _ => g / 16 = p
  | .matrix c => cores.contains c
  | .carding t => cards.contains (t / 8)
  | .stream x => ctxPart x
  | .sort k => skeins.contains k
  | .collective q _ | .ssb q _ _ => q = p
  | .video _ | .mailbox _ | .fabric _ _ | .late .. => false

/-- Work of a partition in every unit stops (R464 step 1): tasks, chains at a line boundary, frames, sorts, hand-offs, collectives and
their requests. -/
def State.stopWork (s : State) (p : Nat) : State :=
  let s1 : State := s.stopVideos p
  let s2 := s1.stopTasks p
  let cores := s2.coresOf p
  let cards := s2.cardingOf p
  let sk := s2.skeins p
  let mine (o : FabOwner) : Bool := match o with
    | .halo c _ => cores.contains c
    | .signal g _ _ => g / 16 = p
    | .coll q _ => q = p
    | _ => false
  let s3 : State := { s2 with
    videos := s2.videos.filter fun (v : VideoJob) => v.ring / 16 ≠ p,
    waits := s2.waits.filter fun w => !w.req.unitOf p cores cards sk fun x => (s2.ctx x).part = p && (s2.ctx x).busy,
    sorts := s2.sorts.filter fun (r : SortReq) => !sk.contains r.skein,
    handoffs := s2.handoffs.filter fun (h : Handoff) => !cards.contains (h.thread / 8),
    colls := s2.colls.filter fun (c : Coll) => c.part ≠ p,
    fabReqs := s2.fabReqs.filter fun (r : FabReq) => !mine r.owner,
    chainWaits := s2.chainWaits.filter fun (w : ChainWait) => w.part ≠ p,
    slices := s2.slices.filter fun (q : SliceReq) => q.part ≠ p }
  let s4 := s3.ctxs.foldl (fun (t : State) (e : Nat × Ctx) =>
    if e.2.busy && e.2.part = p && e.1 % 136 < 128 then ((t.setCtx e.1 fun _ => {}).syncCtx (e.1 / 136) p).pumpChains (e.1 / 136) 64 else t) s3
  (s4.syncColl p).syncVid p

/-- Every started record of the partition completes with a status, and its jobs end (R467, R244). -/
def State.endPartJobs (s : State) (p status : Nat) : State :=
  let s1 := s.stopWork p
  let s2 := ((List.range 16).map (16 * p + ·)).foldl (fun (t : State) g =>
    ((t.ring g).recs.filter fun x => t.begun g x).foldl (fun (u : State) (x : Rec) => u.completeStopped s g x status) t) s1
  let s3 : State := { s2 with
    graphs := s2.graphs.filter fun (x : Graph) => x.ring / 16 ≠ p, switching := s2.switching.filter fun x => x.1 ≠ p,
    boundaries := s2.boundaries.filter fun x => x.1 ≠ p, ckpts := s2.ckpts.filter fun x => x.1 ≠ p,
    late := s2.late.filter fun x => x.1 ≠ p }
  let s4 := (List.range 16).foldl (fun (t : State) r => if (t.job (16 * p + r)).isOpen then t.finishJob (16 * p + r) else t) s3
  s4.fset .ringActiveSwitching p 0

/-- After a map-out, the job of a partition with a placement that found no room ends with NO_SPACE (R244). -/
def State.endUnplaced (s : State) : State :=
  s.formedParts.foldl (fun (t : State) p =>
    if t.jobOpen p && t.usedPlacements.any fun q => q.part = p && (q.base + q.size > t.t1Backed ||
        (List.range 256).any fun c => q.chset.testBit c && t.fget .tierChLive c = 0) then t.endPartJobs p 0xA else t) s

/-- CH_MAPOUT. -/
def execChMapout (m : Mbx) (s : State) : Res := .next (s.runCommand m 0x30B cmdChMapout).endUnplaced

end Sys2Proof.Machine
end

