-- ==== Sys2Proof/Machine/Mirror.lean ====
section
/-! DEFINITION. Checkpoint images and peer mirror: the protected set (R460), writing an image (R458, R459, R461 to R463), mirror traffic
out (R474, R477, R478) and in (R475, R476, R479). -/

namespace Sys2Proof.Machine

def State.image (s : State) (i : Nat) : Image := SMap.get {} s.images i
def State.setImage (s : State) (i : Nat) (f : Image → Image) : State := { s with images := SMap.set {} s.images i (f (s.image i)) }

/-! ## The protected set (R460) -/

/-- The 64 KiB granules of T1 that a partition's tables map writable: address and DPA. -/
def State.protGranules (s : State) (p : Nat) : List (Nat × Nat) :=
  ((s.part p).maps.filter fun m => m.tier ≠ 2).flatMap fun m =>
    (List.range (ceilDiv m.size 0x10000)).filterMap fun i =>
      match s.translate p (m.va + 0x10000 * i) true with
      | .dpa a => if a < s.t1Backed then some (m.va + 0x10000 * i, a) else none
      | _ => none

/-- A dirty bit of a granule: D0 or D1. -/
def State.dirtyBit (s : State) (dpa x : Nat) : Bool := (SMap.get 0 s.dirty (dpa / 0x10000)).testBit x

/-- Set the dirty bits of a granule. -/
def State.setDirty (s : State) (dpa v : Nat) : State := { s with dirty := SMap.set 0 s.dirty (dpa / 0x10000) v }

/-! ## Writing an image -/

/-- The partition has quiesced (R458), and no command of a lane is in flight (R216). -/
def State.quiesced (s : State) (p : Nat) : Bool :=
  let threads := (s.cardingOf p).flatMap fun n => (List.range 8).map (8 * n + ·)
  threads.all (fun t => !(s.ctask t).active || (s.ctask t).outcome.isSome || s.atTwait t ||
      (match (s.thread t).wait with | .flags .. => true | _ => false)) &&
  !(s.ctxs.any fun c => c.2.busy && c.2.part = p && c.1 % 136 < 128 && c.2.ended.isNone &&
      !(byteAt c.2.desc 0 = 1 && bitAt (byteAt c.2.desc 1) 0)) &&
  !(s.vframes.any fun f => f.part = p) && !(s.whorlCmds.any fun w => (s.skeins p).contains w.skein) &&
  !(s.fabReqs.any fun r => r.spart = p && r.answer.isNone && (match r.owner with
    | .mirror _ | .mirrorLog _ _ | .mirrorBit _ _ => false
    | _ => true))

/-- Ring state of an image (R459). -/
def State.ringImage (s : State) (g : Nat) : RingImage :=
  let recs := (s.ring g).recs
  let h := s.fget .ringHead g
  let resume := (recs.head?.map (·.idx)).getD h
  let n := (h + 2 ^ 32 - resume) % 2 ^ 32
  { state := s.fget .ringState g, gen := s.fget .ringStateGen g, prio := s.fget .ringCfgPrio g, resume := resume,
    done := ((List.range n).map fun i => (resume + i) % 2 ^ 32).filter fun i => !recs.any fun r => r.idx = i, recs := recs }

/-- Graph state as an image holds it: a STREAM node whose chain has not been reported runs again. -/
def Graph.imaged (x : Graph) : Graph :=
  let redo (n : Node) : Bool := byteAt n.data 0 = 3 && n.ended < n.next
  { x with nodes := x.nodes.map fun n => if redo n then { n with next := n.ended } else n,
           running := x.running - (x.nodes.filter redo).foldl (fun a n => a + (n.next - n.ended)) 0 }

/-- Size of the graph state (R459). -/
def graphBytes (l : List Graph) : Nat :=
  l.foldl (fun a x => a + ceilDiv (64 * x.nodes.length + ceilDiv (x.nodes.foldl (fun b n => b + (n.next - n.ended)) 0) 8) 4096 * 4096) 0

/-- STEP of an image: the step number of the first core that waits at the barrier (DEDUCED from R483: peers are restored to the same
STEP). -/
def State.stepAt (s : State) (p b : Nat) : Nat :=
  s.fget .mcrStep (((s.coresOf p).find? fun c => (s.mcore c).wait = .tdf b).getD ((s.coresOf p).headD 0))

/-- The peer mirror that MIRROR_SET has set takes effect (R36, R474). A partner that it leaves is told no more, and a new one gets whole
images (DEDUCED). -/
def State.latchMirror (s : State) (p : Nat) : State :=
  let q := s.part p
  let now := if q.mirrorOn = 1 then some (q.mirrorDev, q.mirrorPart) else none
  if now = q.mirrorNow then s
  else
    let fresh (m : Image) : Image := { m with mstate := 0, mwhole := false }
    ((s.setPart p fun q => { q with mirrorNow := now, mirrorTold := false }).setImage (2 * p) fresh).setImage (2 * p + 1) fresh

/-- CHECKPOINT_COPY (R458, R459, R461): the image of the next parity is written, up to COMPLETE. -/
def State.checkpointCopy (s0 : State) (p : Nat) : State :=
  match s0.ckpts.find? fun c => c.1 = p && !c.2.2, s0.activeJob p with
  | some c, some k =>
    let x := (s0.part p).nextImage
    let i := 2 * p + x
    if !s0.quiesced p || s0.recovering p || (s0.image i).mstate = 1 then s0
    else
      let s := s0.latchMirror p
      let old := s.image i
      let j := s.job k
      let live := s.liveSize p k
      let graphs := (s.graphs.filter fun (g : Graph) => g.ring / 16 = p).map Graph.imaged
      let prot := s.protGranules p
      let now := prot.filter fun g => !old.whole || s.dirtyBit g.2 x || !old.held.contains g.1
      let pages := now.foldl (fun m g => cellsCopy s.mem m g.2 0x10000 g.1) (if old.whole then old.pages else [])
      let seq := ((s.part p).ckptSeq + 1) % 2 ^ 24
      let img : Image := {
        num := (s.part p).cgen * 2 ^ 24 + seq, job := k, jobRec := j, snap := s.capture p j.liveAll live j.barriers,
        rings := (List.range 16).map fun r => s.ringImage (16 * p + r), graphs := graphs, pages := pages, time := s.time, whole := true,
        step := s.stepAt p c.2.1, bar := c.2.1, skeins := (s.skeins p).length, copied := now.map (·.1), prot := prot.map (·.1),
        held := ((if old.whole then old.held else []) ++ now.map (·.1)).eraseDups, shadowAllow := (s.part p).shadowAllow,
        hmode := s.fget .tierPHashHmode p, hseed := s.fget .tierPHashSeed p,
        shadowOff := 4096 + live + 69632 + graphBytes graphs, mwhole := old.mwhole && old.whole }
      let s1 := now.foldl (fun (t : State) g => t.setDirty g.2 (SMap.get 0 t.dirty (g.2 / 0x10000) &&& (3 - 2 ^ x))) s
      let s2 := (s1.setImage i fun _ => img).setPart p fun q => { q with ckptSeq := seq }
      { s2 with ckpts := s2.ckpts.map fun y => if y = c then (p, c.2.1, true) else y }
  | _, _ => s0

/-- CHECKPOINT_COPY. -/
def execCheckpointCopy (p : Fin 64) (s : State) : Res := .next (s.checkpointCopy p)

/-! ## Lanes in an image (R216) -/

/-- A lane as 32 bytes: s in bytes 0 to 15, T in bytes 16 to 23, zeros. -/
def Snapshot.laneBytes (n : Snapshot) (l : Nat) : List Byte :=
  toBytes 16 (SMap.get {} n.lanes l).s ++ toBytes 8 (SMap.get 0 n.regs (Fld.key .sknWhorlTick l)) ++ toBytes 8 0

/-- The lane with those bytes. -/
def Snapshot.setLane (n : Snapshot) (l : Nat) (b : List Byte) : Snapshot :=
  { n with lanes := SMap.set {} n.lanes l { SMap.get {} n.lanes l with s := fld b 0 16 },
           regs := SMap.set 0 n.regs (Fld.key .sknWhorlTick l) (fld b 16 8) }

/-- Bytes of cores before the skeins' parts in the live state of an image, whose parts lie in the order of R405 (DEDUCED). -/
def Image.coreBytes (m : Image) : Nat :=
  let n := m.snap
  let core (r : Nat) : Nat :=
    let c := SMap.get {} n.mcores r
    4096 * m.jobRec.liveCm + 16384 * ((List.range 4).filter fun b => (SMap.get {} c.banks b).st = 2).length +
      (match c.wait with | .tdf _ => 4096 | _ => 0)
  let card (r : Nat) : Nat :=
    4096 * m.jobRec.liveLm + 8192 * ((List.range 8).filter fun t => match (SMap.get {} n.threads (8 * r + t)).wait with
      | .flags .. => true
      | _ => false).length
  ((List.range (8 * m.skeins)).map core).sum + ((List.range (32 * m.skeins)).map card).sum

/-- First byte of the lanes of the skein of a rank, after the header and the skein's memory. -/
def Image.lanesAt (m : Image) (r : Nat) : Nat := 4096 + m.coreBytes + r * (4096 * m.jobRec.liveSm + 2048) + 4096 * m.jobRec.liveSm

/-- Bytes of an image up to its protected pages: the lanes as R216 has them, the rest in a form that the spec does not give. -/
def Image.fixed (m : Image) (len : Nat) : List Byte :=
  (List.range m.skeins).foldl (fun l r => patchAt l (m.lanesAt r) ((List.range 64).flatMap fun i => m.snap.laneBytes (64 * r + i)))
    ((List.range len).map (Config.imagePart m))

/-- The lanes that the bytes of an image hold. -/
def Image.withLanes (m : Image) (bytes : List Byte) : Image :=
  { m with snap := (List.range (64 * m.skeins)).foldl (fun n l => n.setLane l ((bytes.drop (m.lanesAt (l / 64) + 32 * (l % 64))).take 32)) m.snap }

/-! ## Mirror traffic out (R474, R477) -/

/-- The parts of an image other than its protected pages, up to the first page. -/
def Image.fixedBytes (m : Image) : Nat := m.shadowOff + 8192 + ceilDiv (ceilDiv m.prot.length 8) 4096 * 4096

/-- The frames that carry an image: its parts, then every granule that the copy map marks, or all of them to a partner that lacks some. -/
def State.imageReqs (s : State) (p i : Nat) : List FabReq :=
  let m := s.image i
  let base := s.imageAt i
  let parts := s.mirrorReqs (.mirror p) p i base (m.fixed m.fixedBytes)
  parts ++ m.prot.zipIdx.flatMap fun v =>
    if m.mwhole && !m.copied.contains v.1 then []
    else s.mirrorReqs (.mirror p) p i (base + m.fixedBytes + 0x10000 * v.2) (cellsGet m.pages v.1 0x10000)

/-- Mirroring of an image begins (R475, R477): the first of a job is preceded by HEARTBEAT with the area's size, and JOB. -/
def State.beginMirror (s : State) (p i : Nat) : State :=
  let q := s.part p
  if q.mirrorNow.isNone || s.ownDev.isNone then s
  else
    let head := if q.mirrorTold then [] else
      s.mirrorReqs (.mirror p) p i 0 (toBytes 8 s.time ++ toBytes 8 q.imageBytes) ++ s.mirrorReqs (.mirror p) p i 24 [1]
    let s1 := (s.setImage i fun m => { m with mstate := 1 }).setPart p fun q => { q with mirrorTold := true }
    s1.fabSubmit (head ++ s.imageReqs p i)

/-- CHECKPOINT_COMPLETE (R461 step 4, R463, R465): the image is complete, the release goes on, WRITEs held during the copy are applied, and
mirroring begins. -/
def State.checkpointComplete (s : State) (p : Nat) : State :=
  match s.ckpts.find? fun c => c.1 = p && c.2.2, s.activeJob p with
  | some c, some k =>
    let x := (s.part p).nextImage
    let i := 2 * p + x
    let rs := (List.range 16).flatMap fun r => (s.ring (16 * p + r)).reported.map fun n => (16 * p + r, n)
    let s1 := (s.setImage (2 * p + (1 - x)) fun m => { m with reps := rs }).setImage i fun m => { m with complete := true, stamp := s.stamp }
    let s2 := (List.range 16).foldl (fun (t : State) r => t.setRing (16 * p + r) fun q => { q with reported := [] }) s1.tick
    let s3 : State := { s2.setPart p fun q => { q with nextImage := 1 - x } with ckpts := s2.ckpts.filter fun y => y ≠ c }
    let s4 := s3.finishRelease p k c.2.1 true
    let s5 := (s4.fabPend.filter fun w => w.part = p && !s4.waitsFor (.fabric w.src w.tag)).foldl
      (fun (t : State) (w : FabPend) => t.resumeWrite w.src w.tag) s4
    s5.beginMirror p i
  | _, _ => s

/-- CHECKPOINT_COMPLETE. -/
def execCheckpointComplete (p : Fin 64) (s : State) : Res := .next (s.checkpointComplete p)

/-- The image that is being mirrored. -/
def State.sending (s : State) (p : Nat) : Option Nat := [2 * p, 2 * p + 1].find? fun i => (s.image i).mstate = 1

/-- MIRROR_COMMIT (R477): every frame of the image is applied; the checkpoint number commits it. -/
def State.mirrorCommit (s : State) (p : Nat) : State :=
  match s.sending p with
  | none => s
  | some i =>
    if s.fabOpen (.mirror p) || s.fabWorst (.mirror p) ≠ 0 then s
    else
      let s1 := (s.fabDrop (.mirror p)).setImage i fun m => { m with mstate := 2, mwhole := true }
      s1.fabSubmit (s1.mirrorReqs (.mirror p) p i (16 + 4 * (i % 2)) (toBytes 4 (s1.image i).num))

/-- MIRROR_COMMIT. -/
def execMirrorCommit (p : Fin 64) (s : State) : Res := .next (s.mirrorCommit p)

/-- A request is mirror traffic of the partition. -/
def FabOwner.mirrors (p : Nat) : FabOwner → Bool
  | .mirror q => q = p
  | .mirrorLog g _ => g / 16 = p
  | .mirrorBit q _ => q = p
  | _ => false

/-- MIRROR_FAIL (R478): mirror traffic was refused, faulted or ended unreachable. -/
def State.mirrorFail (s : State) (p : Nat) : State :=
  let bad := s.fabReqs.filter fun r => r.owner.mirrors p && r.answer.any (· ≥ 2)
  match bad with
  | [] => s
  | r :: _ =>
    -- the region was not made when the frame with its size was not applied
    let told := !(bad.any fun x => x.addr = 0 && x.payload.length = 16)
    let s1 : State := { s with fabReqs := s.fabReqs.filter fun x => !x.owner.mirrors p }
    let i := (s1.sending p).getD ((s1.newestImage p).getD (2 * p))
    let s2 := (s1.setImage i fun m => { m with mstate := 3, mwhole := false }).setPart p fun q => { q with mirrorTold := q.mirrorTold && told }
    let u := unitWord 0xA r.dst
    (s2.logFault { cls := 0xB, part := p, unit := u }).hardFault (some p) u 0xB

/-- MIRROR_FAIL. -/
def execMirrorFail (p : Fin 64) (s : State) : Res := .next (s.mirrorFail p)

/-- A's last write to the region: JOB = 0 (R476). -/
def State.endMirror (s : State) (p : Nat) : State :=
  if (s.part p).mirrorTold then
    (s.setPart p fun q => { q with mirrorTold := false }).fabSubmit (s.mirrorReqs (.mirror p) p (2 * p) 24 [0])
  else s

/-- MIRROR_HEARTBEAT (R475, R476): HEARTBEAT while the job runs, JOB = 0 once after it. -/
def State.mirrorHeartbeat (s : State) (p : Nat) : State :=
  if !(s.part p).mirrorTold then s
  else if s.jobOpen p then s.fabSubmit (s.mirrorReqs (.mirror p) p ((s.newestImage p).getD (2 * p)) 0 (toBytes 8 s.time))
  else s.endMirror p

/-- MIRROR_HEARTBEAT. -/
def execMirrorHeartbeat (p : Fin 64) (s : State) : Res := .next (s.mirrorHeartbeat p)

/-! ## Mirror regions held here (R475, R476) -/

def State.mirror (s : State) (p : Nat) : Mirror := SMap.get {} s.mirrors p
def State.setMirror (s : State) (p : Nat) (f : Mirror → Mirror) : State := { s with mirrors := SMap.set {} s.mirrors p (f (s.mirror p)) }

/-- Free the region that a partition holds for its partner. -/
def State.freeMirror (s : State) (p : Nat) : State :=
  let m := s.mirror p
  if m.used then ((s.freePlace m.placement).uncharge p 1 m.size).setMirror p fun _ => {} else s

/-- Allocate the region for an area of this size, with nothing committed; where there is no room there is no region. -/
def State.allocMirror (s : State) (p area : Nat) : State :=
  let t := s.freeMirror p
  let n := area + 64
  if !t.withinQuota p 1 n then t
  else match t.allocT1 p n with
    | (_, .inr _) => t
    | (t1, .inl i) =>
      let base := (t1.place i).base
      ((((t1.charge p 1 n).zeroCopy 1 base n).stNat base 8 0).stNat (base + 16) 8 (2 ^ 64 - 1)).setMirror p fun _ =>
        { used := true, placement := i, base := base, size := n, last := t1.time }

/-- A MIRROR frame of the partner (R462, R475, R476): the status of R431. A frame beyond the region is refused, one of an older CGEN is
answered STALE (DEDUCED). -/
def State.mirrorFrame (s : State) (src spart p addr num : Nat) (data : List Byte) : State × Nat :=
  let q := s.part p
  if !s.formed p || !q.mirrorNamed || q.mirrorShut || q.mirrorDev ≠ src || q.mirrorPart ≠ spart then (s.fadd .flkQRefused p 1, 2)
  else
    let s1 := if addr ≤ 8 && 16 ≤ addr + data.length then s.allocMirror p (fld data (8 - addr) 8) else s
    let m := s1.mirror p
    if !m.used || addr + data.length > m.size then (s1.fadd .flkQRefused p 1, 2)
    else
      let gen := num / 2 ^ 24 % 256
      let old := match m.cgen with | some c => decide ((gen + 256 - c) % 256 ≥ 128) | none => false
      if old then (s1.stNat (m.base + 32) 8 (s1.ldNat (m.base + 32) 8 + 1), 1)
      else
        let s2 := (s1.st (m.base + addr) data).setMirror p fun m => { m with last := s1.time, lost := false, cgen := some gen }
        let s3 := s2.fadd .flkQRxbytes p data.length
        (if addr ≤ 24 && 24 < addr + data.length && byteAt data (24 - addr) = 0 then s3.freeMirror p else s3, 0)

/-- MIRROR. -/
def execMirror (p : Fin 8) (f : Frame) (s : State) : Res :=
  .next (s.rxRequest p 3 f fun u x =>
    let h := x.header
    let r := u.mirrorFrame (hdrSrc h) (byteAt h 9) (byteAt h 8) (bigFld h 20 6) (bigFld h 28 4) x.payload
    (r.1, some r.2))

/-- PEER_LOST (R479): no frame has come for 5 s while JOB is 1; it is said once. -/
def State.peerLost (s : State) (p : Nat) : State :=
  let m := s.mirror p
  if !m.used || m.lost || s.ldNat (m.base + 24) 1 ≠ 1 then s
  else
    let u := unitWord 0xA (s.part p).mirrorDev
    ((s.setMirror p fun m => { m with lost := true }).logFault { cls := 8, part := p, unit := u }).hardFault (some p) u 8

/-- PEER_LOST. -/
def execPeerLost (p : Fin 64) (s : State) : Res := .next (s.peerLost p)

/-! ## Commands -/

/-- MIRROR_SET (R474, R476). -/
def cmdMirrorSet (s : State) (m : Nat) (r : MbxReq) : State × Ans :=
  let d := r.data
  let p := byteAt d 5
  let side (q : Partition) : List Byte := toBytes 1 q.mirrorOn ++ [0] ++ toBytes 2 q.mirrorDev ++ toBytes 1 q.mirrorPart
  let old := s.part p
  let other := old.mirrorDev ≠ fld d 18 2 || old.mirrorPart ≠ byteAt d 20
  let s1 := if other then s.freeMirror p else s
  let s2 := s1.setPart p fun q =>
    { q with mirrorOn := byteAt d 16, mirrorDev := fld d 18 2, mirrorPart := byteAt d 20, mirrorNamed := true, mirrorShut := false }
  (s2.logCmd m r 9 (side old) (side (s2.part p)), .logged [])

/-- MIRROR_SET. -/
def execMirrorSet (m : Mbx) (s : State) : Res := .next (s.runCommand m 0x902 cmdMirrorSet)

/-- CKPT_QUERY (R462). -/
def cmdCkptQuery (s : State) (_m : Nat) (r : MbxReq) : State × Ans :=
  match s.newestImage (byteAt r.data 5) with
  | none => (s, .now 5 [])
  | some i =>
    let m := s.image i
    (s, .now 0 (toBytes 8 m.num ++ toBytes 8 m.step ++ [if m.mstate = 2 then 1 else 0]))

/-- CKPT_QUERY. -/
def execCkptQuery (m : Mbx) (s : State) : Res := .next (s.runCommand m 0x903 cmdCkptQuery)

/-- Entries of a log (newest first) from an index upward are written at the address a request names (R456). -/
def State.readEntries (s : State) (m : Nat) (r : MbxReq) (l : List (List Byte)) (upto : Nat) : State × Ans :=
  let d := r.data
  let es := (l.reverse.filter fun e => fld d 16 8 ≤ fld e 0 8).take (fld d 30 2)
  let bytes := es.flatten
  let next := match es.getLast? with | some e => fld e 0 8 + 1 | none => max (fld d 16 8) upto
  match s.cmdProbe m (byteAt d 5) (fld d 24 6) bytes.length with
  | (s1, some a) => (s1, a)
  | (s1, none) =>
    (s1.vstoreGo (byteAt d 5) (fld d 24 6) bytes (bytes.length / 4096 + 2), .now 0 (toBytes 8 next ++ toBytes 2 es.length))

/-- FAULT_READ (R456): a partition mailbox receives the entries of its own partition. -/
def cmdFaultRead (s : State) (m : Nat) (r : MbxReq) : State × Ans :=
  s.readEntries m r (if m < 64 then s.faultLog.filter fun e => byteAt e 17 = m else s.faultLog) s.faultNext

/-- FAULT_READ. -/
def execFaultRead (m : Mbx) (s : State) : Res := .next (s.runCommand m 0x901 cmdFaultRead)

/-- LOST_READ (R290). -/
def cmdLostRead (s : State) (m : Nat) (r : MbxReq) : State × Ans := s.readEntries m r s.lostLog s.lostNext

/-- LOST_READ. -/
def execLostRead (m : Mbx) (s : State) : Res := .next (s.runCommand m 0x905 cmdLostRead)

end Sys2Proof.Machine
end

