-- ==== Sys2Proof/Machine/Recover.lean ====
section
/-! DEFINITION. Faults of skeins, T1 and T2 (R468 to R472), recovery in its steps (R464 to R467), CKPT_RESTORE and takeover (R480), and
forming and dissolving partitions with their mirrors (R384, R476). -/

namespace Sys2Proof.Machine

/-! ## Starting a recovery -/

/-- A fault of a partition starts its recovery, or starts the running one again at step 1 with both faults (R464, R466). A write of an
image that it interrupts leaves that image invalid (R461). -/
def State.startRecovery (s : State) (r : Recovery) : State :=
  let p := r.part
  let i := 2 * p + (s.part p).nextImage
  let s1 := if s.ckpts.any fun c => c.1 = p && c.2.2 then s.setImage i fun m => { m with complete := false, whole := false } else s
  match s1.recoveries.find? fun (x : Recovery) => x.part = p with
  | none => { s1 with recoveries := s1.recoveries ++ [{ r with time := s.time }] }
  | some o =>
    let both : Recovery := { o with phase := 0, cls := if o.cls = 0 then r.cls else o.cls, unit := if o.cls = 0 then r.unit else o.unit,
                                    skeins := (o.skeins ++ r.skeins).eraseDups, all := o.all || r.all, image := none }
    { s1 with recoveries := s1.recoveries.map fun (x : Recovery) => if x.part = p then both else x }

/-- The spare of a quadrant is at hand (R23). -/
def State.spareFree (s : State) (q : Nat) : Bool := !s.spareUsed.testBit q

/-- Physical position of the spare: the one of the quadrant that no logical skein has. -/
def State.sparePos (s : State) (q : Nat) : Nat :=
  let taken := (List.range' (16 * q) 16).map fun k => SMap.get 0 s.phys k / 4
  ((List.range 17).find? fun i => !taken.contains i).getD 16

/-- The spare takes a failed logical number (R469). -/
def State.takeSpare (s : State) (k : Nat) : State :=
  let q := k / 16
  { s with spareUsed := s.spareUsed ||| 2 ^ q, phys := SMap.set 0 s.phys k (q + 4 * s.sparePos q) }.resetSkein k

/-- The lowest logical skein that belongs to no partition and may serve (R469). -/
def State.freeSkein (s : State) (not' : List Nat) : Option Nat :=
  (List.range 64).find? fun k => (s.holder k).isNone && !s.outSkeins.testBit k && !s.testSkeins.testBit k && !not'.contains k && s.quadRuns (k / 16)

/-- Whether every failed skein has a replacement (R469, R467). -/
def State.replaceable (s : State) (failed : List Nat) : Bool :=
  (failed.foldl (fun (a : List Nat × List Nat × Bool) k =>
    if s.spareFree (k / 16) && !a.1.contains (k / 16) then (k / 16 :: a.1, a.2.1, a.2.2)
    else match s.freeSkein (failed ++ a.2.1) with
      | some j => (a.1, j :: a.2.1, a.2.2)
      | none => (a.1, a.2.1, false)) ([], [], true)).2.2

/-- Replace a failed skein of a partition (R469): the state, and ACTION of R456: 1 spared, 2 moved. -/
def State.replaceSkein (s : State) (p k : Nat) (failed : List Nat) : State × Nat :=
  if s.spareFree (k / 16) then ((s.takeSpare k).showPartition p, 1)
  else match s.freeSkein failed with
    | none => (s, 9)
    | some j =>
      let order := (s.skeins p).map fun x => if x = k then j else x
      let s1 : State := { s.releaseSkeins (2 ^ k) with outSkeins := s.outSkeins ||| 2 ^ k }
      (((s1.resetSkein j).setPart p fun q => { q with mask := (q.mask - (q.mask &&& 2 ^ k)) ||| 2 ^ j, order := order }).showPartition p, 2)

/-- A fault of a skein that belongs to no partition: it is replaced, or leaves service, at once (R23, R469). -/
def State.freeSkeinFault (s : State) (k unit : Nat) : State :=
  if s.outSkeins.testBit k then s
  else
    let phys := SMap.get 0 s.phys k
    let s1 : State := if s.spareFree (k / 16) then s.takeSpare k else { s with outSkeins := s.outSkeins ||| 2 ^ k }
    (s1.logFault { cls := 1, action := if s.spareFree (k / 16) then 1 else 3, unit := unit, phys := phys }).hardFault none unit 1

/-- A SKEIN fault (R455, R468): the owning partition is told and its recovery starts. -/
def State.skeinFault (s : State) (k unit : Nat) : State :=
  match s.holder k with
  | none => s.freeSkeinFault k unit
  | some p => (s.hardFault (some p) unit 1).startRecovery { part := p, cls := 1, unit := unit, skeins := [k], phys := SMap.get 0 s.phys k }

/-- The task that reads an uncorrectable word of core, local or skein memory ends with fault ECC (R69, R98, R205). -/
def State.eccReader (s : State) : Reader → State
  | .core c => if s.coreLive c then s.stopMatrix c 8 (s.fget .mcrPc c) else s
  | .thread t => if (s.ctask t.num).active then s.stopThread t.num 5 else s
  | .stream .. | .ftl | .other => s

/-- SKEIN_FAULT. -/
def execSkeinFault (u : SkeinUnit) (s : State) : Res :=
  .next (match u with
    | .skein k => s.skeinFault k (unitWord 1 k)
    | .matrixCore c => s.skeinFault (c.val / 8) (unitWord 2 c)
    | .cardingCore n => s.skeinFault (n.val / 32) (unitWord 3 n)
    | .coreMemory c rd => (s.eccReader rd).skeinFault (c.val / 8) (unitWord 2 c)
    | .localMemory n rd => (s.eccReader rd).skeinFault (n.val / 32) (unitWord 3 n)
    | .skeinMemory k rd => (s.eccReader rd).skeinFault k (unitWord 1 k))

/-- SKEIN_PROBE (R455): every skein in service whose quadrant runs is probed; those that answer leave nothing outstanding. -/
def execSkeinProbe (s : State) : Res :=
  .next { s with probes := (List.range 64).foldl (fun a k => if s.quadRuns (k / 16) && !s.outSkeins.testBit k then a ||| 2 ^ k else a) 0 }

/-- SKEIN_PROBE_TIMEOUT. -/
def execSkeinProbeTimeout (k : Fin 64) (s : State) : Res :=
  .next (if s.probes.testBit k then { s with probes := s.probes - 2 ^ k.val }.skeinFault k (unitWord 1 k) else s)

/-! ## The steps of R464 -/

def State.recovery (s : State) (p : Nat) : Option Recovery := s.recoveries.find? fun x => x.part = p
def State.setRecovery (s : State) (p : Nat) (f : Recovery → Recovery) : State :=
  { s with recoveries := s.recoveries.map fun (x : Recovery) => if x.part = p then f x else x }
def State.endRecovery (s : State) (p : Nat) : State :=
  { s with recoveries := s.recoveries.filter fun (x : Recovery) => x.part ≠ p }

/-- The image to restore (R464 step 3): the one asked for, else the newest complete image of the active job that reads without an
uncorrectable error, else the other one; not one recovered from twice already (R467). -/
def State.imageFor (s : State) (r : Recovery) : Option Nat :=
  let ok (i : Nat) : Bool := let m := s.image i; m.complete && !m.bad && s.activeJob r.part = some m.job && decide (m.uses < 2)
  match r.image with
  | some i => if ok i then some i else none
  | none =>
    match s.newestImage r.part with
    | none => none
    | some i =>
      let other := 2 * r.part + (1 - i % 2)
      if (s.image i).complete && !(s.image i).bad && s.activeJob r.part = some (s.image i).job then (if ok i then some i else none)
      else if ok other then some other else none

/-- The command that a recovery serves is answered. -/
def State.answerRestore (s : State) (r : Recovery) (st : Nat) (logged : Bool) : State :=
  match r.request with
  | none => s
  | some (m, stamp) =>
    match (s.mbx m).reqs.find? fun x => x.stamp = stamp && x.phase = 1 with
    | some x => s.endL m x st [] logged
    | none => s

/-- Recovery cannot proceed (R467): HWFAULT. Skeins that have a replacement still get it; the others leave the partition's service. -/
def State.recoveryHwfault (s : State) (r : Recovery) : State :=
  let p := r.part
  let s1 := r.skeins.foldl (fun (t : State) k =>
    let q := t.replaceSkein p k r.skeins
    if q.2 ≠ 9 then q.1
    else
      let u : State := { t.releaseSkeins (2 ^ k) with outSkeins := t.outSkeins ||| 2 ^ k }
      u.setPart p fun x => { x with mask := x.mask - (x.mask &&& 2 ^ k), order := (t.skeins p).filter (· ≠ k) }) ((s.endRecovery p).endPartJobs p 0x11)
  (s1.logFault { cls := r.cls, part := p, action := 9, unit := r.unit, phys := r.phys, detail := r.detail }).answerRestore r 5 false |>.takeGuilts

/-- RECOVERY_STOPPED (R464 step 1, R467): the partition's work has stopped; where no recovery is possible, its job ends. -/
def State.recoveryStopped (s : State) (p : Nat) : State :=
  match s.recovery p with
  | none => s
  | some r =>
    if r.phase ≠ 0 || !s.millUp then s
    else
      let s1 := s.stopWork p
      if (s.activeJob p).isSome && (!s.replaceable r.skeins || (s.imageFor r).isNone) then s1.recoveryHwfault r
      else if !s.replaceable r.skeins then s1.recoveryHwfault r
      else s1.setRecovery p fun x => { x with phase := 1 }

/-- RECOVERY_STOPPED. -/
def execRecoveryStopped (p : Fin 64) (s : State) : Res := .next (s.recoveryStopped p)

/-- RECOVERY_REPLACEMENT_DONE (R464 steps 2 and 3, R469): the failed skeins are replaced, the translations held for the partition are
dropped, and the image is chosen. A partition without an active job has nothing to restore, and its recovery ends here. -/
def State.recoveryReplaced (s : State) (p : Nat) : State :=
  match s.recovery p with
  | none => s
  | some r =>
    if r.phase ≠ 1 || !s.millUp then s
    else if !s.replaceable r.skeins then s.recoveryHwfault r
    else
      let rep := r.skeins.foldl (fun (a : State × Nat) k => a.1.replaceSkein p k r.skeins) (s, r.action)
      let act := if r.skeins.isEmpty then (if r.cls = 3 then 6 else 4) else rep.2
      let s1 := rep.1
      if (s1.activeJob p).isNone then
        let t := (s1.endRecovery p).takeGuilts
        t.logFault { cls := r.cls, part := p, action := act, unit := r.unit, phys := r.phys, detail := r.detail }
      else match s1.imageFor r with
        | none => s1.recoveryHwfault { r with skeins := [] }
        | some i =>
          let s2 : State := { s1 with atc := s1.atc.filter fun e => e.1 ≠ p + 1 }
          s2.setRecovery p fun x => { x with phase := 2, image := some i, action := act, skeins := [] }

/-- RECOVERY_REPLACEMENT_DONE. -/
def execRecoveryReplacementDone (p : Fin 64) (s : State) : Res := .next (s.recoveryReplaced p)

/-- Logged records of a ring since an image, in order (R465): those of the image's own log, then of the newer image's. -/
def State.logSince (s : State) (i g : Nat) : List (Nat × List Byte) :=
  let m := s.image i
  let o := s.image (i / 2 * 2 + (1 - i % 2))
  let later := if o.complete && o.stamp > m.stamp then o.log else []
  ((m.log ++ later).filter fun e => e.1 = g).map (·.2)

/-- A ring restarts at RESUME (R465). A ring that the host has disabled, or that has been reset, since the image keeps its state. -/
def State.restoreRing (s : State) (g : Nat) (x : RingImage) (log : List (Nat × List Byte)) (reported : List Nat) : State :=
  let st := s.fget .ringState g
  if st ≠ 1 && st ≠ 2 then s
  else
    let gen := s.fget .ringStateGen g
    let recs := x.recs.map fun r =>
      { r with gen := gen, replay := true, reported := reported.contains r.idx,
               started := r.outcome.isSome || (r.started && (byteAt r.data 0 = 1 && s.graphs.any fun (y : Graph) => y.ring = g && y.idx = r.idx)) }
    let next : Nat := match log.getLast? with
      | some e => (e.1 + 1) % 2 ^ 32
      | none => (x.resume + x.recs.length + x.done.length) % 2 ^ 32
    let s1 := s.setRing g fun q => { q with recs := recs, replay := log, reported := reported, tail := next }
    ((s1.fset .ringHead g next).fset .ringStateWaiting g 0).syncRing g

/-- The restore proper (R464 step 4, R465), shared by recovery and takeover: T0, graphs, rings, the job, its decisions; then the barrier
that was releasing goes on from step 2 of R274. -/
def State.restoreImage (s : State) (p k : Nat) (m : Image) (logs : Nat → List (Nat × List Byte)) (reported : Nat → List Nat)
    (decided : List (List (Nat × Bool))) : State :=
  let graphs := m.graphs.map fun (x : Graph) => { x with gen := s.fget .ringStateGen x.ring }
  let s1 : State := { s with graphs := (s.graphs.filter fun (x : Graph) => x.ring / 16 ≠ p) ++ graphs,
                             switching := s.switching.filter fun x => x.1 ≠ p, boundaries := s.boundaries.filter fun x => x.1 ≠ p,
                             ckpts := s.ckpts.filter fun x => x.1 ≠ p, late := s.late.filter fun x => x.1 ≠ p,
                             saves := SMap.set ({} : Snapshot) s.saves k {} }
  let s2 := (s1.setJob k fun _ => { m.jobRec with replay := [], replayNext := decided, saved := false }).restore p m.jobRec.liveAll m.snap
  -- units that were replaced show the job's SUBN (R59, R399)
  let s3 := ((s2.reloadPrograms p).applySubn p m.jobRec.subn).setPart p fun q =>
    { q with cgen := (q.cgen + 1) % 256, ckptSeq := m.num % 2 ^ 24, nextImage := q.nextImage }
  let s4 := m.rings.zipIdx.foldl (fun (t : State) x => t.restoreRing (16 * p + x.2) x.1 (logs (16 * p + x.2)) (reported (16 * p + x.2))) s3
  let s5 := ((s4.fset .ringActiveSwitching p 0).setActive p (some k)).fset .strmPModeReplay p 1
  -- encode sessions start again with a key frame (R483, R336)
  let s6 := s5.vsess.foldl (fun (t : State) (e : Nat × VSess) => if e.2.isOpen && e.2.part = p then t.setVs e.1 fun v => { v with fresh := true } else t) s5
  s6.finishRelease p k m.bar true

/-- The granules copied back (R464 step 4): those with D_X set, or every one; then D_Y takes D_X and D_X clears. -/
def State.restorePages (s : State) (p i : Nat) (all : Bool) : State :=
  let x := i % 2
  let m := s.image i
  (s.protGranules p).foldl (fun (t : State) g =>
    if (all || t.dirtyBit g.2 x) && m.held.contains g.1 then
      { t with mem := cellsCopy m.pages t.mem g.1 0x10000 g.2 }.setDirty g.2 (2 ^ (1 - x))
    else t) s

/-- RECOVERY_RESTORE_DONE (R464 steps 4 and 5): `micros` is the recovery time. -/
def State.recoveryRestored (s : State) (p micros : Nat) : State :=
  match s.recovery p with
  | none => s
  | some r =>
    match r.phase, r.image, s.activeJob p with
    | 2, some i, some k =>
      if !s.millUp then s
      else
        let m := s.image i
        let o := s.image (2 * p + (1 - i % 2))
        let newer := o.complete && o.stamp > m.stamp
        let old := (s.newestImage p).map fun n => (s.image n).num
        let decided := (if newer then [o.jobRec.shadow] else []) ++ [(s.job k).shadow]
        let reps (g : Nat) : List Nat := (if newer then (m.reps.filter fun e => e.1 = g).map Prod.snd else []) ++ (s.ring g).reported
        let s1 := (s.restorePages p i r.all).endRecovery p
        let s2 := s1.setImage i fun x => { x with uses := x.uses + 1 }
        -- a newer image that was passed over is written whole next time
        let s3 := if newer then s2.setImage (2 * p + (1 - i % 2)) fun x => { x with complete := false, whole := false } else s2
        let s4 := (s3.restoreImage p k m (fun g => s.logSince i g) reps decided).setPart p fun q => { q with nextImage := 1 - i % 2 }
        let s5 := s4.partEvent p 0x984 (toBytes 8 m.num ++ toBytes 4 micros)
        let s6 := if r.cls = 0 then s5 else s5.logFault { cls := r.cls, part := p, action := r.action, unit := r.unit, ckpt := m.num, phys := r.phys,
                                                          rtime := micros, detail := r.detail }
        let s7 := match r.request with
          | some (mb, stamp) =>
            match (s6.mbx mb).reqs.find? fun (x : MbxReq) => x.stamp = stamp && x.phase = 1 with
            | some x => (s6.logCmd mb x 9 (toBytes 8 (old.getD 0)) (toBytes 8 m.num)).endL mb x 0 [] true
            | none => s6
          | none => s6
        s7.takeGuilts
    | _, _, _ => s

/-- RECOVERY_RESTORE_DONE. -/
def execRecoveryRestoreDone (p : Fin 64) (micros : Nat) (s : State) : Res := .next (s.recoveryRestored p micros)

/-! ## Memory errors (R470 to R472) -/

/-- The reader of a failed sector as one who waits for it, with its partition. -/
def State.readerOf (s : State) : Reader → Option (Requester × Nat)
  | .core c => some (.matrix c, s.corePart c)
  | .thread t => some (.carding t.num, s.threadPart t.num)
  | .stream e c => some (.stream (136 * e.val + c.val), (s.ctx (136 * e.val + c.val)).part)
  | .ftl | .other => none

/-- The read is held while the granule is refilled (R470, R472); a reader that holds nothing gets it refilled at once. -/
def State.holdForRefill (s : State) (rd : Reader) (dpa : Nat) : State :=
  match s.readerOf rd with
  | none => s.refill dpa
  | some (req, p) =>
    let s1 := s.enterWait ⟨req, p, 0, false, .refill dpa⟩
    match req with
    | .matrix c =>
      s1.setMcore c fun m => { m with running := m.running.map fun (r : Started) =>
        if (r.reads.any fun x => x.1 ≤ dpa && dpa < x.1 + x.2) then { r with paused := true } else r }
    | .carding t => if (s1.ctask t).active && (s1.thread t).wait = .none then s1.setThread t fun x => { x with wait := .translation } else s1
    | _ => s1

/-- The reader ends FAULT (R470), a stream with this status (R472). -/
def State.readerFaults (s : State) (rd : Reader) (status : Nat) : State :=
  match s.readerOf rd with
  | some (.matrix c, _) => if s.coreLive c then s.stopMatrix c 7 (s.fget .mcrPc c) else s
  | some (.carding t, _) => if (s.ctask t).active then s.draw.faultThread t 3 (Config.putFaultVa s.fresh) else s
  | some (.stream x, _) => if (s.ctx x).busy && (s.ctx x).ended.isNone then s.stopDesc x status else s
  | _ => s

/-- The placement that holds a DPA, with its number + 1. -/
def State.placeAt (s : State) (dpa : Nat) : Option (Nat × Placement) :=
  (s.placements.find? fun e => e.2.used && e.2.base ≤ dpa && dpa < e.2.base + e.2.size).map fun e => (e.1 + 1, e.2)

/-- The T1 channel of a DPA; the system region is hashed over every live channel with a seed of 0 (DESIGN CHOICE). -/
def State.channelAt (s : State) (dpa : Nat) : Nat :=
  match s.placeAt dpa with
  | some (_, q) => q.channel dpa
  | none => ({ used := true, size := s.sysSize, chset := s.liveChannels.foldl (fun a c => a ||| 2 ^ c) 0 } : Placement).channel dpa

/-- Object whose copy holds a DPA: its handle, else 0. -/
def State.handleAt (s : State) (dpa : Nat) : Nat :=
  match s.objs.find? fun e => e.2.copies.any fun c => c.tier ≠ 3 && c.base ≤ dpa && dpa < c.base + charged e.2.bytes with
  | some e => s.handle e.1
  | none => 0

/-- The mill maps a channel out (R242, R390, R455): it is told and logged. -/
def State.millMapOut (s : State) (ch cause : Nat) : State :=
  if s.fget .tierChLive ch = 0 then s
  else
    let side (t : State) (c : Nat) : List Byte := toBytes 2 (t.fget .tierCapLive 0) ++ toBytes 1 ch ++ toBytes 1 c
    let q := s.mapOut ch cause
    ((q.1.devEvent 0x985 (toBytes 1 ch ++ toBytes 1 cause)).logFault { cls := 3, action := 6, unit := unitWord 4 ch, detail := ch }).logMill
      0xFF 0x10 (side s 0) (side q.1 cause ++ toBytes 4 q.2)

/-- A channel is mapped out for errors (R242, R471): placements move, the loss is told, images on it are unreadable, and every partition
re-placed that has a job is recovered. -/
def State.loseChannel (s : State) (ch : Nat) : State :=
  if s.fget .tierChLive ch = 0 then s
  else
    let hit := s.formedParts.filter fun p => s.usedPlacements.any fun q => q.part = p && q.chset.testBit ch
    let lost := s.formedParts.flatMap fun p =>
      [0, 1].filterMap fun x =>
        let n := if x = 0 then (s.part p).image0 else (s.part p).image1
        if n ≠ 0 && (s.place n).chset.testBit ch then some (2 * p + x) else none
    let s1 := s.millMapOut ch 1
    let s2 := lost.foldl (fun (t : State) i => if (t.image i).complete then t.setImage i fun m => { m with bad := true, whole := false } else t) s1
    let u := unitWord 4 ch
    let s3 := s2.endUnplaced
    hit.foldl (fun (t : State) p => if (t.activeJob p).isSome then t.startRecovery { part := p, cls := 3, unit := u, all := true, detail := ch } else t) s3

/-- Ticks of 24 h (R471). -/
def ticksDay : Nat := 86400 * tickSec

/-- An uncorrectable sector is counted for its channel (R471): whether it is the fourth within 24 h. -/
def State.countUe (s : State) (ch : Nat) : State × Bool :=
  let l := (ch, s.time) :: s.ueTimes.filter fun e => s.time < e.2 + ticksDay
  ({ s with ueTimes := l }, decide ((l.filter fun e => e.1 = ch).length ≥ 4))

/-- Partitions with a protected page or a save area at a DPA (R460, R470). -/
def State.holdersAt (s : State) (dpa : Nat) : List Nat :=
  let g := dpa / 0x10000
  s.formedParts.filter fun p => ((s.protGranules p).any fun x => x.2 / 0x10000 = g) ||
    (match s.placeAt dpa with
     | some (n, _) => (List.range 16).any fun r => (s.job (16 * p + r)).isOpen && (s.job (16 * p + r)).save = n
     | none => false)

/-- An uncorrectable T1 sector: the first row of R470 that applies. -/
def State.t1UeRow (s : State) (dpa : Nat) (rd : Reader) (u : Nat) : State :=
  if dpa < s.sysSize then s
  else
    let img : Option Nat := match s.placeAt dpa with
      | some (n, _) => (s.formedParts.flatMap fun p => [2 * p, 2 * p + 1]).find? fun i =>
          (if i % 2 = 0 then (s.part (i / 2)).image0 else (s.part (i / 2)).image1) = n
      | none => none
    match img with
    | some i => (s.setImage i fun m => { m with bad := m.complete, whole := false }).logFault { cls := 2, part := i / 2, unit := u, detail := dpa }
    | none =>
      if (s.refillFrom dpa).isSome then (s.holdForRefill rd dpa).logFault { cls := 2, action := 5, unit := u, detail := dpa }
      else match s.holdersAt dpa with
        | [] => ((s.readerFaults rd 2).logFault { cls := 2, unit := u, detail := s.handleAt dpa }).hardFault none u 2
        | l => l.foldl (fun (t : State) p =>
            ((t.hardFault (some p) u 2).setDirty (dpa / 0x10000 * 0x10000) 3).startRecovery { part := p, cls := 2, unit := u, detail := dpa }) s

/-- T1_UE (R470, R471): the sector is handled, and the fourth of its channel within 24 h maps the channel out. -/
def execT1Ue (dpa : BitVec 52) (rd : Reader) (s : State) : Res :=
  .next (if dpa.toNat ≥ s.t1Backed then s
    else
      let ch := s.channelAt dpa.toNat
      let r := (s.t1UeRow dpa.toNat rd (unitWord 4 ch)).countUe ch
      if r.2 then r.1.loseChannel ch else r.1)

/-- COMMAND_ADDRESS_PARITY_ERROR (R471). -/
def execCommandAddressParityError (ch : Fin 256) (s : State) : Res := .next (s.loseChannel ch)

/-- T2_UE (R472): refilled, rebuilt for the FTL, or MEDIA. -/
def execT2Ue (dpa : BitVec 52) (rd : Reader) (s : State) : Res :=
  .next (
    let a := dpa.toNat
    let u := unitWord 5 (t2Package a)
    if a < t2Base || a ≥ t2Base + t2Size then s
    else if a ≥ ftlReserve then s.logFault { cls := 4, action := 5, unit := u, detail := a }
    else if (s.refillFrom a).isSome then (s.holdForRefill rd a).logFault { cls := 4, action := 5, unit := u, detail := a }
    else (s.readerFaults rd 6).logFault { cls := 4, unit := u, detail := a })

/-! ## CKPT_RESTORE (R480) -/

/-- The image of this module that a number names. -/
def State.ownImage (s : State) (p n : Nat) : Option Nat := [2 * p, 2 * p + 1].find? fun i => (s.image i).complete && !(s.image i).bad && (s.image i).num = n

/-- The parity under which a number is committed in the mirror region (R475). -/
def State.regionImage (s : State) (p n : Nat) : Option Nat :=
  let m := s.mirror p
  if m.used && n < 2 ^ 32 - 1 then [0, 1].find? fun x => s.ldNat (m.base + 16 + 4 * x) 4 = n else none

/-- The image that the region holds. -/
def State.takenImage (s : State) (p x : Nat) : Image :=
  let b := s.ld (s.mirror p).base (s.mirror p).size
  let i := (Config.imageOf x b).withLanes (b.drop (64 + x * ((b.length - 64) / 2)))
  { i with pages := cellsCanon i.pages, snap := { i.snap with mem := cellsCanon i.snap.mem } }

/-- A takeover may run (R480): the skein count of the image, rings DISABLED and configured. -/
def State.takeoverFits (s : State) (p : Nat) (m : Image) : Bool :=
  m.skeins = (s.skeins p).length && (List.range 16).all fun r =>
    s.fget .ringState (16 * p + r) = 0 && ((m.rings.getD r {}).state = 0 || s.fget .ringBase (16 * p + r) ≠ 0)

/-- The checks of CKPT_RESTORE; a restore of an own image starts the recovery that ends the command. -/
def cmdCkptRestore (s : State) (m : Nat) (r : MbxReq) : State × Ans :=
  let p := byteAt r.data 5
  let n := fld r.data 16 8
  match s.ownImage p n, s.regionImage p n with
  | some i, _ =>
    if s.recovering p then (s, .later)
    else if s.activeJob p ≠ some (s.image i).job then (s, .now 5 [])
    else (s.startRecovery { part := p, image := some i, request := some (m, r.stamp) }, .running [])
  | none, some x =>
    if s.jobOpen p then (s, .now 0x13 [])
    else if s.takeoverFits p (s.takenImage p x) then (s, .running []) else (s, .now 5 [])
  | none, none => (s, .now 5 [])

/-- Map the pages of a taken image at their addresses, as one DATA object (R480): the state, or a refusing status. -/
def State.mapTaken (s : State) (p : Nat) (m : Image) : State × Option Nat :=
  let n := 0x10000 * m.prot.length
  let i := s.freeIndex
  if m.prot.isEmpty then (s, none)
  else if !s.withinQuota p 1 n then (s, some 7)
  else match s.allocCopy p 1 n with
    | (_, .inr e) => (s, some e)
    | (s1, .inl (base, pl)) =>
      let c : Copy := { id := 0, tier := 1, version := 0, base := base, placement := pl }
      let o := s.obj i
      let gen := if o.used then (o.gen + 1) % 256 else 0
      let s2 := (s1.zeroCopy 1 base n).setObj i fun _ =>
        { used := true, gen := gen, kind := 4, bytes := n, creator := p, copies := [c], nextCopy := 1, born := s.stamp }
      let s3 := s2.tick.addRef p i 0 1
      (m.prot.zipIdx.foldl (fun (t : State) v =>
        let dpa := base + 0x10000 * v.2
        let u : State := { t.mapRange p v.1 dpa 0x10000 true with mem := cellsCopy m.pages t.mem v.1 0x10000 dpa }
        u.setPart p fun q => { q with maps := { va := v.1, size := 0x10000, obj := i, tier := 1, copy := 0 } :: q.maps }) s3, none)

/-- A takeover (R480): the job of the image opens here, its state is restored, rings get the image's GEN plus one and become ACTIVE, and it
replays from the mirrored log. -/
def State.takeover (s : State) (m : Nat) (r : MbxReq) (x : Nat) : State :=
  let p := byteAt r.data 5
  let img := s.takenImage p x
  let k := 16 * p + img.job % 16
  if s.jobOpen p then s.endL m r 0x13 [] false
  else if !s.takeoverFits p img then s.endL m r 5 [] false
  else match ((s.fset .tierPHashHmode p img.hmode).fset .tierPHashSeed p img.hseed).mapTaken p img with
    | (_, some e) => s.endL m r e [] false
    | (s0, none) =>
    -- placements and objects of the other module have no meaning here (DEDUCED, log entry 29)
    let jr : Job := { img.jobRec with save := 0, x7 := [], x7out := [] }
    match (s0.setJob k fun _ => jr).saveArea p k with
    | .inr e => s.endL m r e [] false
    | .inl s1 =>
      let s2 := s1.setPart p fun q => { q with subn := img.jobRec.subn, residency := img.jobRec.residency, shadowAllow := img.shadowAllow,
                                               cgen := img.num / 2 ^ 24 % 256, mirrorShut := true }
      let s3 := img.rings.zipIdx.foldl (fun (t : State) y =>
        let g := 16 * p + y.2
        if y.1.state = 0 then t
        else ((t.fset .ringState g 1).fset .ringStateGen g (y.1.gen + 1)).fset .ringCfgPrio g y.1.prio) s2
      let s4 := ((s3.fset .ringPstatusJob p 1).fset .ringActiveResident p (2 ^ (k % 16))).applySubn p img.jobRec.subn
      let log (g : Nat) : List (Nat × List Byte) := (img.log.filter fun e => e.1 % 16 = g % 16).map (·.2)
      let moved : Image := { img with job := k, graphs := img.graphs.map fun (y : Graph) => { y with ring := 16 * p + y.ring % 16 } }
      let s5 := s4.restoreImage p k moved log (fun _ => []) img.jobRec.replayNext
      let s6 := ((s5.setJob k fun j => { j with save := (s1.job k).save, x7 := [], x7out := [] }).freeMirror p).allocImages p k
      let s7 := s6.draw.partEvent p 0x984 (toBytes 8 img.num ++ toBytes 4 (Config.takeoverMicros s.fresh).toNat)
      (s7.logCmd m r 9 (toBytes 8 0) (toBytes 8 img.num)).endL m r 0 [] true

/-- CKPT_RESTORE. -/
def execCkptRestore (m : Mbx) (s : State) : Res := .next (s.runCommand m 0x904 cmdCkptRestore)

/-! ## Forming and dissolving with a mirror (R476) -/

/-- The end of a partition's formation ends what its mirror holds and what it holds for a partner; a command that waited for a recovery
of it finds no checkpoint. -/
def State.partChanged (s : State) (p : Nat) : State :=
  let t := (s.freeMirror p).endMirror p
  match t.recovery p with
  | some r => t.answerRestore r 5 false
  | none => t

/-- A command on a formation, with what its success ends. -/
def withMirror (f : State → Nat → MbxReq → State × Ans) (s : State) (m : Nat) (r : MbxReq) : State × Ans :=
  match f s m r with
  | (_, .logged _) => f (s.partChanged (byteAt r.data 5)) m r
  | q => q

/-- PART_FORM. -/
def execPartForm (m : Mbx) (s : State) : Res := .next (s.runCommand m 0x201 (withMirror cmdPartForm))
/-- PART_DISSOLVE. -/
def execPartDissolve (m : Mbx) (s : State) : Res := .next (s.runCommand m 0x202 (withMirror cmdPartDissolve))

end Sys2Proof.Machine
end

