-- ==== Sys2Proof/Machine/Power.lean ====
section
/-! DEFINITION. Power states (R487 to R497), limits and throttling (R498 to R502), thermal response and trip (R501), supply loss and the
power sequencer (R507 to R510, R562 to R565). -/

namespace Sys2Proof.Machine

/-! ## Clocks (R484, R498 to R502) -/

def State.setPwr (s : State) (f : PwrCtl → PwrCtl) : State := { s with pwr := f s.pwr }

/-- MCLK that the controller has set for a quadrant, in MHz, never above PWR_MCLK_MAX (R499). -/
def State.mclkSet (s : State) (q : Nat) : Nat := min (SMap.get 1500 s.pwr.mclk q) (s.fget .pwrMclkMax 0)

/-- The input stands from 38 to 40 V (R502). -/
def State.lowSupply (s : State) : Bool := decide (3800 ≤ s.fget .pwrInputV 0) && decide (s.fget .pwrInputV 0 < 4000)

/-- The power brake acts (R500, R564): not in P4 and not during a shutdown. -/
def State.braked (s : State) : Bool := s.fget .pciBoardBrake 0 = 1 && s.fget .pwrState 0 ≠ 4 && s.fget .pwrStateStage 0 = 0

/-- MCLK is held at the brake's value: while braked, and for 1 ms after (R500). -/
def State.clockHeld (s : State) : Bool := s.braked || s.pwr.hold ≠ 0

/-- MCLK of a quadrant: 0 where it is stopped (R511); the brake's value while it holds (R500); 600 MHz under the module thermal response
(R501); at most 1,200 MHz on a low supply (R502). -/
def State.mclkNow (s : State) (q : Nat) : Nat :=
  if !s.started || !s.quadRuns q || s.fget .pwrStateStage 0 ≠ 0 then 0
  else
    let a := if s.clockHeld then s.fget .pwrBrakeMclk 0 else s.mclkSet q
    let b := if s.pwr.alert ≠ 0 then min a 600 else a
    if s.lowSupply then min b 1200 else b

/-- Average input power of the last 100 µs is above 2,300 W; that of the last 1 ms is above the cap (R498). -/
def State.overFast (s : State) : Bool := decide (s.pwr.samples.length ≥ 10) && decide ((s.pwr.samples.take 10).sum > 23000)
def State.overCap (s : State) : Bool := decide (s.pwr.samples.length = 100) && decide (s.pwr.samples.sum > 100 * s.fget .pwrCap 0)

/-- Causes of throttling in force (R502). -/
def State.throttle (s : State) : Nat :=
  (if s.overCap then 1 else 0) + (if s.overFast then 2 else 0) + (if s.braked then 4 else 0) + (if s.pwr.hot ≠ 0 then 8 else 0) +
    (if s.pwr.alert ≠ 0 then 16 else 0) + (if s.lowSupply then 32 else 0)

/-- I/O dies on which no new video frame starts: held by the controller, the thermal response, a hot die (R498, R501) or a self-test of
the die (R539). -/
def State.heldDies (s : State) : Nat :=
  let test := match s.bist with
    | some b => if b.scope = 2 then 1 else if b.scope = 3 then 2 else if b.scope = 4 then 3 else 0
    | none => 0
  (if s.pwr.videoHeld || s.pwr.alert ≠ 0 then 3 else s.pwr.hot / 16 % 4) ||| test

/-- What lowers the MCLK of a running quadrant lowers what the controller has set: only the last row of R498 raises it. -/
def State.settleMclk (s : State) : State :=
  (List.range 4).foldl (fun (t : State) q =>
    if s.mclkNow q = 0 then t else t.setPwr fun x => { x with mclk := SMap.set 1500 x.mclk q (min (s.mclkSet q) (s.mclkNow q)) }) s

/-- What the registers show of clocks and throttling follows the controller (R511). -/
def State.refreshClocks (s : State) : State :=
  let s1 := (List.range 4).foldl (fun t q => t.fset .pwrMclk q (s.mclkNow q)) s.settleMclk
  { (s1.fset .pwrThrotNow 0 s.throttle).for' .pwrThrotSeen 0 s.throttle with vidHold := s.heldDies }

/-- Lower or raise the MCLK of the running quadrants that a condition selects, within 600 MHz and PWR_MCLK_MAX (R484, R498). -/
def State.moveMclk (s : State) (sel : Nat → Bool) (f : Nat → Nat) : State :=
  (List.range 4).foldl (fun (t : State) q =>
    if s.quadRuns q && sel q then
      t.setPwr fun x => { x with mclk := SMap.set 1500 x.mclk q (max 600 (min (s.fget .pwrMclkMax 0) (f (s.mclkSet q)))) }
    else t) s

/-- Every running quadrant's MCLK meets a condition. -/
def State.allMclk (s : State) (c : Nat → Bool) : Bool := (List.range 4).all fun q => !s.quadRuns q || c (s.mclkSet q)

/-- The first row of R498: 200 MHz at once, and again after each further 100 µs above. -/
def State.fastRule (s : State) : State :=
  let n := if s.overFast then s.pwr.fast + 1 else 0
  let s1 := s.setPwr fun x => { x with fast := n }
  if n % 10 = 1 then s1.moveMclk (fun _ => true) (· - 200) else s1

/-- The second and third rows of R498: 50 MHz every 250 µs above the cap; at 600 MHz CCLK, then video. -/
def State.capRule (s : State) : State :=
  let n := if s.overCap then s.pwr.above + 1 else 0
  let s1 := s.setPwr fun x => { x with above := n }
  if n = 0 || n % 25 ≠ 0 then s1
  else if !s1.allMclk (fun f => decide (f ≤ 600)) then s1.moveMclk (fun _ => true) (· - 50)
  else if !s1.pwr.slow then s1.setPwr fun x => { x with slow := true }
  else s1.setPwr fun x => { x with videoHeld := true }

/-- The last row of R498: 50 W below the cap for 10 ms, then 25 MHz per ms, then CCLK, then video. -/
def State.raiseRule (s : State) : State :=
  let under := s.pwr.samples.length = 100 && decide (s.pwr.samples.sum + 5000 ≤ 100 * s.fget .pwrCap 0)
  let n := if under then s.pwr.below + 1 else 0
  let s1 := s.setPwr fun x => { x with below := n }
  if n < 1000 || n % 100 ≠ 0 then s1
  else if !s1.allMclk (fun f => decide (f ≥ s1.fget .pwrMclkMax 0)) then s1.moveMclk (fun q => !s1.pwr.hot.testBit q) (· + 25)
  else if s1.pwr.slow then s1.setPwr fun x => { x with slow := false }
  else s1.setPwr fun x => { x with videoHeld := false }

/-- A compute die at 100 °C (R501): 50 MHz per ms. -/
def State.hotRule (s : State) : State :=
  if s.pwr.hot % 16 = 0 then s.setPwr fun x => { x with hotTick := 0 }
  else
    let n := s.pwr.hotTick + 1
    let s1 := s.setPwr fun x => { x with hotTick := n }
    if n % 100 = 0 then s1.moveMclk (fun q => s1.pwr.hot.testBit q) (· - 50) else s1

/-- POWER_SAMPLE (R498): one sample, every 10 µs. -/
def State.powerSample (s : State) (w v : Nat) : State :=
  if !s.started then s
  else
    let s1 := ((s.fset .pwrInputW 0 w).fset .pwrInputV 0 v).setPwr fun x =>
      { x with samples := (w :: x.samples).take 100, hold := x.hold - 1 }
    let s2 := if s.fget .pwrStateStage 0 ≠ 0 then s1 else s1.fastRule.capRule.raiseRule.hotRule
    let s3 := s2.refreshClocks
    if s3.throttle ≠ 0 then s3.fadd .pwrThrotUs 0 10 else s3

/-- POWER_SAMPLE. -/
def execPowerSample (watts tenMillivolts : BitVec 16) (s : State) : Res := .next (s.powerSample watts.toNat tenMillivolts.toNat)

/-- PWRBRK_ASSERT (R500, R564): recorded in BRAKE; it acts on MCLK where quadrants run. -/
def execPwrbrkAssert (s : State) : Res := .next (s.fset .pciBoardBrake 0 1).refreshClocks

/-- PWRBRK_RELEASE (R500): MCLK stays held for 1 ms, 100 samples, and then resumes under R498. -/
def execPwrbrkRelease (s : State) : Res :=
  .next ((s.fset .pciBoardBrake 0 0).setPwr fun x => { x with hold := if s.braked then 100 else x.hold }).refreshClocks

/-! ## Temperatures (R241, R501) -/

/-- Threshold of the module thermal response and of the trip for a source (R501); none for flash, LPDDR and regulators. -/
def thermalLimit (src : Nat) : Option (Nat × Nat) :=
  if src < 6 then some (110, 125) else if 8 ≤ src && src < 16 then some (105, 110) else none

/-- The bit of a source in a mask is set or cleared by a threshold with a lower release; between them it stays. -/
def latch (mask i temp on off : Nat) : Nat :=
  if temp ≥ on then mask ||| 2 ^ i else if temp ≤ off then mask - (mask &&& 2 ^ i) else mask

/-- A measured temperature acts (R501). -/
def State.measureTemp (s : State) (src temp : Nat) : State :=
  let s1 : State := { s with temps := SMap.set 0 s.temps src temp }
  let s2 := if src < 6 then s1.setPwr fun x => { x with hot := latch x.hot src temp 100 95 } else s1
  match thermalLimit src with
  | none => s2
  | some (lim, _) =>
    let s3 := s2.setPwr fun x => { x with alert := latch x.alert src temp lim (lim - 10) }
    let s4 := (s3.fset .pciBoardAlert 0 (if s3.pwr.alert = 0 then 0 else 1)).refreshClocks
    if s3.pwr.alert.testBit src && !s.pwr.alert.testBit src then
      (s4.devEvent 0x987 (toBytes 1 src ++ toBytes 1 temp)).logFault { cls := 0xA, unit := (Config.thermalUnit src).toNat, detail := src }
    else s4

/-- DIE_TEMP_CHANGE. -/
def execDieTempChange (source temp : BitVec 8) (s : State) : Res :=
  .next (if s.started && source.toNat < 19 then s.measureTemp source.toNat temp.toNat else s)

/-- STACK_TEMP_CHANGE (R241): refresh doubles at 85 °C and the activation limit holds from 95 °C. -/
def execStackTempChange (k : Fin 8) (temp : BitVec 8) (s : State) : Res :=
  .next (if !s.started then s
    else
      let t := temp.toNat
      let s1 := ((s.fset .tierStackTemp k t).fset .tierStackHotref k (if t ≥ 85 then 1 else 0)).fset .tierStackThrot k (if t ≥ 95 then 1 else 0)
      (if t ≥ 95 then s1.fset .tierStackWashot k 1 else s1).measureTemp (8 + k.val) t)

/-! ## Blocks that a power state stops (R490) -/

/-- Blocks that entry to a state prepares, in order, by code. -/
def powerBlocks (t : Nat) : List Nat :=
  if t = 1 then [1, 2, 3, 4, 5] else if t ≤ 3 then [1, 2, 3, 4, 5, 6, 7] else [1, 2, 3, 4, 5, 6, 7, 8, 9, 10]

/-- Quadrant of a block code. -/
def blockQuad (code : Nat) : Option Nat := if 2 ≤ code && code ≤ 5 then some (code - 2) else none

/-- The prepare of a block begins; quadrants hold starts and drain their streams (R280). -/
def State.prepBlock (s : State) (code : Nat) : State :=
  let s1 := match blockQuad code with
    | some q =>
      let t := { s with quadPrep := s.quadPrep ||| 2 ^ q, drains := s.drains ||| 2 ^ q }.syncDrain
      if t.fget .strmDrainTo 0 = 0 then t.drainTimeout else t
    | none => if code = 1 then s.drainVideo else s
  s1.trace 7 0xFF 0xFF 0 [BitVec.ofNat 8 code]

/-- Formed partitions with a skein in a quadrant. -/
def State.quadParts (s : State) (q : Nat) : List Nat := s.formedParts.filter fun p => s.inQuads p (2 ^ q)

/-- A running task of a matrix core, or of a carding thread, waits (R490). -/
def State.coreWaits (s : State) (c : Nat) : Bool :=
  (s.mcore c).wait != .none || (s.mcore c).running.any fun r => r.halo = 1 && (match r.i.op with
    | .thx 1 .. => true
    | _ => false)
def State.threadWaits (s : State) (t : Nat) : Bool :=
  (match (s.thread t).wait with
    | .flags .. => true
    | _ => false) || s.atTwait t

/-- Every task in a quadrant has ended or waits; a skein under test counts as a task that does neither (R539). -/
def State.quadTasksDone (s : State) (q : Nat) : Bool :=
  ((List.range' (128 * q) 128).all fun c => !(s.mtask c).active || (s.mtask c).outcome.isSome || s.coreWaits c) &&
  (s.ctasks.all fun e => e.1 / 4096 ≠ q || !e.2.active || e.2.outcome.isSome || s.threadWaits e.1) &&
  s.testSkeins / 2 ^ (16 * q) % 2 ^ 16 = 0

/-- Chains of a quadrant's engine and of its partitions have ended (R280). -/
def State.quadStreamsDone (s : State) (q : Nat) : Bool :=
  !s.ctxs.any fun c => c.2.busy && c.2.ended.isNone && (c.1 / 136 = q || (c.1 % 136 < 128 && (s.quadParts q).contains c.2.part))

/-- A recovery delays the prepare of a quadrant (R466). -/
def State.quadRecovers (s : State) (q : Nat) : Bool := (s.quadParts q).any s.recovering

/-- A prepared block may answer READY (R490). -/
def State.blockReady (s : State) (target code : Nat) : Bool :=
  match blockQuad code with
  | some q =>
    let ps := s.quadParts q
    !s.quadRecovers q && s.quadTasksDone q && s.quadStreamsDone q &&
      ps.all fun p => !(s.switching.any fun x => x.1 = p) && !(s.ckpts.any fun c => c.1 = p) && (target < 3 || !s.jobOpen p)
  | none =>
    match code with
    | 1 => s.vframes.isEmpty
    | 6 => s.colls.isEmpty
    | 8 => !s.mbxs.any fun e => e.2.reqs.any fun r => r.phase = 1 && fld r.data 0 2 = 0x306
    | 10 => !s.mbxs.any fun e => e.2.reqs.any fun r => r.phase = 1 && fld r.data 0 2 ≠ 0x401
    | _ => true

/-- Rings of the partitions of a quadrant become HELD (R339, R490). -/
def State.holdRings (s : State) (q : Nat) : State :=
  (s.quadParts q).foldl (fun t p => (List.range 16).foldl (fun u r =>
    if u.fget .ringState (16 * p + r) = 1 then u.fset .ringState (16 * p + r) 2 else u) t) s

/-- A port is stopped by a power state (R418, R487). -/
def State.stopPort (s : State) (p : Nat) : State :=
  let s1 := s.setPort p fun x => { x with stopped := true }
  if s.fget .flkPortState p ≥ 2 then s1.portLeave p 1 8 else s1

/-- A block has stopped, keeping what the target state keeps. -/
def State.stopBlock (s : State) (target code : Nat) : State :=
  match blockQuad code with
  | some q =>
    let s1 := s.holdRings q
    ({ s1 with quadStop := s1.quadStop ||| 2 ^ q, quadPrep := s1.quadPrep - (s1.quadPrep &&& 2 ^ q),
               drains := s1.drains - (s1.drains &&& 2 ^ q) } : State).syncDrain.refreshClocks
  | none =>
    if code = 6 && target ≥ 3 then (List.range 8).foldl State.stopPort s
    else if code = 8 then { s with journal := none }
    else s

/-- Ports train again (R419). -/
def State.startPorts (s : State) : State :=
  (List.range 8).foldl (fun (t : State) p =>
    if !(t.port p).stopped then t
    else
      let u := t.setPort p fun x => { x with stopped := false }
      if u.fget .flkPortState p = 1 then u.portTrain p else u) s

/-- Held rings of partitions that nothing stops any more become ACTIVE, and their doorbells act (R492). -/
def State.releaseRings (s : State) : State :=
  s.formedParts.foldl (fun (t : State) p => if t.held p then t else (List.range 16).foldl (fun u r => u.unhold (16 * p + r)) t) s

/-- Every block that the power state in force runs goes on: prepares are taken back (R492, R493). -/
def State.restartBlocks (s : State) : State :=
  let st := s.fget .pwrState 0
  let s1 := if st < 3 then s.startPorts else s
  let s2 : State := { s1 with quadPrep := 0, quadStop := if st = 0 then 0 else 15, vidDrain := decide (st ≠ 0) }
  -- the drain of a power-down ends; that of a supply loss stays (R301)
  let s3 := if st ≠ 0 then s2 else
    (List.range 4).foldl (fun (t : State) q => t.pumpChains q 64) ({ s2 with drains := s2.drains / 16 * 16 } : State).syncDrain
  s3.releaseRings.refreshClocks

/-- READY_STATUS bits of functions other than ports, PCIE and FLASH that a power state runs (R487, R504). -/
def State.showReady (s : State) : State :=
  let st := s.fget .pwrState 0
  let s1 := (List.range 4).foldl (fun t q => t.setReady (2 + q) (decide (st = 0))) s
  let s2 := (List.range 8).foldl (fun t k => t.setReady (6 + k) (decide (st ≤ 1) && (List.range' (32 * k) 32).any fun c => t.fget .tierChLive c = 1)) s1
  let s3 := ((s2.setReady 14 (decide (st ≤ 3))).setReady 16 (decide (st = 0))).setReady 17 (decide (st = 0))
  s3.setReady 1 (decide (st ≤ 3))

/-- Video cores read OFF while they have no power and after a fault (R338, R487). -/
def State.showVideo (s : State) : State :=
  (List.range 24).foldl (fun t k => if t.fget .vidCStatusState k = 1 || t.fget .vidCStatusState k = 2 then t
    else t.fset .vidCStatusState k (if t.fget .pwrState 0 ≥ 2 || t.vidDead.contains k then 3 else 0)) s

/-- The power state in force changes (R491, R493). -/
def State.enterState (s : State) (t : Nat) : State :=
  (((s.fset .pwrState 0 t).fset .pwrStateTarget 0 t).fset .pwrStateBusy 0 0).refreshClocks.showVideo

/-- The request that a sequence serves. -/
def State.seqRequest (s : State) (q : PwrSeq) : Option (Nat × MbxReq) :=
  match q.request with
  | none => none
  | some (m, stamp) => ((s.mbx m).reqs.find? fun r => r.stamp = stamp && r.phase = 1).map fun r => (m, r)

/-- The commit (R491): never refused. State that the target loses reads as after a reset (R487). -/
def State.powerCommit (s : State) (q : PwrSeq) : State :=
  let t := q.target
  let from' := s.fget .pwrState 0
  let s1 : State := { s with pwrSeq := none }
  let s2 := (if t ≥ 3 then (List.range 64).foldl State.resetSkein s1 else s1).enterState t
  let s3 := match s.seqRequest q with
    | none => s2
    | some (m, r) => (s2.logCmd m r 0xA (toBytes 1 from') (toBytes 1 t)).endL m r 0 (toBytes 1 t) true
  if t = 4 then s3.showReady.setReady 15 false else s3.showReady

/-- Why a block refuses when its drain time has run out (R490); none where nothing keeps it from stopping. -/
def State.refuseReason (s : State) (target code : Nat) : Option Nat :=
  match blockQuad code with
  | some q =>
    if s.quadRecovers q then none
    else if !s.quadTasksDone q then some 1
    else if target ≥ 3 && (s.quadParts q).any s.jobOpen then some 2
    else none
  | none => if s.blockReady target code then none else if code = 6 then some 3 else if code = 8 then some 4 else if code = 10 then some 5 else none

/-- The drain time of the block being prepared has run out (R492): the block answers REFUSE. -/
def State.drainRefuse (s : State) : State :=
  match s.pwrSeq with
  | none => s
  | some q =>
    match q.todo with
    | [] => s
    | c :: _ =>
      if q.refused.isSome || !s.millUp || s.fget .pwrStateStage 0 ≠ 0 then s
      else match s.refuseReason q.target c with
        | none => s
        | some reason =>
          let s1 := ((s.fset .pwrRefuseBlock 0 c).fset .pwrRefuseTarget 0 q.target).fset .pwrRefuseReason 0 reason
          { s1.fadd .pwrRefusals 0 1 with pwrSeq := some { q with refused := some (c, reason) } }

/-- PWR_DRAIN_TIMEOUT. -/
def execPwrDrainTimeout (s : State) : Res := .next s.drainRefuse

/-- The prepare of a block begins; a PWR_DRAIN_TO of 0 refuses at once anything still running (R511). -/
def State.prepare (s : State) (code : Nat) : State :=
  let t := s.prepBlock code
  if t.fget .pwrDrainTo 0 = 0 then t.drainRefuse else t

/-- BLOCK_READY: the prepared block has stopped; the next is prepared, or the commit runs. -/
def State.blockAnswers (s : State) : State :=
  match s.pwrSeq with
  | none => s
  | some q =>
    match q.todo with
    | [] => s
    | c :: rest =>
      if q.refused.isSome || !s.millUp || s.fget .pwrStateStage 0 ≠ 0 || !s.blockReady q.target c then s
      else
        let q1 := { q with todo := rest, ready := c :: q.ready }
        let s1 : State := { s.stopBlock q.target c with pwrSeq := some q1 }
        match rest with
        | [] => s1.powerCommit q1
        | d :: _ => s1.prepare d

/-- BLOCK_READY. -/
def execBlockReady (s : State) : Res := .next s.blockAnswers

/-- The sequence is taken back: no block stays prepared, and the state is as it was. -/
def State.rollBack (s : State) : State :=
  let s1 : State := { s with pwrSeq := none }
  ((s1.fset .pwrStateBusy 0 0).fset .pwrStateTarget 0 (s.fget .pwrState 0)).restartBlocks

/-- POWER_ROLLBACK_DONE (R492). -/
def execPowerRollbackDone (s : State) : Res :=
  .next (match s.pwrSeq with
    | none => s
    | some q =>
      match q.refused with
      | none => s
      | some (c, _) =>
        if !s.millUp then s
        else match s.seqRequest q with
          | none => s.rollBack
          | some (m, r) => s.rollBack.endL m r 0x10 (toBytes 1 (s.fget .pwrState 0) ++ toBytes 1 c) false)

/-- PWR_SET (R488, R490, R493). -/
def cmdPwrSet (s : State) (m : Nat) (r : MbxReq) : State × Ans :=
  let t := byteAt r.data 16
  let f := s.fget .pwrState 0
  if s.pwrSeq.isSome || s.fget .pwrStateStage 0 ≠ 0 then (s, .later)
  else if t = f then (s.logCmd m r 0xA (toBytes 1 f) (toBytes 1 f), .logged (toBytes 1 f))
  else
    let s1 := (s.fset .pwrStateBusy 0 1).fset .pwrStateTarget 0 t
    if t < f then ({ s1 with pwrSeq := some { request := some (m, r.stamp), target := t, wake := true } }, .running [])
    else
      let s2 : State := { s1 with pwrSeq := some { request := some (m, r.stamp), target := t, todo := powerBlocks t } }
      (s2.prepare 1, .running [])

/-- PWR_SET. -/
def execPwrSet (m : Mbx) (s : State) : Res := .next (s.runCommand m 0x401 cmdPwrSet)

/-- Halts of SEC_HALT that waited for P0 take effect on the tasks that still run (R534). -/
def State.applyHalts (s : State) : State :=
  s.halts.foldl (fun (t : State) h => if (t.ctask h).active then t.setThread h fun x => { x with halted := true } else t) { s with halts := [] }

/-- A wake by PWR_SET has restarted its blocks (R493, R497). Quadrants that return from P3 or P4 have been reset. -/
def State.wakeFinish (s : State) (m : Nat) (r : MbxReq) : State :=
  match s.pwrSeq with
  | none => s
  | some q =>
    if !q.wake || q.request ≠ some (m, r.stamp) then s
    else
      let f := s.fget .pwrState 0
      let s1 : State := { s with pwrSeq := none }
      let s2 := ((s1.fset .pwrWakeSourceSrc 0 1).fset .pwrWakeSourceFrom 0 f).enterState q.target
      let s3 := if f ≥ 3 && q.target < 3 then s2.formedParts.foldl State.showPartition s2 else s2
      let s4' := s3.restartBlocks.showReady
      let s4 := if q.target = 0 then s4'.applyHalts else s4'
      (s4.logCmd m r 0xA (toBytes 1 f) (toBytes 1 q.target)).endL m r 0 (toBytes 1 q.target) true

/-- PWR_QUERY. -/
def cmdPwrQuery (s : State) (_m : Nat) (_r : MbxReq) : State × Ans :=
  (s, .now 0 (toBytes 1 (s.fget .pwrState 0) ++ toBytes 1 (s.fget .pwrWakeSourceSrc 0 + 8 * s.fget .pwrWakeSourceFrom 0) ++
    toBytes 2 (s.fget .pwrCap 0)))

/-- PWR_QUERY. -/
def execPwrQuery (m : Mbx) (s : State) : Res := .next (s.runCommand m 0x402 cmdPwrQuery)

/-- PWR_CAP (R498). -/
def cmdPwrCap (s : State) (m : Nat) (r : MbxReq) : State × Ans :=
  let v := if fld r.data 16 2 = 0 then 2000 else fld r.data 16 2
  ((s.fset .pwrCap 0 v).logCmd m r 0xA (toBytes 2 (s.fget .pwrCap 0)) (toBytes 2 v), .logged [])

/-- PWR_CAP. -/
def execPwrCap (m : Mbx) (s : State) : Res := .next (s.runCommand m 0x403 cmdPwrCap)

/-! ## Waking from P4 (R495, R496) -/

/-- WAKE_EVENT. -/
def execWakeEvent (cause : WakeCause) (s : State) : Res :=
  .next (if !s.started || s.fget .pwrState 0 ≠ 4 || s.pwrSeq.isSome || s.fget .pwrStateStage 0 ≠ 0 then s
    else
      let src := match cause with
        | .pf0Mailbox => 2
        | .partMailbox _ => 3
        | .sideband => 4
      let s1 := ((s.fset .pwrWakeSourceSrc 0 src).fset .pwrWakeSourceFrom 0 4).fset .pwrStateBusy 0 1
      { s1.fset .pwrStateTarget 0 3 with pwrSeq := some { target := 3, wake := true } })

/-- The wake from P4 ends in P3 (R496): the mailboxes serve, held requests are accepted, flash is powered. -/
def State.wakeEnds (s : State) : State :=
  let s1 : State := { s with pwrSeq := none }
  let s2 := (s1.enterState 3).showReady.flashReady
  (List.range 66).foldl (fun t m => t.releaseHeld m) s2

/-- A wake from P4 runs. -/
def State.wakingUp (s : State) : Bool :=
  s.fget .pwrState 0 = 4 && s.fget .pwrStateStage 0 = 0 && (match s.pwrSeq with
    | some q => q.wake && q.request.isNone
    | none => false)

/-! ## Shutdown (R301, R507 to R510) -/

/-- A self-test is abandoned (R539): no response is written, and the skeins lose what T0 held. -/
def State.abandonBist (s : State) : State :=
  match s.bist with
  | none => s
  | some _ =>
    let s1 := (skeinsOf s.testSkeins).foldl (fun (t : State) k => t.resetSkein k) s
    let s2 : State := { s1 with bist := none, testSkeins := 0 }
    let s3 := s2.formedParts.foldl State.showPartition s2
    ((s3.fset .bistStatusRunning 0 0).fset .bistStatusAbandoned 0 1).refreshClocks

/-- The sequencer signals a supply loss (R301, R494, R539): the FTL begins its commit, staging to T3 and reads of T3 end, a power-state
sequence and a self-test are abandoned. -/
def State.powerLost (s : State) : State :=
  let runs := s.ftlRuns && bitAt (s.fget .glbReadyStatus 0) 15
  let s1 := s.abandonBist
  let s2 := s1.mbxs.foldl (fun (t : State) (e : Nat × Mailbox) => e.2.reqs.foldl (fun (u : State) (r : MbxReq) =>
    if r.phase = 1 && ((fld r.data 0 2 = 0x306 && byteAt r.data 20 = 3) || fld r.data 0 2 = 0x401) then u.endL e.1 r 0xB [] false else u) t) s1
  -- reads of T3 drain (R280, R281)
  let s2' := { s2 with drains := s2.drains ||| 16 }.syncDrain
  let s3 := if s2'.fget .strmDrainTo 0 = 0 then s2'.drainTimeout else s2'
  { s3 with pwrSeq := none, committing := runs, commitOf := if runs then some s3.flashNow else none, commitDone := !runs }.fset .pwrStateBusy 0 0

/-- Stage 2 and on to the wait for the commit (R508, R509): T0 and T1 are lost. -/
def State.stage2 (s : State) : State :=
  let mem := s.mem.filter fun c => decide (t2Base ≤ c.1) && decide (c.1 < t2Base + t2Size)
  let s1 : State := { (s.fadd .pwrLosses 0 1).fset .pwrStateStage 0 3 with mem := mem, quadStop := 15, holdup := none }
  let s2 := (List.range 8).foldl State.stopPort s1
  let s3 := ([2, 3, 4, 5, 6, 7, 8, 9, 10, 11, 12, 13, 16, 17]).foldl (fun t b => t.setReady b false) s2
  (if s3.commitDone then s3.passStage4 else s3).refreshClocks

/-- A supply loss is detected (R507, R509, R510): stage 1, or stages 2 and 4 at once where FLASH has not been set since the cold start. -/
def State.lossDetected (s : State) : State :=
  let s1 : State := { s with inputOk := false, coldCause := 4 }
  if !s.started || s.fget .pwrStateStage 0 ≠ 0 then { s with inputOk := false }
  else if s.fget .ftlStatusState 0 = 0 then s1.powerLost.stage2
  else (s1.powerLost.fset .pwrStateStage 0 1).refreshClocks

/-- SUPPLY_LOSS. -/
def execSupplyLoss (s : State) : Res := .next s.lossDetected

/-- CHECK_RETURN_EXPIRY (R508): its time has run out, or the input is below 30 V. -/
def execCheckReturnExpiry (s : State) : Res := .next (if s.fget .pwrStateStage 0 = 1 then s.stage2 else s)

/-- WAIT_COMMIT_TIMEOUT (R508). -/
def execWaitCommitTimeout (s : State) : Res :=
  .next (if s.fget .pwrStateStage 0 = 3 then { s with committing := false }.passStage4 else s)

/-- SHUTDOWN_END (R508): every rail but the always-on one is off. -/
def execShutdownEnd (s : State) : Res :=
  .next (if s.fget .pwrStateStage 0 = 4 then
      { (s.fset .pwrStateStage 0 0).fset .glbReadyStatus 0 0 with started := false, committing := false }.refreshClocks
    else s)

/-- The shutdown aborts before stage 2 (R510): clocks restart, and work goes on from retained state. A commit under way runs to its end. -/
def State.abortShutdown (s : State) : State :=
  let s1 := ((s.fset .pwrStateStage 0 0).fadd .pwrDips 0 1).fset .pwrStateTarget 0 (s.fget .pwrState 0)
  let s2 : State := { s1 with coldCause := 0, drains := 0 }
  let s3 := s2.restartBlocks
  (List.range 8).foldl (fun t p => t.portPump p (t.port p).queue.length) s3

/-- INPUT_QUALIFIED (R507, R510, R562): an open switch stays open until the input has fallen below 30 V. -/
def execInputQualified (s : State) : Res :=
  .next (if s.swOpen then s
    else
      let s1 : State := { s with inputOk := true, seqStopped := false }
      if s.fget .pwrStateStage 0 = 1 then s1.abortShutdown else s1)

/-- INPUT_OVERCURRENT (R562): the input switch opens, which counts as a supply loss. -/
def execInputOvercurrent (s : State) : Res :=
  .next (if s.swOpen || !s.inputOk then s
    else
      let s1 : State := { s.fset .pciBoardSwopen 0 1 with swOpen := true }
      s1.lossDetected)

/-- INPUT_BELOW_30V (R562, R565): THERM_TRIP# is released, and the switch may close at the next qualification. -/
def execInputBelow30V (s : State) : Res :=
  .next (if s.tripPin || s.swOpen then { s with tripPin := false, swOpen := false, inputOk := false } else s)

/-- THERMAL_TRIP (R501, R565). -/
def execThermalTrip (source : BitVec 8) (s : State) : Res :=
  .next (match thermalLimit source.toNat with
    | none => s
    | some (_, trip) =>
      if !s.started || s.fget .pwrStateStage 0 > 1 || SMap.get 0 s.temps source.toNat < trip then s
      else
        let s1 : State := { s.fadd .pwrTrips 0 1 with tripPin := true, coldCause := 3 }
        (if s.fget .pwrStateStage 0 = 1 then s1 else s1.powerLost).stage2)

/-- POWER_GOOD_TIMEOUT (R508): in the start table, a fault is logged and the sequencer stops. -/
def execPowerGoodTimeout (s : State) : Res :=
  .next (if s.started || !s.inputOk then s
    else { s.logFault { cls := Config.powerFault.1.toNat, unit := Config.powerFault.2.toNat } with seqStopped := true })

/-- HOLDUP_STORE_CHARGED (R563). -/
def execHoldupStoreCharged (tenthJoules : BitVec 8) (s : State) : Res :=
  .next (if !s.inputOk then s
    else
      let e := tenthJoules.toNat
      let s1 := ((({ s with holdup := some e } : State).fset .pciBoardHoldupE 0 e).fset .pciBoardHoldupOk 0 (if e ≥ 40 then 1 else 0)).fset
        .pciBoardHoldupLow 0 (if e < 40 then 1 else 0)
      if s.fget .pwrState 0 = 4 then s1 else s1.flashReady)

/-! ## The mill restarts (R377, R466, R519) -/

/-- MILL_RESTART_DONE: the mill serves again, a power-state sequence and a self-test that it ran are given up; firmware that does not
measure as before makes it a cold start (R519). -/
def execMillRestartDone (digestMatches : Bool) (s : State) : Res :=
  .next (if s.fget .mbxStatusRestarting 64 = 0 || !bitAt (s.fget .glbReadyStatus 0) 1 then s
    else if !digestMatches then { s.fset .glbReadyStatus 0 0 with started := false }
    else (if s.pwrSeq.isSome then s.abandonBist.rollBack else s.abandonBist).millBack)

end Sys2Proof.Machine
end

