-- ==== Sys2Proof/Machine/Start.lean ====
section
/-! DEFINITION. Cold start and module reset (R503, R506, R512 to R520, R563), function and link reset (R503, R547, R556), PERST# and the
link (R566, R567). -/

namespace Sys2Proof.Machine

/-! ## What a start leaves -/

/-- An object after a start: its copies in T3 and their references; an object without one is retired (DESIGN CHOICE), and its version is
that of the newest copy left. -/
def Obj.afterStart (o : Obj) : Obj :=
  let l := (o.copies.filter fun c => c.tier = 3).map fun c => { c with mapped := [], streams := [] }
  if !o.used then o
  else if l.isEmpty then { o with copies := [], retired := true }
  else { o with copies := l, version := l.foldl (fun a c => max a c.version) 0 }

/-- An object table after a start. -/
def objsAfterStart (m : SMap Obj) : SMap Obj := m.map fun e => (e.1, e.2.afterStart)

/-- The lifecycle that a start loads from the fuses (R514). -/
def State.fusedLc (s : State) : Nat := s.fuseLc.getD Config.fuseLcPending.toNat

/-- Entry to RETURN takes effect at this start (R517). -/
def State.entersReturn (s : State) : Bool := s.fusedLc = 3 && s.fget .secLc 0 ≠ 3

/-- Registers that a module reset leaves (R503, R536, R567): GLB but its time counter, PWR, the device number with its TGEN, the requested
debug level, and the link's clock mode. -/
def keptField (f : Fld) : Bool :=
  ((fldIn .glb f).isSome && f ≠ .glbTime) || (fldIn .pwr f).isSome || [Fld.flkIdSet, .flkIdDevnum, .flkIdTgen, .secDbgReq, .pciLinkSris].contains f

/-- What both kinds of start keep: T3 and its object table, non-volatile storage, fuses, pins, and temperatures. -/
def State.startBase (s : State) : State :=
  let gone := s.entersReturn
  { pending := s.pending, out := s.out, fresh := s.fresh, stamp := s.stamp, flash := if gone then [] else s.flash,
    objs := if gone then (s.objs.map fun e => (e.1, { e.2 with copies := [], retired := true })) else objsAfterStart s.objs,
    t3alloc := if gone then [] else s.t3alloc, ftl := if gone then {} else s.ftl, lostBlocks := if gone then [] else s.lostBlocks, epoch := s.epoch,
    flashLost := s.flashLost, flashStale := s.flashStale, flashTwice := s.flashTwice, pkgTemps := s.pkgTemps, temps := s.temps,
    ports := s.ports.map fun (e : Nat × Port) => (e.1, { present := e.2.present }), started := true, perst := s.perst, inputOk := s.inputOk,
    holdup := s.holdup, repairRecord := s.repairRecord, fuseLc := s.fuseLc, fuseUds := s.fuseUds, returnErase := gone || s.returnErase,
    tap := s.tap, preload := s.preload }

/-- The SEC block after a start (R513 to R520, R526, R533): lifecycle, levels, a fresh challenge, measurements, keys. -/
def State.secStart (s : State) (old : State) (sigOk : Nat) : State :=
  let lc := old.fusedLc
  let prov := s.fuseUds || Config.fuseProvisioned = 1
  let grant := if lc = 2 then 1 else 2
  let chal := s.conditioned 32
  let s1 := ((((chal.1.fset .secLc 0 lc).fset .secLcPending 0 lc).fset .secLcProvisioned 0 (if prov then 1 else 0)).fset .secDbgGrant 0 grant).fset
    .secDbgApplied 0 (min grant (s.fget .secDbgReq 0))
  let s2 := (List.range 8).foldl (fun t i => t.fset .secChal i (fld chal.2 (4 * i) 4)) s1
  let s3 := (List.range 4).foldl (fun t i => (List.range 12).foldl (fun u w =>
    u.fset .secMeas (12 * i + w) (fld (toBytes 48 (Config.imageDigest i).toNat) (4 * w) 4)) t) s2
  ((((s3.fset .secSigok 0 sigOk).fset .secIdIdkey 0 (if lc = 0 then 0 else 1)).fset .secIdAlias 0 (if lc = 0 then 0 else 1))).fset .secDbgJtag 0
    (if s.tap = .dbgAccess then 1 else 0)

/-- What FTL and PCI_BOARD show again of facts that outlive a reset (R298, R308, R563), and T3 use of the references left (R249). -/
def State.showFacts (s : State) : State :=
  let s1 := (List.range 16).foldl (fun t c => if s.flashLost.testBit c then t.fset .ftlChLost c 1 else t) (s.fset .ftlChstatus 0 s.flashLost)
  let s2 := match s.holdup with
    | none => s1
    | some e => ((s1.fset .pciBoardHoldupE 0 e).fset .pciBoardHoldupOk 0 (if e ≥ 40 then 1 else 0)).fset .pciBoardHoldupLow 0 (if e < 40 then 1 else 0)
  let s3 := if s2.swOpen then s2.fset .pciBoardSwopen 0 1 else s2
  s3.objs.foldl (fun (t : State) (e : Nat × Obj) => e.2.copies.foldl (fun (u : State) (c : Copy) =>
    c.refs.foldl (fun (v : State) (r : Ref) => v.charge r.part 3 e.2.bytes) u) t) s3

/-- MCLK begins at PWR_MCLK_MAX in every quadrant (DESIGN CHOICE). -/
def State.startClocks (s : State) : State :=
  s.setPwr fun x => { x with mclk := (List.range 4).foldl (fun m q => SMap.set 1500 m q (s.fget .pwrMclkMax 0)) [] }

/-! ## Cold start (R506) -/

/-- Physical positions of a quadrant that carry its logical skeins, ascending, from its failed positions (R23); DESIGN CHOICE: with none
failed the highest is the spare. -/
def goodPositions (fails : List (Nat × Nat)) (q : Nat) : List Nat :=
  (List.range 17).filter fun i => !fails.any fun f => f.1 = q && f.2 = i

/-- Skeins of a quadrant are chosen (R23, R544). -/
def State.chooseSkeins (s : State) (fails : List (Nat × Nat)) (q : Nat) : State :=
  let good := goodPositions fails q
  let s1 := (good.take 16).zipIdx.foldl (fun (t : State) (x : Nat × Nat) => { t with phys := SMap.set 0 t.phys (16 * q + x.2) (q + 4 * x.1) }) s
  let mask := (List.range 17).foldl (fun a i => if good.contains i then a else a ||| 2 ^ i) 0
  let s2 := s1.fset .bistPhysFailpos q mask
  match good[16]? with
  | some sp => s2.fset .bistPhysSpare q sp
  | none =>
    let out := (List.range 16).foldl (fun a i => if i < good.length then a else a ||| 2 ^ (16 * q + i)) 0
    { s2 with spareUsed := s2.spareUsed ||| 2 ^ q, outSkeins := s2.outSkeins ||| out }

/-- Stacks that do not train and channels that fail the start-up test are mapped out with causes 2 and 3 (R242, R505). -/
def State.startChannels (s : State) (dead : List Nat) (bad : List Nat) : State :=
  let s1 := dead.foldl (fun (t : State) k => (List.range' (32 * k) 32).foldl (fun (u : State) c => u.millMapOut c 2) t) s
  bad.foldl (fun (t : State) c => t.millMapOut c 3) s1

/-- Entry 0 of the change log (R390, R575). -/
def State.logStart (s : State) : State :=
  s.logMill 0xFF 1 [] (toBytes 4 Config.firmware.toNat ++ toBytes 1 Config.fuseRev.toNat ++ toBytes 1 (s.fget .secLc 0) ++ toBytes 2 s.devnum)

/-- COLD_START: everything but T3 is as after its reset, then every function but FLASH and the ports comes up. -/
def State.coldStart (s : State) (f : StartFacts) : State :=
  let lost := s.journal.isSome && !s.entersReturn
  let base : State := { s.startBase with
    epoch := s.epoch + 1, journal := if lost then s.journal.map fun j => { j with objs := objsAfterStart j.objs } else none }
  -- the first start of all has no commit of the model's behind it
  let clean := if s.epoch = 0 then f.cleanCommit else s.commitDone
  let s1 := (base.fset .flkIdTgen 0 (Config.nvEpoch + base.epoch)).fset .glbResetCause 0 s.coldCause
  let s2 := ((s1.fset .pciLinkSris 0 (s.fget .pciLinkSris 0)).secStart s f.sigOk.toNat).fset .ftlStatusDirtystart 0 (if clean then 0 else 1)
  let s3 := (List.range 4).foldl (fun (t : State) q => t.chooseSkeins f.failPos q) s2
  let link := Config.linkTrained s3.fresh
  let s4 := (((s3.draw.fset .pciLinkSpeed 0 link.1.toNat).fset .pciLinkWidth 0 link.2.1.toNat).fset .pciLinkFlit 0 (if link.2.2 then 1 else 0)).fset
    .pciLinkLstate 0 3
  let s5 := (s4.logStart.startChannels (f.deadStacks.map (·.val)) (f.badChannels.map (·.val))).startClocks.showFacts
  (s5.showReady.setReady 0 true).refreshClocks

/-- COLD_START: it follows the qualification of the input and the release of PERST# (R506, R566), and needs the input removed after a
thermal trip (R501). -/
def execColdStart (facts : StartFacts) (s : State) : Res :=
  .next (if s.started || !s.inputOk || s.perst || s.tripPin || s.swOpen || s.seqStopped then s else s.coldStart facts)

/-! ## Module reset (R503, R512, R517) -/

/-- Every block but the always-on domain is reset; partitions dissolve, T1 and T2 copies are dropped, and the functions of the power state
in force come up again, PCIE with the link. -/
def State.moduleReset (s : State) (cause : Nat) : State :=
  let st := s.fget .pwrState 0
  let tested := s.bist.isSome
  let base : State := { s.startBase with
    regs := s.regs.filter fun e => keptField (Fld.ofNat (e.1 / 2 ^ 20)), changeLog := s.changeLog, changeNext := s.changeNext, phys := s.phys,
    spareUsed := s.spareUsed, outSkeins := s.outSkeins, pwr := s.pwr, authBad := s.authBad, eid := s.eid, dynAddr := s.dynAddr, smbus := s.smbus,
    coldCause := s.coldCause, swOpen := s.swOpen, quadStop := if st = 0 then 0 else 15, vidDrain := decide (st ≠ 0), mctpHeld := s.mctpHeld }
  let s1 := (base.fset .glbReadyStatus 0 0).secStart s (s.fget .secSigok 0)
  let s2 := (((s1.fset .glbResetCause 0 cause).fset .pwrWakeSourceSrc 0 5).fset .pwrWakeSourceFrom 0 0).fset .pwrStateBusy 0 0
  let s3 := (s2.fset .pwrStateTarget 0 st).fset .pciBoardBrake 0 (s.fget .pciBoardBrake 0)
  let s4 := (s3.fset .pciBoardAlert 0 (if s3.pwr.alert = 0 then 0 else 1)).fset .pciBoardSwopen 0 (s.fget .pciBoardSwopen 0)
  let s5 := (List.range 4).foldl (fun (t : State) q => (t.fset .bistPhysFailpos q (s.fget .bistPhysFailpos q)).fset .bistPhysSpare q
    (s.fget .bistPhysSpare q)) s4
  let s6 := if tested then s5.fset .bistStatusAbandoned 0 1 else s5
  s6.startClocks.showFacts.showReady.showVideo.refreshClocks

/-- A written value of GLB_RESET (R512) acts only with the key and MODULE. -/
def State.glbReset (s : State) (v : Nat) : State :=
  if s.started && s.fget .pwrStateStage 0 = 0 && v % 2 ^ 16 = 0x5A17 && bitAt v 16 then s.moduleReset 2 else s

/-- GLB_RESET. -/
def execGlbReset (value : BitVec 32) (s : State) : Res := .next (s.glbReset value.toNat)

/-- PERST_ASSERT (R566): a module reset while the module runs; during a shutdown it is recorded only. -/
def execPerstAssert (s : State) : Res :=
  .next (if s.perst then s
    else
      let s1 : State := { s with perst := true }
      if s.started && s.fget .pwrStateStage 0 = 0 then s1.moduleReset 1 else s1)

/-- PERST_DEASSERT (R567): before a cold start REFCLK is sampled; link training begins. -/
def execPerstDeassert (refclkToggling : Bool) (s : State) : Res :=
  .next (if !s.perst then s
    else
      let s1 : State := { s with perst := false }
      if s.started then s1.fset .pciLinkLstate 0 1 else s1.fset .pciLinkSris 0 (if refclkToggling then 0 else 1))

/-! ## The link (R503, R504, R556) -/

/-- PCIE_LINK_UP: the link is in L0 and configuration requests are answered. -/
def execPcieLinkUp (speed : BitVec 3) (width : BitVec 5) (flit : Bool) (s : State) : Res :=
  .next (if !s.started || s.perst || speed = 0 || speed = 7 || !(width = 8 || width = 16) then s
    else
      -- training corrects errors of the link (R557)
      let s1 := (((s.countCorrected .pciCorr 0).fset .pciLinkSpeed 0 speed.toNat).fset .pciLinkWidth 0 width.toNat).fset .pciLinkFlit 0 (if flit then 1 else 0)
      (s1.fset .pciLinkLstate 0 3).setReady 0 true)

/-- MSI-X and the translations of functions are as after reset. -/
def State.dropFuncs (s : State) (sel : Nat → Bool) : State :=
  { s with msixMask := dropKeys s.msixMask fun k => sel (k / 32), msixPend := dropKeys s.msixPend fun k => sel (k / 32),
           msixTable := dropKeys s.msixTable fun k => sel (k / 128), atc := s.atc.filter fun e => !sel e.1, d3hot := s.d3hot.filter fun n => !sel n }

/-- LINK_RESET (R503, R556): PCIe state and every cached translation of every function; host accesses outstanding end. Rings, mailboxes and
partitions stay. -/
def execLinkReset (s : State) : Res :=
  .next (if !s.started then s
    else
      let s1 : State := { (s.dropFuncs fun _ => true) with vfEnable := false, numVfs := 0, bars := [] }
      (((s1.setReady 0 false).fset .pciLinkSpeed 0 0).fset .pciLinkLstate 0 0).dropHostAccesses)

/-! ## Function reset (R503, R547) -/

/-- A VF is reset: started records of its rings end ABORTED without completion records or fences, its rings become DISABLED, its mailbox
GEN rises. -/
def State.resetVf (s : State) (p : Nat) : State :=
  let s1 := (List.range 16).foldl (fun (t : State) r => (t.stopRing (16 * p + r) false).endJob (16 * p + r)) s
  ((s1.settleJobs p).raiseGen p).dropFuncs (· = p + 1)

/-- Every VF is reset. -/
def State.resetVfs (s : State) : State := (List.range 64).foldl (fun t p => t.resetVf p) s

/-- FUNCTION_RESET: of PF0 it acts on every VF. -/
def execFunctionReset (f : Func) (s : State) : Res :=
  .next (if !s.started then s
    else match f with
    | .vf p => (s.resetVf p).fadd .pciFlr 0 1
    | .pf0 => ({ ((s.resetVfs.raiseGen 64).dropFuncs (· = 0)) with vfEnable := false, numVfs := 0, bars := [] } : State).fadd .pciFlr 0 1)

/-- VF_ENABLE_CLEAR (R547): a function reset of every VF. -/
def execVfEnableClear (s : State) : Res :=
  .next (if !s.started || !s.vfEnable then s else { s.resetVfs with vfEnable := false }.fadd .pciFlr 0 64)

end Sys2Proof.Machine
end

