-- ==== Sys2Proof/Machine/Secure.lean ====
section
/-! DEFINITION. Lifecycle (R513 to R516), measurement and the Krovver report (R518 to R522), SPDM (R523 to R525), debug levels, debug
window, SEC_HALT, JTAG and console (R526 to R534). -/

namespace Sys2Proof.Machine

/-! ## Lifecycle (R514 to R516) -/

/-- The transitions of R515. -/
def lcStep (a b : Nat) : Bool := [(0, 1), (1, 2), (1, 3), (2, 3)].contains (a, b)

/-- The message that an Ardetus signature covers (R516). -/
def State.lcMessage (s : State) (target : Nat) : List Byte :=
  [0x78, 0x69, 0x6F, 0x74, 0x68, 0x2D, 0x6C, 0x63] ++ toBytes 8 Config.serial.toNat ++ toBytes 1 (s.fget .secLcPending 0) ++ toBytes 1 target ++
    (List.range 8).flatMap fun i => toBytes 4 (s.fget .secChal i)

/-- A fresh challenge (R516). -/
def State.newChallenge (s : State) : State :=
  let chal := s.conditioned 32
  (List.range 8).foldl (fun t i => t.fset .secChal i (fld chal.2 (4 * i) 4)) chal.1

/-- LC and PENDING as the change log holds them (R575). -/
def State.lcSide (s : State) : List Byte := toBytes 1 (s.fget .secLc 0) ++ toBytes 1 (s.fget .secLcPending 0)

/-- An AUTH answer (R515). -/
def State.authFails (s : State) : State × Ans := ({ s with authBad := s.authBad + 1 }.fadd .secAuthfail 0 1, .now 0x11 [])

/-- LIFECYCLE_SET (R515). -/
def cmdLifecycleSet (s : State) (m : Nat) (r : MbxReq) : State × Ans :=
  let t := byteAt r.data 16
  let pend := s.fget .secLcPending 0
  let auth := (r.data.drop 32).take 96
  if s.authBad ≥ 16 then (s.fadd .secAuthfail 0 1, .now 0x11 [])
  else if t = pend then (s.logCmd m r 0xB s.lcSide s.lcSide, .logged [])
  else if !lcStep pend t then (s, .now 1 (toBytes 2 16))
  else if pend = 0 && s.noiseFailed then (s, .now 0xF [])
  else
    let signed := !(pend = 1 && t = 2)
    let s1 := if signed then s.newChallenge else s
    if (if signed then !Config.lifecycleSig auth (s.lcMessage t) else auth.any (· ≠ 0)) then s1.authFails
    else
      let s2 : State := { s1 with fuseLc := some t, fuseUds := s1.fuseUds || pend = 0 }
      let s3 := (s2.fset .secLcPending 0 t).fset .secLcProvisioned 0 (if pend = 0 then 1 else s2.fget .secLcProvisioned 0)
      ((if pend = 0 then s3.draw else s3).logCmd m r 0xB s.lcSide s3.lcSide, .logged [])

/-- LIFECYCLE_SET. -/
def execLifecycleSet (m : Mbx) (s : State) : Res := .next (s.runCommand m 0x502 cmdLifecycleSet)

/-! ## Measurement (R518 to R522) -/

/-- Measurement i of R518. -/
def measurement (i : Nat) : List Byte := toBytes 48 (Config.imageDigest i).toNat

/-- A signature by the alias key (R520): r then s, big-endian. -/
def State.aliasSign (s : State) (msg : List Byte) : State × List Byte :=
  (s.draw.fadd .secSigns 0 1, toBytesBE 96 (Config.aliasSign s.fresh (sha384 msg)).toNat)

/-- Bytes 0 to 415 of the Krovver report (R522). -/
def State.reportBody (s : State) (nonce : List Byte) (part : Nat) : List Byte :=
  let lc := s.fget .secLc 0
  padTo 416 (toBytes 4 0x5650524B ++ toBytes 2 1 ++ toBytes 2 512 ++ padTo 32 nonce ++ toBytes 8 Config.serial.toNat ++ toBytes 2 s.devnum ++
    toBytes 1 part ++ s.lcSide ++ toBytes 1 (s.fget .secDbgReq 0) ++ toBytes 1 (s.fget .secDbgApplied 0) ++ toBytes 1 Config.fuseRev.toNat ++
    toBytes 4 Config.firmware.toNat ++ toBytes 4 (s.fget .secRomrev 0) ++ toBytes 8 (s.changeNext + 2 ^ 64 - 1) ++ toBytes 8 s.time ++ s.chain ++
    (List.range 4).flatMap measurement ++ toBytes 48 (Config.aliasHash lc).toNat ++ [if lc = 0 then 0 else 1] ++ toBytes 1 (s.fget .secSigok 0))

/-- MEASURE (R522). -/
def cmdMeasure (s : State) (m : Nat) (r : MbxReq) : State × Ans :=
  let va := fld r.data 48 6
  let part := byteAt r.data 5
  let out (n : Nat) : List Byte := toBytes 1 (s.fget .secLc 0) ++ toBytes 1 (s.fget .secDbgReq 0) ++ toBytes 1 (s.fget .secDbgApplied 0) ++ [0] ++
    toBytes 4 n ++ (List.range 4).flatMap measurement
  if va = 0 then (s, .now 0 (out 0))
  else match s.cmdProbe m part va 512 with
    | (s1, some a) => (s1, a)
    | (s1, none) =>
      let body := s1.reportBody ((r.data.drop 16).take 32) part
      let (s2, sig) := if s1.fget .secLc 0 = 0 then (s1, List.replicate 96 0) else s1.aliasSign body
      (s2.vstoreGo part va (body ++ sig) 3, .now 0 (out 512))

/-- MEASURE. -/
def execMeasure (m : Mbx) (s : State) : Res := .next (s.runCommand m 0x501 cmdMeasure)

/-- CERT_GET (R521). -/
def cmdCertGet (s : State) (m : Nat) (r : MbxReq) : State × Ans :=
  let i := byteAt r.data 16
  let lc := s.fget .secLc 0
  let part := byteAt r.data 5
  if lc = 0 || i > 3 then (s, .now 5 [])
  else
    let cert := Config.certificate i lc
    match s.cmdProbe m part (fld r.data 24 6) cert.length with
    | (s1, some a) => (s1, a)
    | (s1, none) => (s1.vstoreGo part (fld r.data 24 6) cert (cert.length / 4096 + 2), .now 0 (toBytes 4 cert.length ++ [4]))

/-- CERT_GET. -/
def execCertGet (m : Mbx) (s : State) : Res := .next (s.runCommand m 0x504 cmdCertGet)

/-! ## SPDM (R523 to R525) -/

def State.spdmConn (s : State) : Transport → SpdmConn
  | .doe => s.doeConn
  | .mctp => s.mctpConn
def State.setSpdm (s : State) (t : Transport) (f : SpdmConn → SpdmConn) : State :=
  match t with
  | .doe => { s with doeConn := f s.doeConn }
  | .mctp => { s with mctpConn := f s.mctpConn }

/-- An SPDM request takes place where the mill serves it; by DOE in P4 it only sets the DOE Error bit (R525). -/
def State.spdm (s : State) (t : Transport) (f : State → State × SpdmReply) : State :=
  if s.started && s.fget .pwrState 0 = 4 && t = .doe then { s with doeError := true }
  else if !s.millUp then s
  else
    let q := f s
    q.1.emit (.spdm (t == .doe) q.2)

/-- A request other than GET_VERSION needs its step of the connection (DMTF): ERROR UnexpectedRequest. -/
def State.spdmAt (s : State) (t : Transport) (phase : Nat) (f : State → State × SpdmReply) : State :=
  s.spdm t fun u => if (u.spdmConn t).phase < phase then (u, .error 4) else f u

/-- GET_VERSION: 1.2 and 1.3; the connection starts again. -/
def execGetVersion (t : Transport) (s : State) : Res :=
  .next (s.spdm t fun u => (u.setSpdm t fun _ => { phase := 1 }, .version [0x12, 0x13]))

/-- GET_CAPABILITIES. -/
def execGetCapabilities (t : Transport) (version : BitVec 8) (s : State) : Res :=
  .next (s.spdmAt t 1 fun u =>
    if version = 0x12 || version = 0x13 then (u.setSpdm t fun _ => { phase := 2, version := version.toNat }, .capabilities version.toNat)
    else (u, .error 0x41))

/-- NEGOTIATE_ALGORITHMS: ECDSA P-384 and SHA-384, or none in common. -/
def execNegotiateAlgorithms (t : Transport) (asym hash : BitVec 32) (s : State) : Res :=
  .next (s.spdmAt t 2 fun u =>
    if bitAt asym.toNat 7 && bitAt hash.toNat 1 then (u.setSpdm t fun c => { c with phase := 3 }, .algorithms 0x80 2) else (u, .error 1))

/-- The chain of slot 0, root first (R521, R523). -/
def State.certChain (s : State) : List Byte := [3, 2, 1, 0].flatMap fun i => Config.certificate i (s.fget .secLc 0)

/-- GET_DIGESTS; in BLANK no slot holds a chain. -/
def execGetDigests (t : Transport) (s : State) : Res :=
  .next (s.spdmAt t 3 fun u => (u, .digests (if u.fget .secLc 0 = 0 then [] else [sha384 u.certChain])))

/-- GET_CERTIFICATE. -/
def execGetCertificate (t : Transport) (slot : BitVec 4) (offset length : BitVec 16) (s : State) : Res :=
  .next (s.spdmAt t 3 fun u =>
    let chain := u.certChain
    let part := (chain.drop offset.toNat).take length.toNat
    if u.fget .secLc 0 = 0 then (u, .error 5)
    else if slot ≠ 0 || offset.toNat ≥ chain.length then (u, .error 1)
    else (u, .certificate 0 part (chain.length - offset.toNat - part.length)))

/-- CHALLENGE. -/
def execChallenge (t : Transport) (slot : BitVec 8) (nonce : BitVec 256) (s : State) : Res :=
  .next (s.spdmAt t 3 fun u =>
    if u.fget .secLc 0 = 0 then (u, .error 5)
    else if slot ≠ 0 then (u, .error 1)
    else
      let own := u.conditioned 32
      let q := own.1.aliasSign (toBytes 32 nonce.toNat ++ own.2)
      (q.1, .challengeAuth 0 (sha384 u.certChain) own.2 q.2))

/-- The measurement blocks of R524: index, value type, value. -/
def State.spdmBlocks (s : State) : List (Nat × Nat × List Byte) :=
  [(1, 0, measurement 4), (2, 1, measurement 0), (3, 1, measurement 1), (4, 1, measurement 2), (5, 1, measurement 3),
   (6, 2, s.lcSide ++ toBytes 1 (s.fget .secDbgReq 0) ++ toBytes 1 (s.fget .secDbgApplied 0)),
   (7, 3, toBytes 8 (s.changeNext + 2 ^ 64 - 1) ++ s.chain)]

/-- GET_MEASUREMENTS: index 0 asks for their number, 0xFF for all; in BLANK only without a signature. -/
def execGetMeasurements (t : Transport) (index : BitVec 8) (sign : Bool) (nonce : BitVec 256) (s : State) : Res :=
  .next (s.spdmAt t 3 fun u =>
    let i := index.toNat
    if sign && u.fget .secLc 0 = 0 then (u, .error 5)
    else if i > 7 && i ≠ 0xFF then (u, .error 1)
    else
      let l := u.spdmBlocks.filter fun b => i = 0xFF || b.1 = i
      if sign then
        let q := u.aliasSign (toBytes 32 nonce.toNat ++ l.flatMap fun b => b.2.2)
        (q.1, .measurements 7 l q.2)
      else (u, .measurements 7 l []))

/-- SPDM_UNSUPPORTED_REQUEST: ERROR UnsupportedRequest. -/
def execSpdmUnsupportedRequest (t : Transport) (_code : BitVec 8) (s : State) : Res := .next (s.spdm t fun u => (u, .error 7))

/-- DOE_DISCOVERY (R525): vendor ID 0x0001, data object types 0x00 and 0x01. -/
def execDoeDiscovery (index : BitVec 8) (s : State) : Res :=
  .next (if s.started && s.fget .pwrState 0 = 4 then { s with doeError := true }
    else if !s.millUp then s
    else s.emit (.doe (if index.toNat = 0 then [1, 0, 0, 1] else if index.toNat = 1 then [1, 0, 1, 0] else [0xFF, 0xFF, 0, 0])))

/-! ## Debug levels (R526, R527, R533) -/

/-- Threads that the debugger holds end their tasks with BREAK (R527). -/
def State.endHalted (s : State) : State :=
  s.ctasks.foldl (fun (t : State) (e : Nat × Task) =>
    let h := t.thread e.1
    let held := h.halted || (match h.wait with
      | .break => true
      | _ => false)
    if e.2.active && e.2.outcome.isNone && held then (t.setThread e.1 fun x => { x with halted := false, wait := .none }).stopThread e.1 6 else t)
    { s with halts := [] }

/-- The requested level changes, and the applied level is formed again. -/
def State.setDebug (s : State) (v : Nat) : State :=
  let old := s.fget .secDbgApplied 0
  let now := min v (s.fget .secDbgGrant 0)
  let s1 := (s.fset .secDbgReq 0 v).fset .secDbgApplied 0 now
  let s2 := if now < old then s1.endHalted else s1
  if now = 0 then s2.fset .secDbgTrace 0 0 else s2

/-- Levels as the change log holds them (R526). -/
def State.debugSide (s : State) : List Byte := toBytes 1 (s.fget .secDbgReq 0) ++ toBytes 1 (s.fget .secDbgApplied 0)

/-- DEBUG_SET (R526). -/
def cmdDebugSet (s : State) (m : Nat) (r : MbxReq) : State × Ans :=
  let s1 := s.setDebug (byteAt r.data 16)
  (s1.logCmd m r 0xC s.debugSide s1.debugSide, .logged (toBytes 1 (s1.fget .secDbgApplied 0)))

/-- DEBUG_SET. -/
def execDebugSet (m : Mbx) (s : State) : Res := .next (s.runCommand m 0x503 cmdDebugSet)

/-! ## Debug window (R528, R534) -/

/-- The level and the power state let a debugger reach a DPA (R528, R534). -/
def State.debugReaches (s : State) (dpa : Nat) (write : Bool) : Bool :=
  let lv := s.fget .secDbgApplied 0
  let st := s.fget .pwrState 0
  match s.region dpa with
  | .regs b _ off =>
    (lv = 2 || (lv = 1 && !write && !(b = .skn && 0x8000 ≤ off && off < 0x9000))) && st ≤ (if (blkQuad b 0).isSome then 1 else 3)
  | .t1 | .core _ | .local _ | .skein _ => lv = 2 && st ≤ 1
  | .t2 => lv = 2 && st ≤ 3
  | .unbacked => false

/-- What a debugger reads at a DPA: a register, memory, or the states of whorl lanes. -/
def State.debugRead (s : State) (dpa n : Nat) : Nat :=
  match s.region dpa with
  | .regs b i off =>
    if b = .skn && 0x8000 ≤ off && off < 0x9000 && (regAt b off).isNone then
      (Config.laneView off ((List.range 64).map fun l => (SMap.get {} s.lanes (64 * i + l)).s)).toNat % 2 ^ (8 * n)
    else s.regRead b i off (n = 8)
  | _ => ofBytes (s.ld dpa n)

/-- Halt a thread (R532, R534): at its next instruction boundary in P0, else held until P0. -/
def State.haltThread (s : State) (t : Nat) : State :=
  if s.fget .pwrState 0 ≠ 0 then { s with halts := s.halts.filter (· ≠ t) ++ [t] }
  else if (s.ctask t).active then s.setThread t fun h => { h with halted := true } else s

/-- Resume a thread (R532): one that was halted goes on, and one that EBREAK stopped. -/
def State.resumeThread (s : State) (t : Nat) : State :=
  let v : State := { s with halts := s.halts.filter (· ≠ t) }
  v.setThread t fun h => { h with halted := false, wait := match h.wait with
    | .break => .none
    | w => w }

/-- A written value of SEC_HALT (R536): with both bits, or neither, nothing. -/
def State.haltWrite (s : State) (v : Nat) : State :=
  let t := 8 * bitField v 0 11 + bitField v 11 3
  if bitAt v 14 = bitAt v 15 then s else if bitAt v 14 then s.haltThread t else s.resumeThread t

/-- A debugger's write of a register (R528): the effect of a write there, triggers included. STRM_P_ARRIVE ignores PF0 (R273), and
collectives are a carding thread's to start (R439). -/
def State.debugReg (s : State) (b : Blk) (inst off : Nat) (wide : Bool) (v : Nat) : State :=
  let l := Loc.reg b inst off
  let fl := s.fget .mcrFlags inst
  if (locHits l .mcrFlagSet).isSome then s.for' .mcrFlags inst (v % 65536)
  else if (locHits l .mcrFlagClr).isSome then s.fset .mcrFlags inst (fl - (fl &&& v))
  else if (locHits l .sknWhorlCmdLane).isSome then s.whorlWrite inst v
  else if (locHits l .vidCoreEn).isSome then s.fset .vidCoreEn 0 (v % 2 ^ 24)
  else if (locHits l .glbResetKey).isSome then s.glbReset v
  else if (locHits l .secHaltCore).isSome then s.haltWrite v
  else s.regWrite b inst off wide v

/-- What a debugger writes at a DPA; 64 bits at two 32-bit registers write both, the lower first. -/
def State.debugWrite (s : State) (dpa n v : Nat) : State :=
  match s.region dpa with
  | .regs b i off =>
    if n = 8 && !(regAt b off).any (·.row.wide) then
      (s.debugReg b i off false (v % 2 ^ 32)).debugReg b i (off + 4) false (v / 2 ^ 32)
    else s.debugReg b i off (n = 8) v
  | _ => (s.soil dpa).st dpa (toBytes n v)

/-- An access through the aperture, by the window or by JTAG: the state, and the value read. -/
def State.aperture (s : State) (dpa n : Nat) (write : Option Nat) : State × Nat :=
  if !s.debugReaches dpa write.isSome then (s.fadd .secDbgdeny 0 1, 2 ^ (8 * n) - 1)
  else match write with
    | some v => (s.debugWrite dpa n v, 0)
    | none => (s, s.debugRead dpa n)

/-- The trace buffer may be read (R528, R534). -/
def State.traceOpen (s : State) : Bool := s.fget .secDbgApplied 0 ≠ 0 && s.fget .pwrState 0 ≠ 4

/-- DEBUG_APERTURE_ACCESS: an access to PF BAR0 from 0x800_0000 on, of 4 or 8 aligned bytes. -/
def execDebugApertureAccess (off : BitVec 28) (wide : Bool) (write : Option (BitVec 64)) (s : State) : Res :=
  .next (
    let o := off.toNat
    let n := if wide then 8 else 4
    let q : Option (State × Nat) :=
      if !s.started || o < 0x8000000 || o % n ≠ 0 then none
      else if o < 0x9000000 then
        (if s.traceOpen && write.isNone then some (s, ofBytes (s.ld (traceBase + (o - 0x8000000)) n)) else some (s.fadd .secDbgdeny 0 1, 2 ^ (8 * n) - 1))
      else if o < 0xC000000 then some (s.pciError .pciUnmapped, 0)
      else some (s.aperture ((s.fget .secAper 0 + (o - 0xC000000)) % 2 ^ 52) n (write.map fun v => v.toNat % 2 ^ (8 * n)))
    if s.asleep .pf0 then s.unsupported write.isSome
    else match q with
      | none => s
      | some (t, v) => if write.isSome then t else t.emit (.readData n v))

/-! ## SEC_HALT (R532, R534) -/

/-- A write of SEC_HALT that is refused is counted; in P4 it is discarded. -/
def State.secHalt (s : State) (f : State → State) : State :=
  if !s.started || s.fget .pwrState 0 = 4 then s
  else if s.fget .secDbgApplied 0 ≠ 2 then s.fadd .secDbgdeny 0 1
  else f s

/-- SEC_HALT_HALT. -/
def execSecHaltHalt (t : ThreadId) (s : State) : Res := .next (s.secHalt fun u => u.haltThread t.num)

/-- SEC_HALT_RESUME. -/
def execSecHaltResume (t : ThreadId) (s : State) : Res := .next (s.secHalt fun u => u.resumeThread t.num)

/-! ## JTAG (R530) and the console (R531) -/

/-- Low bits of a number, least significant first. -/
def bitsOf (n v : Nat) : List Bool := (List.range n).map fun i => v.testBit i

/-- Select an instruction: SEC_DBG.JTAG reads 1 while it is DBG_ACCESS. -/
def State.setTap (s : State) (i : TapInstr) : State :=
  ({ s with tap := i } : State).fset .secDbgJtag 0 (if i = .dbgAccess then 1 else 0)

/-- BYPASS: one stage, which captures 0. -/
def State.tapBypass (s : State) : State := (s.setTap .bypass).emit (.jtag [false])

/-- BYPASS. -/
def execBypass (s : State) : Res := .next s.tapBypass

/-- SAMPLE_PRELOAD: below FULL it acts as BYPASS. -/
def execSamplePreload (preload : List Bool) (s : State) : Res :=
  .next (if s.fget .secDbgApplied 0 = 2 then
      (({ s.draw with preload := preload } : State).setTap .samplePreload).emit (.jtag (Config.boundary s.fresh))
    else s.tapBypass)

/-- EXTEST: at FULL with no partition formed the preloaded bits drive the pins. -/
def execExtest (s : State) : Res :=
  .next (if s.fget .secDbgApplied 0 = 2 && s.formedParts.isEmpty then (s.setTap .extest).emit (.boundary s.preload) else s.tapBypass)

/-- XIDENT: part, revision and lifecycle. -/
def execXident (s : State) : Res :=
  .next ((s.setTap .xident).emit (.jtag (bitsOf 32 (0x0940 * 2 ^ 16 + Config.fuseRev.toNat * 2 ^ 8 + s.fget .secLc 0))))

/-- DBG_ACCESS: 4 bytes at SEC_APER plus the offset, as R528 allows, and the trace buffer. -/
def execDbgAccess (value : BitVec 96) (s : State) : Res :=
  .next (
    let v := value.toNat
    let dpa := (s.fget .secAper 0 + v % 2 ^ 52) % 2 ^ 52
    let write := v.testBit 52
    let s1 := s.setTap .dbgAccess
    if s.fget .secDbgApplied 0 = 0 || dpa % 4 ≠ 0 then (s1.fadd .secDbgdeny 0 1).emit (.jtag (bitsOf 96 (2 ^ 96 - 1)))
    else if !write && s.traceOpen && traceBase ≤ dpa && dpa < sysRegionSize then
      s1.emit (.jtag (bitsOf 96 (v % 2 ^ 64 + ofBytes (s.ld dpa 4) * 2 ^ 64)))
    else if !s.debugReaches dpa write then (s1.fadd .secDbgdeny 0 1).emit (.jtag (bitsOf 96 (2 ^ 96 - 1)))
    else if write then (s1.debugWrite dpa 4 (v / 2 ^ 64)).emit (.jtag (bitsOf 96 v))
    else s1.emit (.jtag (bitsOf 96 (v % 2 ^ 64 + s.debugRead dpa 4 * 2 ^ 64))))

/-- UART_COMMAND: read-only status commands at MILL, every command at FULL; silent in P4. What the firmware prints is free. -/
def execUartCommand (readOnlyStatus : Bool) (_line : List Byte) (s : State) : Res :=
  .next (if !s.millUp || s.fget .pwrState 0 = 4 then s
    else if s.fget .secDbgApplied 0 = 2 || (s.fget .secDbgApplied 0 = 1 && readOnlyStatus) then s.draw.emit (.uart (Config.consoleText s.fresh))
    else s)

end Sys2Proof.Machine
end

