-- ==== Sys2Proof/Machine/SelfTest.lean ====
section
/-! DEFINITION. The built-in self-test (R537 to R545): BIST_RUN, its end, and BIST_QUERY. -/

namespace Sys2Proof.Machine

/-! ## Units and signatures (R537, R541) -/

/-- Units that a scope names, in the order of R541: 0 to 63 skeins, 64 to 71 stks, 72 IOD-N, 73 IOD-S. `arg` is the mask or the stack. -/
def bistUnits (scope arg : Nat) : List Nat :=
  match scope with
  | 0 => skeinsOf arg
  | 1 => [64 + arg % 8]
  | 2 => [72]
  | 3 => [73]
  | _ => List.range 74

/-- Kind of a unit: 0 skein, 1 stack, 2 IOD-N, 3 IOD-S. -/
def bistKind (u : Nat) : Nat := if u < 64 then 0 else if u < 72 then 1 else u - 70

/-- 128-bit rotation to the left (R541). -/
def rotl128 (v n : Nat) : Nat := v * 2 ^ (n % 128) % 2 ^ 128 + v / 2 ^ (128 - n % 128)

/-- The signature of a run (R541): the unit signatures in order, each rotated by 8 bits for each unit before it, modulo 16. -/
def bistFold (l : List Nat) : Nat := l.zipIdx.foldl (fun a x => a ^^^ rotl128 x.1 (8 * (x.2 % 16))) 0

/-- The published signature of a unit (R542). -/
def bistExpected (kind u : Nat) : Nat := (Config.bistSignature (bistKind u) kind).toNat

/-- The signature of a faulty unit: any other than the published one (R541); the value is free. -/
def bistBad (n kind u : Nat) : Nat :=
  let x := (Config.bistFaulty n).toNat
  if x = bistExpected kind u then (x + 1) % 2 ^ 128 else x

/-- What a run finds: units that fail, channels, video cores, and repairs made. -/
structure BistFound where
  units : List Nat
  channels : List Nat
  video : List Nat
  repairs : Nat
  deriving DecidableEq, Repr

/-- The findings that lie in the units of a scope (R537); a stack fails with its channels, an I/O die with its video cores. -/
def BistFound.within (f : BistFound) (units : List Nat) : BistFound :=
  let ch := f.channels.filter fun c => units.contains (64 + c / 32)
  let vid := f.video.filter fun k => units.contains (72 + k / 12)
  let all := f.units ++ ch.map (fun c => 64 + c / 32) ++ vid.map fun k => 72 + k / 12
  { f with units := units.filter all.contains, channels := ch.eraseDups, video := vid.eraseDups }

/-! ## BIST_RUN -/

/-- Why a BIST_RUN is refused (R538): DENIED, JOB_RUNNING or CONFLICT. -/
def State.bistRefusal (s : State) (m : Nat) (d : List Byte) : Option Nat :=
  let mask := fld d 24 8
  if byteAt d 17 = 0 then
    if m < 64 && (mask &&& (s.part m).mask) ≠ mask then some 2
    else if (skeinsOf mask).any fun k => (s.holder k).any s.jobOpen then some 0x13
    else none
  else if m < 64 then some 2
  else if !s.formedParts.isEmpty then some 4
  else none

/-- Skeins that a run tests. -/
def bistMaskOf (scope arg : Nat) : Nat := if scope = 0 then arg else if scope = 4 then 2 ^ 64 - 1 else 0

/-- Running frames of an I/O die under test stop with ABORTED (R539). -/
def State.stopDieVideo (s : State) (scope : Nat) : State :=
  s.vframes.foldl (fun (t : State) (f : VFrame) =>
    if (f.cores.any fun k => scope = 4 || scope = 2 + k / 12) && scope ≥ 2 then
      t.setVid f.ring f.idx fun j => if j.stopping then j else { j with stopping := true, stop := 5 }
    else t) s

/-- A test starts (R539, R545). -/
def State.bistStart (s : State) (m : Nat) (r : MbxReq) : State :=
  let kind := byteAt r.data 16
  let scope := byteAt r.data 17
  let arg := fld r.data 24 8
  let mask := bistMaskOf scope arg
  let s1 : State := { s with bist := some { mbx := m, stamp := r.stamp, kind := kind, scope := scope, mask := arg }, testSkeins := mask }
  let s2 := (((s1.fset .bistStatusRunning 0 1).fset .bistStatusScope 0 scope).fset .bistStatusKind 0 kind).fset .bistMask 0 mask
  (s2.stopDieVideo scope).refreshClocks

/-- BIST_RUN: one at a time, in P0. -/
def cmdBistRun (s : State) (m : Nat) (r : MbxReq) : State × Ans :=
  if s.bist.isSome || s.fget .pwrState 0 ≠ 0 || s.quadStop ≠ 0 || s.fget .pwrStateStage 0 ≠ 0 then (s, .later)
  else match s.bistRefusal m r.data with
    | some e => (s, .now e [])
    | none => (s.bistStart m r, .running [])

/-- BIST_RUN. -/
def execBistRun (m : Mbx) (s : State) : Res := .next (s.runCommand m 0x801 cmdBistRun)

/-- BIST_QUERY: the running test's SCOPE and mask. -/
def cmdBistQuery (s : State) (_m : Nat) (_r : MbxReq) : State × Ans :=
  (s, .now 0 (match s.bist with
    | some b => toBytes 1 1 ++ toBytes 1 b.scope ++ toBytes 6 0 ++ toBytes 8 b.mask
    | none => toBytes 16 0))

/-- BIST_QUERY. -/
def execBistQuery (m : Mbx) (s : State) : Res := .next (s.runCommand m 0x802 cmdBistQuery)

/-! ## The end of a test (R541 to R545) -/

/-- A skein leaves service. Rings of a partition that has none left become DISABLED (R543). -/
def State.retireSkein (s : State) (k : Nat) : State :=
  let s1 : State := { s.releaseSkeins (2 ^ k) with outSkeins := s.outSkeins ||| 2 ^ k }
  match s.holder k with
  | none => s1
  | some p =>
    let rest := (s.skeins p).filter (· ≠ k)
    let s2 := s1.setPart p fun x => { x with mask := x.mask - (x.mask &&& 2 ^ k), order := rest }
    if rest.isEmpty then (List.range 16).foldl (fun (t : State) i => t.stopRing (16 * p + i) true) s2 else s2

/-- A skein that fails its test (R543): replaced under R469 where a partition holds it, else out of service. -/
def State.bistSkeinFails (s : State) (failed : List Nat) (k : Nat) : State :=
  let phys := SMap.get 0 s.phys k
  let u := unitWord 1 k
  if s.outSkeins.testBit k then s
  else match s.holder k with
    | none => (s.retireSkein k).logFault { cls := 1, action := 3, unit := u, phys := phys }
    | some p =>
      let q := s.replaceSkein p k failed
      if q.2 = 9 then (s.retireSkein k).logFault { cls := 1, part := p, action := 3, unit := u, phys := phys }
      else q.1.logFault { cls := 1, part := p, action := q.2, unit := u, phys := phys }

/-- A video core that fails its test reads OFF (R543). -/
def State.bistVideoFails (s : State) (k : Nat) : State :=
  let s1 : State := if s.vidDead.contains k then s else { s with vidDead := k :: s.vidDead }
  (s1.fset .vidCStatusState k 3).logFault { cls := 6, unit := unitWord 8 k }

/-- Other logic of an I/O die fails: it is logged (R543). -/
def State.bistIodFails (s : State) (d : Nat) : State := s.logFault { cls := 7, unit := (Config.iodUnit d).toNat }

/-- Every failing unit is handled (R543); `iods` are the dies whose other logic failed. -/
def State.bistHandle (s : State) (f : BistFound) (iods : List Nat) : State :=
  let skeins := f.units.filter (· < 64)
  let s1 := skeins.foldl (fun (t : State) k => t.bistSkeinFails skeins k) s
  let s2 := f.channels.foldl (fun (t : State) c => t.millMapOut c 3) s1
  let s3 := f.video.foldl (fun (t : State) k => t.bistVideoFails k) s2
  iods.foldl (fun (t : State) d => t.bistIodFails d) s3

/-- Unit signatures of a run, in order. -/
def bistSigs (fresh kind : Nat) (units failing : List Nat) : List Nat :=
  units.zipIdx.map fun x => if failing.contains x.1 then bistBad (fresh + x.2) kind x.1 else bistExpected kind x.1

/-- What the BIST block shows of a run that has ended (R545). -/
def State.bistShow (s : State) (b : BistRun) (f : BistFound) (units sigs : List Nat) : State :=
  let sig := bistFold sigs
  let pass := decide (sig = bistFold (units.map (bistExpected b.kind)))
  let mask := (f.units.filter (· < 64)).foldl (fun a k => a ||| 2 ^ k) 0
  let stks := (f.units.filter fun u => 64 ≤ u && u < 72).foldl (fun a u => a ||| 2 ^ (u - 64)) 0
  let s1 := ((s.fset .bistStatusRunning 0 0).fset .bistStatusPass 0 (if pass then 1 else 0)).fset .bistStatusRepairs 0 f.repairs
  let s2 := ((s1.fset .bistFail 0 mask).fset .bistResSfail 0 stks).fset .bistResNfail 0 (if f.units.contains 72 then 1 else 0)
  let s3 := (s2.fset .bistResSdfail 0 (if f.units.contains 73 then 1 else 0)).fset .bistSigLo 0 (sig % 2 ^ 64)
  let s4 := ((s3.fset .bistSigHi 0 (sig / 2 ^ 64)).fadd .bistRuns 0 1).fadd .bistFails 0 f.units.length
  let s5 := (units.zip sigs).foldl (fun (t : State) x => (t.fset .bistUsigLo x.1 (x.2 % 2 ^ 64)).fset .bistUsigHi x.1 (x.2 / 2 ^ 64)) s4
  s5.fadd .bistRepairsAll 0 f.repairs

/-- BIST_COMPLETE: the tested skeins are reset, signatures and failures stand in the block, failing units are handled, the run is logged and
its command answered. -/
def State.bistEnds (s : State) (found : BistFound) (iods : List Nat) : State :=
  match s.bist with
  | none => s
  | some b =>
    if !s.millUp then s
    else
      let units := bistUnits b.scope b.mask
      let f := found.within units
      let sigs := bistSigs s.fresh b.kind units f.units
      let s1 := (skeinsOf s.testSkeins).foldl (fun (t : State) k => t.resetSkein k) { s with fresh := s.fresh + units.length }
      let s2 : State := { s1 with bist := none, testSkeins := 0, repairRecord := s.repairRecord + f.repairs }
      let s3 := s2.formedParts.foldl State.showPartition s2
      let s4 := ((s3.bistShow b f units sigs).bistHandle f (iods.filter fun d => units.contains (72 + d))).refreshClocks
      match (s4.mbx b.mbx).reqs.find? fun (x : MbxReq) => x.stamp = b.stamp && x.phase = 1 with
      | none => s4
      | some r =>
        let sig := toBytes 16 (bistFold sigs)
        let old := toBytes 1 b.kind ++ toBytes 1 b.scope ++ toBytes 6 0 ++ toBytes 8 b.mask
        (s4.logCmd b.mbx r 0x11 old sig).endL b.mbx r 0 (sig ++ toBytes 2 f.repairs) true

/-- BIST_COMPLETE. -/
def execBistComplete (failSkeins : BitVec 64) (failChannels : List (Fin 256)) (failIod : BitVec 2) (failVideo : List (Fin 24)) (repairs : Nat)
    (s : State) : Res :=
  let iods := [0, 1].filter fun d => failIod.toNat.testBit d
  .next (s.bistEnds { units := skeinsOf failSkeins.toNat ++ iods.map (72 + ·), channels := failChannels.map (·.val),
                      video := failVideo.map (·.val), repairs := repairs } iods)

end Sys2Proof.Machine
end

