-- ==== Sys2Proof/Machine/HostIf.lean ====
section
/-! DEFINITION. The host interface (R546 to R552, R568, R569): configuration requests, MSI-X unmasking, BAR2 writes, the management bus
with its MCTP messages, and the end of a wake from P4 (R496). -/

namespace Sys2Proof.Machine

/-! ## Configuration space (R506, R546 to R548) -/

/-- The function answers configuration requests (R547). -/
def State.funcPresent (s : State) : Func → Bool
  | .pf0 => true
  | .vf p => s.vfPresent p

/-- Writable bits and fixed low bits of a base address register (R548): 256 MiB, 64 GiB prefetchable, 1 MiB for each VF; 64 bits. -/
def barShape (i : Nat) : Nat × Nat := if i = 0 then (28, 4) else if i = 1 then (36, 12) else (20, 4)

/-- A word of a base address register: 0 low, 1 high. -/
def State.barWord (s : State) (i hi : Nat) : Nat :=
  let v := SMap.get 0 s.bars i + (barShape i).2
  if hi = 0 then v % 2 ^ 32 else v / 2 ^ 32

/-- Software writes a word of a base address register. -/
def State.barWrite (s : State) (i hi v : Nat) : State :=
  let old := SMap.get 0 s.bars i
  let n := 2 ^ (barShape i).1
  let full := if hi = 0 then old / 2 ^ 32 * 2 ^ 32 + v else old % 2 ^ 32 + v * 2 ^ 32
  { s with bars := SMap.set 0 s.bars i (full / n * n) }

/-! ### Capabilities

R4 lets the module advertise what R546 and R547 list and nothing else. IDs, layouts and the words that advertise an option are those of PCI
Express (PRESUMED, log 36). -/

/-- IDs of the capabilities of every function: power management, PCI Express, MSI-X. -/
def stdCaps : List Nat := [0x01, 0x10, 0x11]

/-- IDs of the extended capabilities of a function. PF0: AER, serial number, ARI, SR-IOV, ATS, PRI, those of the rates of R546, lane
margining, tags, DOE. A VF: AER, ARI, ATS. -/
def extCaps : Func → List Nat
  | .pf0 => [0x001, 0x003, 0x00E, 0x010, 0x00F, 0x013, 0x019, 0x025, 0x026, 0x027, 0x02A, 0x031, 0x02F, 0x02E]
  | .vf _ => [0x001, 0x00E, 0x00F]

/-- Offset of a capability: from 0x40 to 0xFC, or from 0x100 on, where the first extended one stands. -/
def stdBase (n id : Nat) : Nat := 0x40 + 4 * (Config.capPlace n id % 48)
def extBase (n id : Nat) : Nat := if id = 0x001 then 0x100 else 0x104 + 4 * (Config.capPlace n (0x1000 + id) % 959)

/-- The element after one in a list of capabilities. -/
def capAfter (l : List Nat) (id : Nat) : Option Nat := ((l.dropWhile (· ≠ id)).drop 1).head?

/-- A word with a field replaced. -/
def withBits (x lo w v : Nat) : Nat := x - bitField x lo w * 2 ^ lo + v % 2 ^ w * 2 ^ lo

/-- The header of a capability at an offset: its ID and the place of the next one. The upper half of a standard one advertises: neither D1
nor D2 nor PME in D3cold; the number of MSI-X vectors (R552). -/
def capHeader (f : Func) (off free : Nat) : Option Nat :=
  let n := funcNum f
  match stdCaps.find? fun id => stdBase n id = off with
  | some id =>
    let x := withBits (withBits free 0 8 id) 8 8 (((capAfter stdCaps id).map (stdBase n)).getD 0)
    some (if id = 0x01 then withBits (withBits x 22 5 0) 31 1 0
      else if id = 0x11 then withBits x 16 11 (if n = 0 then 2 else 17)
      else x)
  | none =>
    ((extCaps f).find? fun id => extBase n id = off).map fun id =>
      withBits (withBits (withBits free 0 16 id) 16 4 1) 20 12 (((capAfter (extCaps f) id).map (extBase n)).getD 0)

/-- Words that advertise options of the link and of requests (R546): payload 512 B and function reset; rates and widths, L1 by ASPM and not
L0s; no TPH, 10-bit tags; all six rates; no interrupt pin; a capability list, and where it begins. -/
def advertised (f : Func) (off free : Nat) : Option Nat :=
  let pe := stdBase (funcNum f) 0x10
  if off = 0x04 then some (withBits free 20 1 1)
  else if off = 0x34 then some (withBits free 0 8 (stdBase (funcNum f) 0x01))
  else if off = 0x3C then some (withBits free 8 8 0)
  else if off = pe + 0x04 then some (withBits (withBits free 0 3 2) 28 1 1)
  else if off = pe + 0x0C then some (withBits (withBits (withBits free 0 4 6) 4 6 16) 10 2 2)
  else if off = pe + 0x24 then some (withBits (withBits free 12 2 0) 16 2 3)
  else if off = pe + 0x2C then some (withBits free 1 7 0x3F)
  else none

/-- Register of a base address at an offset of configuration space: its number and half; `none` with `true` for one that reads as zero. -/
def barAt (f : Func) (off : Nat) : Option (Nat × Nat) :=
  let sr := extBase 0 0x010
  match f with
  | .pf0 =>
    if off = 0x10 then some (0, 0) else if off = 0x14 then some (0, 1) else if off = 0x18 then some (1, 0) else if off = 0x1C then some (1, 1)
    else if off = sr + 0x24 then some (2, 0) else if off = sr + 0x28 then some (2, 1) else none
  | .vf _ => none

/-- Other base address registers, which read as zero (R548). -/
def barZero (f : Func) (off : Nat) : Bool :=
  let sr := extBase 0 0x010
  match f with
  | .pf0 => off = 0x20 || off = 0x24 || (sr + 0x2C ≤ off && off < sr + 0x3C)
  | .vf _ => 0x10 ≤ off && off < 0x28

/-- The 4 bytes at an offset of configuration space (R546 to R548); `free` stands where the spec gives none. -/
def State.configValue (s : State) (f : Func) (off free : Nat) : Nat :=
  let sr := extBase 0 0x010
  let sn := extBase 0 0x003
  let dev := if f = .pf0 then 0x0940 else 0x0941
  let n := funcNum f
  if off = 0 then dev * 0x10000 + 0x1F6A
  else if off = 8 then 0x120000 * 0x100 + Config.fuseRev.toNat
  else if off = 0x2C then dev * 0x10000 + free % 0x10000
  else match barAt f off with
    | some (i, hi) => s.barWord i hi
    | none =>
      if barZero f off then 0
      else match (capHeader f off free).or (advertised f off free) with
      | some v => v
      | none =>
        if off = stdBase n 0x01 + 4 then free / 4 * 4 % 2 ^ 32 + (if s.d3hot.contains n then 3 else 0)
        else if f ≠ .pf0 then free
        else if off = sr + 8 then free / 2 * 2 + (if s.vfEnable then 1 else 0)
        else if off = sr + 0xC then 64 * 0x10000 + 64
        else if off = sr + 0x10 then free / 0x10000 * 0x10000 + s.numVfs
        else if off = sr + 0x14 then 1 * 0x10000 + 1
        else if off = sr + 0x18 then 0x0941 * 0x10000 + free % 0x10000
        else if off = sn + 4 then Config.serial.toNat % 2 ^ 32
        else if off = sn + 8 then Config.serial.toNat / 2 ^ 32
        else free

/-- A configuration write (R546 to R548): base addresses, VF Enable and NumVFs of PF0, the power state of a function. A write that clears VF
Enable is VF_ENABLE_CLEAR. -/
def State.configWrite (s : State) (f : Func) (off v : Nat) : State :=
  let sr := extBase 0 0x010
  let n := funcNum f
  match barAt f off with
  | some (i, hi) => s.barWrite i hi v
  | none =>
    if off = stdBase n 0x01 + 4 then
      { s with d3hot := if v % 4 = 3 then (if s.d3hot.contains n then s.d3hot else n :: s.d3hot)
                        else if v % 4 = 0 then s.d3hot.filter (· ≠ n) else s.d3hot }
    else if f ≠ .pf0 then s
    else if off = sr + 8 then { s with vfEnable := s.vfEnable || bitAt v 0 }
    else if off = sr + 0x10 then (if s.vfEnable || v % 0x10000 > 64 then s else { s with numVfs := v % 0x10000 })
    else s

/-- CONFIG_REQUEST. -/
def execConfigRequest (f : Func) (off : BitVec 12) (write : Option (BitVec 32)) (s : State) : Res :=
  .next (if !s.started then s
    else if !s.linkUp then s.emit (.readStatus 1)
    else if !s.funcPresent f then s.emit (.readStatus 0)
    else
      let o := off.toNat / 4 * 4
      match write with
      | some v => s.configWrite f o v.toNat
      | none => (s.emit (.readData 4 (s.configValue f o (Config.configWord (funcNum f) o s.fresh).toNat))).draw)

/-! ## MSI-X and BAR2 (R489, R546, R548, R552) -/

/-- The mask of a vector is cleared; a pending event sends its message. -/
def State.unmask (s : State) (n v : Nat) : State :=
  let k := 32 * n + v
  let s1 : State := { s with msixMask := SMap.set true s.msixMask k false }
  if SMap.get false s.msixPend k then { s1.emit (.msix n v) with msixPend := SMap.set false s.msixPend k false } else s1

/-- MSIX_UNMASK: the write of vector control in the table of a present function. -/
def execMsixUnmask (f : Func) (vector : Fin 18) (s : State) : Res :=
  let n := funcNum f
  .next (if !s.funcPresent f || s.asleep f || (n = 0 && vector.val ≥ 3) then s
    else match s.powered true (.msixTable n (16 * vector.val + 12)) with
      | .blocked => s.fadd .pwrBlocked 0 1
      | _ => s.unmask n vector)

/-- BAR2_WRITE (R252, R460): stored at TIER_BAR2.BASE, where it soils its granule; discarded and counted below P0 (R489). -/
def execBar2Write (off : BitVec 36) (data : List Byte) (s : State) : Res :=
  .next (if data.isEmpty || s.asleep .pf0 then s
    else if s.fget .pwrState 0 ≠ 0 then s.fadd .pwrBlocked 0 1
    else if s.fget .tierBar2En 0 = 0 then s
    else s.writeDpa .host (s.fget .tierBar2Base 0 * 2 ^ 30 + off.toNat) data)

/-! ## The management bus (R568, R569) -/

/-- The module answers on the bus: the input is qualified and no wake runs (R566, R569). -/
def State.busServed (s : State) : Bool := s.inputOk && !s.wakingUp

/-- A vendor-defined message of Ardetus is one mailbox request; other messages of the type are discarded. -/
def State.vendorMessage (s : State) (body : List Byte) : State :=
  if fld body 0 2 = 0x1F6A && body.length = 258 then s.acceptRequest 65 0 (body.drop 2) else s

/-- An assembled message is dispatched. Types 0x00 and 0x05 act in rows of their own; other types are discarded. -/
def State.dispatchMctp (s : State) (type : Nat) (body : List Byte) : State := if type = 0x7E then s.vendorMessage body else s

/-- MCTP_MESSAGE: in P4 one message is held until the wake ends. -/
def State.mctpMessage (s : State) (type : Nat) (body : List Byte) : State :=
  if !s.started || !s.busServed then s
  else if s.fget .pwrState 0 = 4 then
    (if s.mctpHeld.isEmpty then { s with mctpHeld := [(type, body)] } else s)
  else s.dispatchMctp type body

/-- MCTP_MESSAGE. -/
def execMctpMessage (type : BitVec 8) (body : List Byte) (s : State) : Res := .next (s.mctpMessage type.toNat body)

/-- A control command answers: the mill serves, on a bus that is served. -/
def State.control (s : State) (f : State → State) : State := if s.busServed && s.millUp then f s else s

/-- SET_ENDPOINT_ID: completion code, status, the endpoint ID set. PRESUMED from DMTF DSP0236: 0x00 and 0xFF are invalid data. -/
def execSetEndpointId (eid : BitVec 8) (s : State) : Res :=
  .next (s.control fun t =>
    if eid = 0 || eid = 0xFF then t.emit (.mctpControl 1 [2])
    else { t with eid := eid.toNat }.emit (.mctpControl 1 [0, 0, eid, 0]))

/-- GET_ENDPOINT_ID. -/
def execGetEndpointId (s : State) : Res := .next (s.control fun t => t.emit (.mctpControl 2 [0, BitVec.ofNat 8 t.eid, 0, 0]))

/-- MCTP_GET_VERSION. -/
def execMctpGetVersion (s : State) : Res := .next (s.control fun t => t.emit (.mctpControl 4 (0 :: Config.mctpVersions)))

/-- GET_MESSAGE_TYPE_SUPPORT: the three types of R569. -/
def execGetMessageTypeSupport (s : State) : Res := .next (s.control fun t => t.emit (.mctpControl 5 [0, 3, 0x00, 0x05, 0x7E]))

/-- Static address of the module on the bus (R568). -/
def staticAddr : Nat := 0x60 + Config.straps.toNat

/-- A controller of an I3C bus assigns a dynamic address. PRESUMED from I3C: a target that has one keeps it. -/
def State.assign (s : State) (dyn : Nat) : State :=
  if !s.busServed || s.smbus = some true then s
  else if s.dynAddr.isSome then { s with smbus := some false }
  else { s with smbus := some false, dynAddr := some dyn }

/-- SETDASA, to this module's static address. -/
def execSetdasa (static dynamic : BitVec 7) (s : State) : Res :=
  .next (if static.toNat = staticAddr then s.assign dynamic.toNat else s)

/-- ENTDAA. -/
def execEntdaa (dynamic : BitVec 7) (s : State) : Res := .next (s.assign dynamic.toNat)

/-- Temperature of the hottest die (R502): DEV_SENSORS byte 20. -/
def State.hottestDie (s : State) : Nat := (List.range 6).foldl (fun a i => max a (SMap.get 0 s.temps i)) 0

/-- SMBUS_READ_BYTE: the first transfer settles the mode (R568); command 0x01 reads the hottest die, in every power state. -/
def execSmbusReadByte (command : BitVec 8) (s : State) : Res :=
  .next (if !s.busServed || s.smbus = some false then s
    else
      let s1 : State := { s with smbus := some true }
      if command = 1 then s1.emit (.bus [BitVec.ofNat 8 s.hottestDie]) else s1)

/-! ## The end of a wake from P4 (R496) -/

/-- WAKE_DONE: the mailboxes serve in P3, and what was held is accepted; firmware that does not measure as before makes it a cold start. -/
def execWakeDone (digestMatches : Bool) (s : State) : Res :=
  .next (if !s.wakingUp then s
    else if !digestMatches then { s.fset .glbReadyStatus 0 0 with started := false, pwrSeq := none }
    else
      let t := { s.wakeEnds with mctpHeld := [] }
      s.mctpHeld.reverse.foldl (fun (u : State) x => u.dispatchMctp x.1 x.2) t)

end Sys2Proof.Machine
end

