-- ==== Sys2Proof/Machine/Complete.lean ====
section
/-! DEFINITION. The completion of commands marked L (R377) whose own chapters say how they end. -/

namespace Sys2Proof.Machine

/-- The running L command of a mailbox with a sequence number. -/
def State.runningL (s : State) (m seq : Nat) : Option MbxReq := (s.mbx m).reqs.find? fun r => r.phase = 1 && fld r.data 2 2 = seq

/-- L_COMMAND_COMPLETE (R377): a wake (R493), a takeover (R480), and the commands of `lComplete`. PWR_SET toward a deeper state, BIST_RUN and
the restore of an own image end with rows of their own. -/
def State.commandComplete (s : State) (mb : Mbx) (seq : Nat) : State :=
  let m := mbxNum mb
  if !s.millServes m then s
  else match s.runningL m seq with
    | none => s
    | some r =>
      match fld r.data 0 2 with
      | 0x401 => s.wakeFinish m r
      | 0x904 =>
        let p := byteAt r.data 5
        if s.recoveries.any fun (x : Recovery) => x.request = some (m, r.stamp) then s
        else match s.regionImage p (fld r.data 16 8) with
          | some x => s.takeover m r x
          | none => s.endL m r 5 [] false
      | _ => s.lComplete mb seq

/-- L_COMMAND_COMPLETE. -/
def execLCommandComplete (m : Mbx) (seq : BitVec 16) (s : State) : Res := .next (s.commandComplete m seq.toNat)

end Sys2Proof.Machine
end

