-- ==== Sys2Proof/Machine/Sequencer.lean ====
section
/-! DEFINITION. The tile sequencer (R75 to R94): issue, loops, waits, flags, barriers and the end of a tile program. -/

namespace Sys2Proof.Machine

/-! ## Issue -/

/-- The PC moves; a PC beyond the last instruction loaded ends the task with PROG (R77). -/
def State.setPc (s : State) (c n : Nat) : State :=
  if n ≥ (s.mcore c).prog.length then s.stopMatrix c 6 n else s.fset .mcrPc c n

/-- The row of an instruction at its core (R78, R79): it takes place where the instruction at the PC is of its kind. A malformed
instruction ends the task with ILLEGAL when it reaches issue. -/
def State.tileRow (s0 : State) (c : Nat) (sel : Tile → Bool) (f : State → Nat → Tile → State) : State :=
  let s := s0.pump c
  if !s.coreLive c || (s.mcore c).wait ≠ .none then s
  else
    let pc := s.fget .mcrPc c
    match (s.mcore c).prog[pc]? with
    | none => s.stopMatrix c 6 pc
    | some w => match decodeTile w with
      | none => s.stopMatrix c 1 pc
      | some t => if sel t then f s pc t else s

/-- Malformed at issue by the state the instruction uses (R79, R81, R131, R141, R155, R159). -/
def MCore.illegal (m : MCore) (t : Tile) : Bool :=
  match t with
  | .xfer _ _ _ mar .. => decide (SMap.get 0 m.mas mar % 64 ≠ 0)
  | .tma _ _ _ lfmt rfmt _ _ klen _ _ lps rps llay _ =>
    let l := (m.pconf lps).getD {}
    let r := (m.pconf rps).getD {}
    (decide (rps ≠ 0) && decide (r.out rfmt ≤ 1) && klen % 4 != 0) || r.s2c || r.win ||
    (l.s2c && !l.win && (llay == 0 || decide (512 * klen * fmtWidth lfmt > 32768))) ||
    (l.win && (llay == 0 || decide (lfmt ≤ 2))) || ((l.rope || r.rope) && decide (klen > 2))
  | .tch _ _ _ _ qfmt kfmt _ _ _ _ _ _ _ _ _ _ _ qps kps _ =>
    let q := (m.pconf qps).getD {}
    let k := (m.pconf kps).getD {}
    q.s2c || q.win || k.s2c || k.win || !chainFmt (q.out qfmt) || !chainFmt (k.out kfmt)
  | _ => false

/-- Core memory that a TCH needs (R152): Q, all NKV key and value tiles, the scales, and with LAST the statistics. -/
def chainBytes (t : Tile) : Nat :=
  match t with
  | .tch _ _ _ last qfmt kfmt vfmt _ _ _ dlen nkv _ kv _ _ _ _ _ q =>
    let dh := 64 * dlen
    8 * dh * fmtWidth qfmt + nkv * (8 * dh * (fmtWidth kfmt + fmtWidth vfmt)) + (if q.sc = 0 then 0 else scaleBytes q dh) +
      (if kv.sc = 0 then 0 else 2 * (nkv * (64 * dh / blkSize kv.blk))) + if last = 1 then 512 else 0
  | _ => 0

/-- A TCH that the core memory below the deckle window does not hold is malformed (R152). -/
def State.crowded (s : State) (c : Nat) (t : Tile) : Bool := decide (chainBytes t > 0x400000 - s.fget .mcrDeckleSize c * 0x4000)

/-- Places taken in the queue of a unit. -/
def MCore.queued (m : MCore) (u : Nat) : Nat := (m.queue.filter fun i => i.op.units.contains u).length

/-- An instruction as it issues: its address registers and its key length are read now (R94). -/
def State.issuedAt (s : State) (c pc : Nat) (t : Tile) : Issued :=
  { op := t, pc := pc, ars := (List.range 16).map fun n => s.fget .mcrAr (16 * c + n),
    ma := match t with | .xfer _ _ _ mar .. => SMap.get 0 (s.mcore c).mas mar | _ => 0,
    len := match t with
      | .tch _ _ _ _ _ _ _ _ _ _ _ _ _ _ _ _ lens _ _ _ => if lens = 0 then none else some (s.fget .mcrLen (4 * c + lens - 1))
      | _ => none }

/-- An instruction joins the queue of its units, which start what they may (R94). -/
def State.enqueue (s : State) (c : Nat) (i : Issued) : State := ((s.setMcore c fun m => { m with queue := m.queue ++ [i] }).syncUnits c).pump c

/-- A queue that the instruction needs is full (R94). -/
def MCore.full (m : MCore) (t : Tile) : Bool := t.units.any fun u => m.queued u ≥ unitDepth u

/-- A data instruction issues (R94): it waits while a queue of its is full. -/
def State.issueData (s : State) (c pc : Nat) (t : Tile) : State :=
  if (s.mcore c).illegal t || s.crowded c t then s.stopMatrix c 1 pc
  else if (s.mcore c).full t then s
  else
    let s1 := s.enqueue c (s.issuedAt c pc t)
    if s1.coreLive c then s1.setPc c (pc + 1) else s1

/-- TLD. -/
def execTld (c : Fin 512) (s : State) : Res :=
  .next (s.tileRow c (fun t => match t with | .xfer st .. => !st | _ => false) fun u pc t => u.issueData c pc t)

/-- TST. -/
def execTst (c : Fin 512) (s : State) : Res :=
  .next (s.tileRow c (fun t => match t with | .xfer st .. => st | _ => false) fun u pc t => u.issueData c pc t)

/-- TMA. -/
def execTma (c : Fin 512) (s : State) : Res :=
  .next (s.tileRow c (fun t => match t with | .tma .. => true | _ => false) fun u pc t => u.issueData c pc t)

/-- TCH. -/
def execTch (c : Fin 512) (s : State) : Res :=
  .next (s.tileRow c (fun t => match t with | .tch .. => true | _ => false) fun u pc t => u.issueData c pc t)

/-- TRW LOADCFG. -/
def execTrwLoadcfg (c : Fin 512) (s : State) : Res :=
  .next (s.tileRow c (fun t => match t with | .trw op .. => op == 0 | _ => false) fun u pc t => u.issueData c pc t)

/-- TRW APPLY. -/
def execTrwApply (c : Fin 512) (s : State) : Res :=
  .next (s.tileRow c (fun t => match t with | .trw op .. => op == 1 | _ => false) fun u pc t => u.issueData c pc t)

/-- TRW SAVE. -/
def execTrwSave (c : Fin 512) (s : State) : Res :=
  .next (s.tileRow c (fun t => match t with | .trw op .. => op == 2 | _ => false) fun u pc t => u.issueData c pc t)

/-- TRW RESTORE. -/
def execTrwRestore (c : Fin 512) (s : State) : Res :=
  .next (s.tileRow c (fun t => match t with | .trw op .. => op == 3 | _ => false) fun u pc t => u.issueData c pc t)

/-- TEP. -/
def execTep (c : Fin 512) (s : State) : Res :=
  .next (s.tileRow c (fun t => match t with | .tep .. => true | _ => false) fun u pc t => u.issueData c pc t)

/-- THX send. -/
def execThxSend (c : Fin 512) (s : State) : Res :=
  .next (s.tileRow c (fun t => match t with | .thx dir .. => dir == 0 | _ => false) fun u pc t => u.issueData c pc t)

/-- THX receive. -/
def execThxReceive (c : Fin 512) (s : State) : Res :=
  .next (s.tileRow c (fun t => match t with | .thx dir .. => dir == 1 | _ => false) fun u pc t => u.issueData c pc t)

/-! ## Ends of started instructions -/

/-- A transfer finishes its lines and its tag becomes idle (R80), once it waits for nothing. -/
def State.endXfer (s : State) (c tag : Nat) : State :=
  match (s.mcore c).running.find? fun r => r.i.op.tag? = some tag with
  | none => s
  | some r =>
    if !s.coreLive c || r.paused || r.halo ≠ 0 then s
    else ((s.retire c fun x => x.i.op.tag? = some tag).syncUnits c).pump c

/-- TRANSFER_COMPLETE. -/
def execTransferComplete (c : Fin 512) (tag : Fin 16) (s : State) : Res := .next (s.endXfer c tag)

/-- A TMA or TCH retires its last group (R72, R82): its banks become HELD, the score bank of a TCH FREE. -/
def State.retireArray (s : State) (c arr : Nat) : State :=
  if !s.coreLive c then s
  else match (s.mcore c).running.find? fun r => r.i.op.units.contains arr with
  | none => s
  | some r =>
    let s1 := match r.i.op with
      | .tma a bank .. => s.setMcore c fun m => let b := 2 * a + bank
          { m with banks := SMap.set ({} : Bank) m.banks b { SMap.get ({} : Bank) m.banks b with st := 2 } }
      | .tch sbank obank _ _ _ _ _ _ _ _ dlen .. => s.setMcore c fun m =>
          let held (k : SMap Bank) (b : Nat) : SMap Bank := SMap.set ({} : Bank) k b { SMap.get ({} : Bank) k b with st := 2 }
          { m with banks := (outBanks dlen obank).foldl held (SMap.set ({} : Bank) m.banks sbank {}) }
      | _ => s
    ((s1.retire c fun x => x.i.op.units.contains arr).syncUnits c).pump c

/-- TMA_RETIRE: of the instruction that runs on array A (false) or B; a TCH runs on both. -/
def execTmaRetire (c : Fin 512) (arr : Bool) (s : State) : Res := .next (s.retireArray c (if arr then 1 else 0))

/-- A TEP reads the last row of its bank (R72): the bank becomes FREE, or HELD again with KEEP. -/
def State.endTep (s : State) (c : Nat) : State :=
  if !s.coreLive c then s
  else match (s.mcore c).running.find? fun r => r.i.op.units.contains 2 with
  | none => s
  | some r =>
    let s1 := match r.i.op with
      | .tep a bank .. => s.setMcore c fun m =>
          let b := 2 * a + bank
          let k := SMap.get ({} : Bank) m.banks b
          { m with banks := SMap.set ({} : Bank) m.banks b (if k.back then { k with st := 2, back := false } else {}) }
      | _ => s
    ((s1.retire c fun x => x.i.op.units.contains 2).syncUnits c).pump c

/-- TEP_DONE. -/
def execTepDone (c : Fin 512) (s : State) : Res := .next (s.endTep c)

/-- Waiting halo transfers of a direction try again (R166). -/
def State.haloRetry (s : State) (c dir : Nat) : State :=
  let waiting := (s.mcore c).running.filter fun r => r.halo = 1 && (match r.i.op with | .thx d .. => d == dir | _ => false)
  (waiting.foldl (fun (t : State) (r : Started) => if t.coreLive c then t.runXfer c r.i else t) s).syncUnits c

/-- THX_SEND_RESUME. -/
def execThxSendResume (c : Fin 512) (s : State) : Res := .next (s.haloRetry c 0)

/-- THX_RECEIVE_ARRIVAL. -/
def execThxReceiveArrival (c : Fin 512) (s : State) : Res := .next (s.haloRetry c 1)

/-! ## TPR -/

/-- TPR at issue (R84, R95): it waits while an earlier instruction names its slot or writes its configuration word. -/
def State.tpr (s : State) (c pc slot ar clr : Nat) : State :=
  let m := s.mcore c
  let a := 64 * s.fget .mcrAr (16 * c + ar)
  let word : Touch := { reads := if clr = 1 then [] else [(a, 64)] }
  let busy := (m.queue.any fun i => i.op.namesSlot slot || word.meets (m.touch i none)) || (m.running.any fun r => r.i.op.namesSlot slot || word.meets r.touch)
  if busy then s
  else if clr = 1 then (s.setMcore c fun m => { m with slots := SMap.set [] m.slots slot [] }).setPc c (pc + 1)
  else
    let b := s.ld (coreMem c + a) 64
    if (if slot < 4 then pWordOk b else eWordOk b) then (s.setMcore c fun m => { m with slots := SMap.set [] m.slots slot b }).setPc c (pc + 1)
    else s.stopMatrix c 1 pc

/-- TPR. -/
def execTpr (c : Fin 512) (s : State) : Res :=
  .next (s.tileRow c (fun t => match t with | .tpr .. => true | _ => false) fun u pc t =>
    match t with | .tpr slot ar clr => u.tpr c pc slot ar clr | _ => u)

/-! ## Loops -/

/-- PCs of the TLEs that close the levels open at `pc`, innermost first (R86, R88): those that no TLP behind `pc` opens. -/
def closers (prog : List Nat) (pc : Nat) : List Nat :=
  ((prog.zipIdx.drop pc).foldl (fun (a : List Nat × Nat) (x : Nat × Nat) =>
    if x.1 % 256 = 0x30 then (a.1, a.2 + 1)
    else if x.1 % 256 = 0x31 then (if a.2 = 0 then (a.1 ++ [x.2], 0) else (a.1, a.2 - 1))
    else a) ([], 0)).1

/-- ARn plus a multiple of its stride at a level (R75: modulo 2^16), for the registers of a mask. -/
def State.moveArs (s : State) (c lvl mask : Nat) (times : Int) : State :=
  let m := s.mcore c
  (List.range 16).foldl (fun t n => if mask.testBit n then
    t.fset .mcrAr (16 * c + n) (wrapInt 16 (t.fget .mcrAr (16 * c + n) + times * signedOf 16 (SMap.get 0 m.ars (4 * n + lvl)))) else t) s

/-- MAn plus a multiple of its stride at a level, modulo 2^48. -/
def State.moveMas (s : State) (c lvl mask : Nat) (times : Int) : State :=
  s.setMcore c fun m => { m with mas := (List.range 8).foldl (fun a n => if mask.testBit n then
    SMap.set 0 a n (wrapInt 48 (SMap.get 0 a n + times * signedOf 32 (SMap.get 0 m.mss (4 * n + lvl)))) else a) m.mas }

/-- One index register of a TLP (R86): base and stride at the level. -/
def State.setIndex (s : State) (c lvl v ar base str : Nat) : State :=
  if v = 1 then (s.fset .mcrAr (16 * c + ar) base).setMcore c fun m => { m with ars := SMap.set 0 m.ars (4 * ar + lvl) str } else s

/-- TLP (R86). R86 leaves two points open: with I0AR = I1AR and both valid, I1 is set last and wins; a zero-count body that no TLE closes
runs to the end of the program, so PROG (R77). Both are DEDUCED (log entry 62). -/
def State.tlp (s : State) (c pc lvl csrc count lsel sh i0v i0ar i0base i0str i1v i1ar i1base i1str : Nat) : State :=
  let m := s.mcore c
  let n := if csrc = 0 then count else ceilDiv (s.fget .mcrLen (4 * c + lsel)) (64 * 2 ^ sh)
  if lvl ≠ m.loops.length then s.stopMatrix c 4 pc
  else if n > 2 ^ 24 - 1 then s.stopMatrix c 2 pc
  else
    let s1 := (s.setIndex c lvl i0v i0ar i0base i0str).setIndex c lvl i1v i1ar i1base i1str
    if n = 0 then
      match closers m.prog (pc + 1) with
      | e :: _ => s1.setPc c (e + 1)
      | [] => s1.stopMatrix c 6 m.prog.length
    else
      let s2 := s1.setMcore c fun m => { m with loops := { lvl := lvl, start := pc + 1, count := n } :: m.loops }
      (s2.fset .mcrLc (4 * c + lvl) n).setPc c (pc + 1)

/-- TLP. -/
def execTlp (c : Fin 512) (s : State) : Res :=
  .next (s.tileRow c (fun t => match t with | .tlp .. => true | _ => false) fun u pc t =>
    match t with
    | .tlp lvl csrc count lsel sh i0v i0ar i0base i0str i1v i1ar i1base i1str =>
      u.tlp c pc lvl csrc count lsel sh i0v i0ar i0base i0str i1v i1ar i1base i1str
    | _ => u)

/-- TLE (R87). -/
def State.tle (s : State) (c pc lvl armask mamask : Nat) : State :=
  match (s.mcore c).loops with
  | [] => s.stopMatrix c 4 pc
  | l :: rest =>
    if l.lvl ≠ lvl then s.stopMatrix c 4 pc
    else
      let s1 := (s.moveArs c lvl armask 1).moveMas c lvl mamask 1
      let lc := s.fget .mcrLc (4 * c + lvl) - 1
      let s2 := s1.fset .mcrLc (4 * c + lvl) lc
      if lc ≠ 0 then s2.setPc c l.start
      else
        let s3 := (s2.moveArs c lvl armask (-(l.count : Int))).moveMas c lvl mamask (-(l.count : Int))
        (s3.setMcore c fun m => { m with loops := rest }).setPc c (pc + 1)

/-- TLE. -/
def execTle (c : Fin 512) (s : State) : Res :=
  .next (s.tileRow c (fun t => match t with | .tle .. => true | _ => false) fun u pc t =>
    match t with | .tle lvl armask mamask => u.tle c pc lvl armask mamask | _ => u)

/-- Close the innermost levels whose TLEs stand at these PCs, rewinding each by its own iteration index (R88). -/
def State.closeLevels (s : State) (c : Nat) : List Nat → State
  | [] => s
  | e :: rest =>
    match (s.mcore c).loops with
    | [] => s
    | l :: ls =>
      let i : Int := (l.count : Int) - s.fget .mcrLc (4 * c + l.lvl)
      let w := (s.mcore c).prog.getD e 0
      let s1 := (s.moveArs c l.lvl (bitField w 10 16) (-i)).moveMas c l.lvl (bitField w 26 8) (-i)
      ((s1.fset .mcrLc (4 * c + l.lvl) 0).setMcore c fun m => { m with loops := ls }).closeLevels c rest

/-- TSK (R88). EXIT or NEXT of a level that no TLE closes goes to the end of the program, so PROG (R77; DEDUCED, log entry 62). -/
def State.tsk (s : State) (c pc lsel lvl act tsize ofs nskip : Nat) : State :=
  let m := s.mcore c
  match m.loops.find? fun l => l.lvl = lvl with
  | none => s.stopMatrix c 4 pc
  | some l =>
    let i := l.count - s.fget .mcrLc (4 * c + lvl)
    if ofs + i * tsize < s.fget .mcrLen (4 * c + lsel) then s.setPc c (pc + 1)
    else
      let deeper := m.loops.length - 1 - lvl
      let ends := closers m.prog pc
      let s1 := s.fadd .mcrSkips c 1
      if act = 2 then
        if ((m.prog.drop (pc + 1)).take nskip).any fun w => w % 256 = 0x30 || w % 256 = 0x31 then s.stopMatrix c 4 pc
        else s1.setPc c (pc + 1 + nskip)
      else match ends[deeper]? with
        | none => s1.stopMatrix c 6 m.prog.length
        | some e =>
          if act = 0 then (s1.closeLevels c (ends.take (deeper + 1))).setPc c (e + 1)
          else (s1.closeLevels c (ends.take deeper)).setPc c e

/-- TSK. -/
def execTsk (c : Fin 512) (s : State) : Res :=
  .next (s.tileRow c (fun t => match t with | .tsk .. => true | _ => false) fun u pc t =>
    match t with | .tsk lsel lvl act tsize ofs nskip => u.tsk c pc lsel lvl act tsize ofs nskip | _ => u)

/-! ## Waits, flags, barriers, the end -/

/-- A unit has no queued or running work (R89). -/
def MCore.unitIdle (m : MCore) (u : Nat) : Bool := m.queued u == 0 && !(m.running.any fun r => r.i.op.units.contains u)

/-- A tag is idle. -/
def MCore.tagIdle (m : MCore) (tag : Nat) : Bool :=
  !(m.queue.any fun i => i.op.tag? == some tag) && !(m.running.any fun r => r.i.op.tag? == some tag)

/-- The condition of a TWT (R89). -/
def State.twtHolds (s : State) (c tags flags ida idb ide : Nat) : Bool :=
  let m := s.mcore c
  ((List.range 16).all fun t => !tags.testBit t || m.tagIdle t) && (s.fget .mcrFlags c &&& flags == flags) &&
    (ida == 0 || m.unitIdle 0) && (idb == 0 || m.unitIdle 1) && (ide == 0 || m.unitIdle 2)

/-- A TWT ends: it clears its flags with CLRF and issue goes on. -/
def State.twtEnd (s : State) (c pc flags clrf : Nat) : State :=
  let s1 := s.setMcore c fun m => { m with wait := .none }
  (if clrf = 1 then s1.fset .mcrFlags c (s1.fget .mcrFlags c &&& (0xFFFF - flags)) else s1).setPc c (pc + 1)

/-- TWT (R89). -/
def State.twt (s : State) (c pc tags flags clrf ida idb ide : Nat) : State :=
  if s.twtHolds c tags flags ida idb ide then s.twtEnd c pc flags clrf else s.setMcore c fun m => { m with wait := .twt }

/-- TWT. -/
def execTwt (c : Fin 512) (s : State) : Res :=
  .next (s.tileRow c (fun t => match t with | .twt .. => true | _ => false) fun u pc t =>
    match t with | .twt tags flags clrf ida idb ide => u.twt c pc tags flags clrf ida idb ide | _ => u)

/-- The condition of a waiting TWT comes to hold (R89). -/
def State.twtRelease (s0 : State) (c : Nat) : State :=
  let s := s0.pump c
  let pc := s.fget .mcrPc c
  if !s.coreLive c || (s.mcore c).wait ≠ .twt then s
  else match decodeTile ((s.mcore c).prog.getD pc 0) with
  | some (.twt tags flags clrf ida idb ide) => if s.twtHolds c tags flags ida idb ide then s.twtEnd c pc flags clrf else s
  | _ => s

/-- TWT_RELEASE. -/
def execTwtRelease (c : Fin 512) (s : State) : Res := .next (s.twtRelease c)

/-- Every earlier TEP, TST and THX send has completed its writes (R90, R92). -/
def MCore.settled (m : MCore) : Bool := !(m.queue.any fun i => i.op.outward) && !(m.running.any fun r => r.i.op.outward)

/-- TSG (R90): clear, then set. -/
def State.tsg (s : State) (c pc set clr tgt core : Nat) : State :=
  if !(s.mcore c).settled then s
  else
    let d := if tgt = 0 then c else c / 8 * 8 + core
    (s.fset .mcrFlags d ((s.fget .mcrFlags d &&& (0xFFFF - clr)) ||| set)).setPc c (pc + 1)

/-- TSG. -/
def execTsg (c : Fin 512) (s : State) : Res :=
  .next (s.tileRow c (fun t => match t with | .tsg .. => true | _ => false) fun u pc t =>
    match t with | .tsg set clr tgt core => u.tsg c pc set clr tgt core | _ => u)

/-- TDF (R92): the core arrives at its barrier, and with WAIT = 1 issues nothing until the barrier releases. -/
def State.tdf (s : State) (c pc bar wait : Nat) : State :=
  if !(s.mcore c).settled then s
  else
    let s1 := (if wait = 1 then s.setMcore c fun m => { m with wait := .tdf bar } else s).setPc c (pc + 1)
    s1.arrive (s.corePart c) bar

/-- TDF. -/
def execTdf (c : Fin 512) (s : State) : Res :=
  .next (s.tileRow c (fun t => match t with | .tdf .. => true | _ => false) fun u pc t =>
    match t with | .tdf bar wait => u.tdf c pc bar wait | _ => u)

/-- TEND (R93): once every unit is idle and every tag has completed, the core reports DONE. -/
def State.tend (s : State) (c : Nat) : State :=
  let m := s.mcore c
  if !m.queue.isEmpty || !m.running.isEmpty then s
  else (s.fset .mcrStatusBusy c 0).setMtask c fun t => { t with outcome := some 0 }

/-- TEND. -/
def execTend (c : Fin 512) (s : State) : Res :=
  .next (s.tileRow c (fun t => match t with | .tend => true | _ => false) fun u _ _ => u.tend c)

end Sys2Proof.Machine
end

