-- ==== Sys2Proof/Machine/Dispatch.lean ====
section
/-! DEFINITION. One arm per command: a direct call of its meaning. -/

namespace Sys2Proof.Machine

/-- The effect of a command on everything but the queue. -/
def exec (i : Instr) (s : State) : Host.Outcome State Fault Refusal :=
  match i with
  | .registerWrite a wide w => Sys2Proof.Machine.execRegisterWrite a wide w s
  | .badSizeAccess f off size write => Sys2Proof.Machine.execBadSizeAccess f off size write s
  | .barUnmappedAccess f off wide write => Sys2Proof.Machine.execBarUnmappedAccess f off wide write s
  | .unbackedDpaAccess a size write => Sys2Proof.Machine.execUnbackedDpaAccess a size write s
  | .taskDispatch q => Sys2Proof.Machine.execTaskDispatch q s
  | .tld c => Sys2Proof.Machine.execTld c s
  | .tst c => Sys2Proof.Machine.execTst c s
  | .transferComplete c tag => Sys2Proof.Machine.execTransferComplete c tag s
  | .tma c => Sys2Proof.Machine.execTma c s
  | .tmaRetire c arr => Sys2Proof.Machine.execTmaRetire c arr s
  | .tch c => Sys2Proof.Machine.execTch c s
  | .trwLoadcfg c => Sys2Proof.Machine.execTrwLoadcfg c s
  | .trwApply c => Sys2Proof.Machine.execTrwApply c s
  | .trwSave c => Sys2Proof.Machine.execTrwSave c s
  | .trwRestore c => Sys2Proof.Machine.execTrwRestore c s
  | .tpr c => Sys2Proof.Machine.execTpr c s
  | .tep c => Sys2Proof.Machine.execTep c s
  | .tepDone c => Sys2Proof.Machine.execTepDone c s
  | .tlp c => Sys2Proof.Machine.execTlp c s
  | .tle c => Sys2Proof.Machine.execTle c s
  | .tsk c => Sys2Proof.Machine.execTsk c s
  | .twt c => Sys2Proof.Machine.execTwt c s
  | .twtRelease c => Sys2Proof.Machine.execTwtRelease c s
  | .tsg c => Sys2Proof.Machine.execTsg c s
  | .thxSend c => Sys2Proof.Machine.execThxSend c s
  | .thxSendResume c => Sys2Proof.Machine.execThxSendResume c s
  | .thxReceive c => Sys2Proof.Machine.execThxReceive c s
  | .thxReceiveArrival c => Sys2Proof.Machine.execThxReceiveArrival c s
  | .tdf c => Sys2Proof.Machine.execTdf c s
  | .tend c => Sys2Proof.Machine.execTend c s
  | .mcrFlagSet a mask => Sys2Proof.Machine.execMcrFlagSet a mask s
  | .mcrFlagClr a mask sameMclkSet => Sys2Proof.Machine.execMcrFlagClr a mask sameMclkSet s
  | .cardingInstruction t => Sys2Proof.Machine.execCardingInstruction t s
  | .ecall t => Sys2Proof.Machine.execEcall t s
  | .ebreak t => Sys2Proof.Machine.execEbreak t s
  | .xcFset t => Sys2Proof.Machine.execXcFset t s
  | .xcFclr t => Sys2Proof.Machine.execXcFclr t s
  | .xcFwait t => Sys2Proof.Machine.execXcFwait t s
  | .fwaitWake t => Sys2Proof.Machine.execFwaitWake t s
  | .xcFrd t => Sys2Proof.Machine.execXcFrd t s
  | .xcTho t => Sys2Proof.Machine.execXcTho t s
  | .handoffComplete n slot => Sys2Proof.Machine.execHandoffComplete n slot s
  | .xcTwait t => Sys2Proof.Machine.execXcTwait t s
  | .xcStclr t => Sys2Proof.Machine.execXcStclr t s
  | .xcStsave t => Sys2Proof.Machine.execXcStsave t s
  | .xcStmerge t => Sys2Proof.Machine.execXcStmerge t s
  | .xcStfin t => Sys2Proof.Machine.execXcStfin t s
  | .xcSort t => Sys2Proof.Machine.execXcSort t s
  | .sortDone k => Sys2Proof.Machine.execSortDone k s
  | .xcVrnd t => Sys2Proof.Machine.execXcVrnd t s
  | .xcVsf t => Sys2Proof.Machine.execXcVsf t s
  | .xcVfba t => Sys2Proof.Machine.execXcVfba t s
  | .xcVcvt t => Sys2Proof.Machine.execXcVcvt t s
  | .xcVstat t => Sys2Proof.Machine.execXcVstat t s
  | .noiseWindow raw => Sys2Proof.Machine.execNoiseWindow raw s
  | .whorlJump a wide value => Sys2Proof.Machine.execWhorlJump a wide value s
  | .whorlSeek a wide value => Sys2Proof.Machine.execWhorlSeek a wide value s
  | .whorlCmdComplete k => Sys2Proof.Machine.execWhorlCmdComplete k s
  | .translationFaultServed n => Sys2Proof.Machine.execTranslationFaultServed n s
  | .imbalanceWindow counts => Sys2Proof.Machine.execImbalanceWindow counts s
  | .stackTempChange k temp => Sys2Proof.Machine.execStackTempChange k temp s
  | .move e ctx => Sys2Proof.Machine.execMove e ctx s
  | .barset e ctx => Sys2Proof.Machine.execBarset e ctx s
  | .descriptorComplete e ctx => Sys2Proof.Machine.execDescriptorComplete e ctx s
  | .streamFaultUnserved e ctx => Sys2Proof.Machine.execStreamFaultUnserved e ctx s
  | .sliceDeadline p ssb => Sys2Proof.Machine.execSliceDeadline p ssb s
  | .strmPArrive a bar => Sys2Proof.Machine.execStrmPArrive a bar s
  | .sliceGraceExpiry p ssb => Sys2Proof.Machine.execSliceGraceExpiry p ssb s
  | .streamDrainTimeout => Sys2Proof.Machine.execStreamDrainTimeout s
  | .ftlJournalWrite => Sys2Proof.Machine.execFtlJournalWrite s
  | .ftlCommitDone => Sys2Proof.Machine.execFtlCommitDone s
  | .ftlMapLoadDone jlost => Sys2Proof.Machine.execFtlMapLoadDone jlost s
  | .readDisturbRefresh block => Sys2Proof.Machine.execReadDisturbRefresh block s
  | .retentionScan block corrected => Sys2Proof.Machine.execRetentionScan block corrected s
  | .staticWearLevelling ch => Sys2Proof.Machine.execStaticWearLevelling ch s
  | .programEraseFailure block => Sys2Proof.Machine.execProgramEraseFailure block s
  | .flashChannelLost ch => Sys2Proof.Machine.execFlashChannelLost ch s
  | .flashRebuildDone => Sys2Proof.Machine.execFlashRebuildDone s
  | .video p r => Sys2Proof.Machine.execVideo p r s
  | .videoFrameStart info => Sys2Proof.Machine.execVideoFrameStart info s
  | .videoBandDone k => Sys2Proof.Machine.execVideoBandDone k s
  | .videoFrameCommit k => Sys2Proof.Machine.execVideoFrameCommit k s
  | .videoWatchdog k => Sys2Proof.Machine.execVideoWatchdog k s
  | .videoFrameStop k => Sys2Proof.Machine.execVideoFrameStop k s
  | .videoDrainTimeout => Sys2Proof.Machine.execVideoDrainTimeout s
  | .vidCoreEn a en => Sys2Proof.Machine.execVidCoreEn a en s
  | .ringDb a v => Sys2Proof.Machine.execRingDb a v s
  | .enable a => Sys2Proof.Machine.execEnable a s
  | .disable a => Sys2Proof.Machine.execDisable a s
  | .flush a => Sys2Proof.Machine.execFlush a s
  | .rearm a => Sys2Proof.Machine.execRearm a s
  | .clrerr a => Sys2Proof.Machine.execClrerr a s
  | .recordFetch => Sys2Proof.Machine.execRecordFetch s
  | .graph p r => Sys2Proof.Machine.execGraph p r s
  | .copy p r => Sys2Proof.Machine.execCopy p r s
  | .signalLocal p r => Sys2Proof.Machine.execSignalLocal p r s
  | .signalPeer p r => Sys2Proof.Machine.execSignalPeer p r s
  | .signalPeerAnswer p r => Sys2Proof.Machine.execSignalPeerAnswer p r s
  | .wait p r => Sys2Proof.Machine.execWait p r s
  | .waitWake p r => Sys2Proof.Machine.execWaitWake p r s
  | .waitTimeout p r => Sys2Proof.Machine.execWaitTimeout p r s
  | .fence p r => Sys2Proof.Machine.execFence p r s
  | .stream p r => Sys2Proof.Machine.execStream p r s
  | .nop p r => Sys2Proof.Machine.execNop p r s
  | .taskComplete t => Sys2Proof.Machine.execTaskComplete t s
  | .recordComplete p r idx => Sys2Proof.Machine.execRecordComplete p r idx s
  | .ringWatchdogExpiry p r => Sys2Proof.Machine.execRingWatchdogExpiry p r s
  | .guiltyResetDone p r => Sys2Proof.Machine.execGuiltyResetDone p r s
  | .servingSwitch p => Sys2Proof.Machine.execServingSwitch p s
  | .switchComplete p => Sys2Proof.Machine.execSwitchComplete p s
  | .ageTick p r => Sys2Proof.Machine.execAgeTick p r s
  | .mbxReqdb m slot => Sys2Proof.Machine.execMbxReqdb m slot s
  | .mailboxReset m => Sys2Proof.Machine.execMailboxReset m s
  | .mailboxResponseDeferred m => Sys2Proof.Machine.execMailboxResponseDeferred m s
  | .lCommandComplete m seq => Sys2Proof.Machine.execLCommandComplete m seq s
  | .devInfo m => Sys2Proof.Machine.execDevInfo m s
  | .devSensors m => Sys2Proof.Machine.execDevSensors m s
  | .partForm m => Sys2Proof.Machine.execPartForm m s
  | .partDissolve m => Sys2Proof.Machine.execPartDissolve m s
  | .partQuery m => Sys2Proof.Machine.execPartQuery m s
  | .partSet m => Sys2Proof.Machine.execPartSet m s
  | .partQuota m => Sys2Proof.Machine.execPartQuota m s
  | .partSeed m => Sys2Proof.Machine.execPartSeed m s
  | .objCreate m => Sys2Proof.Machine.execObjCreate m s
  | .objShare m => Sys2Proof.Machine.execObjShare m s
  | .objPromote m => Sys2Proof.Machine.execObjPromote m s
  | .objEvict m => Sys2Proof.Machine.execObjEvict m s
  | .objPin m => Sys2Proof.Machine.execObjPin m s
  | .objStage m => Sys2Proof.Machine.execObjStage m s
  | .objQuery m => Sys2Proof.Machine.execObjQuery m s
  | .objDelete m => Sys2Proof.Machine.execObjDelete m s
  | .hashSet m => Sys2Proof.Machine.execHashSet m s
  | .loadModel m => Sys2Proof.Machine.execLoadModel m s
  | .chMapout m => Sys2Proof.Machine.execChMapout m s
  | .pwrSet m => Sys2Proof.Machine.execPwrSet m s
  | .pwrQuery m => Sys2Proof.Machine.execPwrQuery m s
  | .pwrCap m => Sys2Proof.Machine.execPwrCap m s
  | .measure m => Sys2Proof.Machine.execMeasure m s
  | .lifecycleSet m => Sys2Proof.Machine.execLifecycleSet m s
  | .debugSet m => Sys2Proof.Machine.execDebugSet m s
  | .certGet m => Sys2Proof.Machine.execCertGet m s
  | .fabDevnum m => Sys2Proof.Machine.execFabDevnum m s
  | .fabPort m => Sys2Proof.Machine.execFabPort m s
  | .fabRoute m => Sys2Proof.Machine.execFabRoute m s
  | .fabQuarantine m => Sys2Proof.Machine.execFabQuarantine m s
  | .fabQuery m => Sys2Proof.Machine.execFabQuery m s
  | .vsessOpen m => Sys2Proof.Machine.execVsessOpen m s
  | .vsessClose m => Sys2Proof.Machine.execVsessClose m s
  | .vsessQuery m => Sys2Proof.Machine.execVsessQuery m s
  | .vsessReset m => Sys2Proof.Machine.execVsessReset m s
  | .bistRun m => Sys2Proof.Machine.execBistRun m s
  | .bistComplete failSkeins failChannels failIod failVideo repairs => Sys2Proof.Machine.execBistComplete failSkeins failChannels failIod failVideo repairs s
  | .bistQuery m => Sys2Proof.Machine.execBistQuery m s
  | .faultRead m => Sys2Proof.Machine.execFaultRead m s
  | .mirrorSet m => Sys2Proof.Machine.execMirrorSet m s
  | .ckptQuery m => Sys2Proof.Machine.execCkptQuery m s
  | .ckptRestore m => Sys2Proof.Machine.execCkptRestore m s
  | .lostRead m => Sys2Proof.Machine.execLostRead m s
  | .logRead m => Sys2Proof.Machine.execLogRead m s
  | .logHead m => Sys2Proof.Machine.execLogHead m s
  | .millFault core => Sys2Proof.Machine.execMillFault core s
  | .millRestartDone digestMatches => Sys2Proof.Machine.execMillRestartDone digestMatches s
  | .portTrainingDone p locked => Sys2Proof.Machine.execPortTrainingDone p locked s
  | .portSignalLoss p => Sys2Proof.Machine.execPortSignalLoss p s
  | .cablePresentChange p present => Sys2Proof.Machine.execCablePresentChange p present s
  | .hello p f => Sys2Proof.Machine.execHello p f s
  | .auth p f => Sys2Proof.Machine.execAuth p f s
  | .fin p f => Sys2Proof.Machine.execFin p f s
  | .handshakeTimeout p => Sys2Proof.Machine.execHandshakeTimeout p s
  | .rekey p f => Sys2Proof.Machine.execRekey p f s
  | .rekeyInterval p => Sys2Proof.Machine.execRekeyInterval p s
  | .link p f => Sys2Proof.Machine.execLink p f s
  | .linkErrorFrame p e => Sys2Proof.Machine.execLinkErrorFrame p e s
  | .linkAckTimeout p => Sys2Proof.Machine.execLinkAckTimeout p s
  | .creditTimeout p vc => Sys2Proof.Machine.execCreditTimeout p vc s
  | .creditDeadTime p => Sys2Proof.Machine.execCreditDeadTime p s
  | .write p f => Sys2Proof.Machine.execWrite p f s
  | .signal p f => Sys2Proof.Machine.execSignal p f s
  | .mirror p f => Sys2Proof.Machine.execMirror p f s
  | .coll p f => Sys2Proof.Machine.execColl p f s
  | .resp p f => Sys2Proof.Machine.execResp p f s
  | .stop p f => Sys2Proof.Machine.execStop p f s
  | .stopExpiry dev => Sys2Proof.Machine.execStopExpiry dev s
  | .respGatherExpiry dev => Sys2Proof.Machine.execRespGatherExpiry dev s
  | .e2eTimeout dev tag => Sys2Proof.Machine.execE2eTimeout dev tag s
  | .collectiveStart a va => Sys2Proof.Machine.execCollectiveStart a va s
  | .collectiveTimeout p => Sys2Proof.Machine.execCollectiveTimeout p s
  | .skeinFault u => Sys2Proof.Machine.execSkeinFault u s
  | .skeinProbe => Sys2Proof.Machine.execSkeinProbe s
  | .skeinProbeTimeout k => Sys2Proof.Machine.execSkeinProbeTimeout k s
  | .t1Ue dpa rd => Sys2Proof.Machine.execT1Ue dpa rd s
  | .t2Ue dpa rd => Sys2Proof.Machine.execT2Ue dpa rd s
  | .videoParity k => Sys2Proof.Machine.execVideoParity k s
  | .recoveryStopped p => Sys2Proof.Machine.execRecoveryStopped p s
  | .recoveryReplacementDone p => Sys2Proof.Machine.execRecoveryReplacementDone p s
  | .recoveryRestoreDone p micros => Sys2Proof.Machine.execRecoveryRestoreDone p micros s
  | .checkpointCopy p => Sys2Proof.Machine.execCheckpointCopy p s
  | .checkpointComplete p => Sys2Proof.Machine.execCheckpointComplete p s
  | .mirrorCommit p => Sys2Proof.Machine.execMirrorCommit p s
  | .mirrorFail p => Sys2Proof.Machine.execMirrorFail p s
  | .mirrorHeartbeat p => Sys2Proof.Machine.execMirrorHeartbeat p s
  | .peerLost p => Sys2Proof.Machine.execPeerLost p s
  | .blockReady => Sys2Proof.Machine.execBlockReady s
  | .pwrDrainTimeout => Sys2Proof.Machine.execPwrDrainTimeout s
  | .powerRollbackDone => Sys2Proof.Machine.execPowerRollbackDone s
  | .wakeEvent cause => Sys2Proof.Machine.execWakeEvent cause s
  | .wakeDone digestMatches => Sys2Proof.Machine.execWakeDone digestMatches s
  | .powerSample watts tenMillivolts => Sys2Proof.Machine.execPowerSample watts tenMillivolts s
  | .pwrbrkAssert => Sys2Proof.Machine.execPwrbrkAssert s
  | .pwrbrkRelease => Sys2Proof.Machine.execPwrbrkRelease s
  | .dieTempChange source temp => Sys2Proof.Machine.execDieTempChange source temp s
  | .thermalTrip source => Sys2Proof.Machine.execThermalTrip source s
  | .supplyLoss => Sys2Proof.Machine.execSupplyLoss s
  | .checkReturnExpiry => Sys2Proof.Machine.execCheckReturnExpiry s
  | .inputQualified => Sys2Proof.Machine.execInputQualified s
  | .shutdownEnd => Sys2Proof.Machine.execShutdownEnd s
  | .inputOvercurrent => Sys2Proof.Machine.execInputOvercurrent s
  | .coldStart facts => Sys2Proof.Machine.execColdStart facts s
  | .glbReset value => Sys2Proof.Machine.execGlbReset value s
  | .perstAssert => Sys2Proof.Machine.execPerstAssert s
  | .perstDeassert refclkToggling => Sys2Proof.Machine.execPerstDeassert refclkToggling s
  | .functionReset f => Sys2Proof.Machine.execFunctionReset f s
  | .vfEnableClear => Sys2Proof.Machine.execVfEnableClear s
  | .linkReset => Sys2Proof.Machine.execLinkReset s
  | .configRequest f off write => Sys2Proof.Machine.execConfigRequest f off write s
  | .atsInvalidate f page => Sys2Proof.Machine.execAtsInvalidate f page s
  | .pageRequestGroupResponse f prg success => Sys2Proof.Machine.execPageRequestGroupResponse f prg success s
  | .priTimeout f prg => Sys2Proof.Machine.execPriTimeout f prg s
  | .hostReadError n e => Sys2Proof.Machine.execHostReadError n e s
  | .hostWriteReject => Sys2Proof.Machine.execHostWriteReject s
  | .msixUnmask f vector => Sys2Proof.Machine.execMsixUnmask f vector s
  | .mctpMessage type body => Sys2Proof.Machine.execMctpMessage type body s
  | .setEndpointId eid => Sys2Proof.Machine.execSetEndpointId eid s
  | .getEndpointId => Sys2Proof.Machine.execGetEndpointId s
  | .getMessageTypeSupport => Sys2Proof.Machine.execGetMessageTypeSupport s
  | .mctpGetVersion => Sys2Proof.Machine.execMctpGetVersion s
  | .setdasa static dynamic => Sys2Proof.Machine.execSetdasa static dynamic s
  | .entdaa dynamic => Sys2Proof.Machine.execEntdaa dynamic s
  | .smbusReadByte command => Sys2Proof.Machine.execSmbusReadByte command s
  | .doeDiscovery index => Sys2Proof.Machine.execDoeDiscovery index s
  | .getVersion t => Sys2Proof.Machine.execGetVersion t s
  | .getCapabilities t version => Sys2Proof.Machine.execGetCapabilities t version s
  | .negotiateAlgorithms t asym hash => Sys2Proof.Machine.execNegotiateAlgorithms t asym hash s
  | .getDigests t => Sys2Proof.Machine.execGetDigests t s
  | .getCertificate t slot offset length => Sys2Proof.Machine.execGetCertificate t slot offset length s
  | .challenge t slot nonce => Sys2Proof.Machine.execChallenge t slot nonce s
  | .getMeasurements t index sign nonce => Sys2Proof.Machine.execGetMeasurements t index sign nonce s
  | .spdmUnsupportedRequest t code => Sys2Proof.Machine.execSpdmUnsupportedRequest t code s
  | .debugApertureAccess off wide write => Sys2Proof.Machine.execDebugApertureAccess off wide write s
  | .secHaltHalt t => Sys2Proof.Machine.execSecHaltHalt t s
  | .secHaltResume t => Sys2Proof.Machine.execSecHaltResume t s
  | .bypass => Sys2Proof.Machine.execBypass s
  | .samplePreload preload => Sys2Proof.Machine.execSamplePreload preload s
  | .extest => Sys2Proof.Machine.execExtest s
  | .xident => Sys2Proof.Machine.execXident s
  | .dbgAccess value => Sys2Proof.Machine.execDbgAccess value s
  | .uartCommand readOnlyStatus line => Sys2Proof.Machine.execUartCommand readOnlyStatus line s
  | .flashPackageTempChange ch temp => Sys2Proof.Machine.execFlashPackageTempChange ch temp s
  | .inputBelow30V => Sys2Proof.Machine.execInputBelow30V s
  | .waitCommitTimeout => Sys2Proof.Machine.execWaitCommitTimeout s
  | .powerGoodTimeout => Sys2Proof.Machine.execPowerGoodTimeout s
  | .holdupStoreCharged tenthJoules => Sys2Proof.Machine.execHoldupStoreCharged tenthJoules s
  | .returnEraseDone => Sys2Proof.Machine.execReturnEraseDone s
  | .commandAddressParityError ch => Sys2Proof.Machine.execCommandAddressParityError ch s
  | .pcieLinkUp speed width flit => Sys2Proof.Machine.execPcieLinkUp speed width flit s
  | .atsTranslationCompletion n granted => Sys2Proof.Machine.execAtsTranslationCompletion n granted s
  | .bar2Write off data => Sys2Proof.Machine.execBar2Write off data s

end Sys2Proof.Machine
end

