-- ==== Sys2Proof/Safety.lean ====
section
/-! DEFINITION. What counts as a well-kept state, and when the turn of a command has come; statements are made in these terms. -/

namespace Sys2Proof.Machine

/-! ## Well-kept states -/

/-- Memory of DPAs and of LBAs is in canonical form. -/
def State.memWf (s : State) : Bool := SMap.wf (fun _ => (0 : Byte)) s.mem && SMap.wf (fun _ => (0 : Byte)) s.flash

/-- The register file is in canonical form: no field instance is listed with its reset value. -/
def State.regsWf (s : State) : Bool := SMap.wf regDefault s.regs

/-- The register file is in canonical form and every listed value fits its field. -/
def State.regsFit (s : State) : Bool := s.regsWf && s.regs.all fun e => decide (e.2 < 2 ^ (Fld.ofNat (e.1 / 2 ^ 20)).width)

/-- Wherever the register map shows a field, it has this access code (R10). -/
def Fld.always (f : Fld) (acc : Acc) : Prop := ∀ b off h x, regAt b off = some h → x ∈ h.row.fields → x.fld = f → x.acc = acc

/-- Commands of the register, JTAG and management ports and of the link that act on single registers. -/
def portCommand : Instr → Bool
  | .registerWrite .. | .badSizeAccess .. | .hostWriteReject .. | .secHaltHalt .. | .secHaltResume ..
  | .bypass .. | .xident .. | .samplePreload .. | .extest .. | .uartCommand .. | .setEndpointId .. | .getEndpointId .. | .mctpGetVersion ..
  | .getMessageTypeSupport .. | .setdasa .. | .entdaa .. | .smbusReadByte .. | .doeDiscovery .. | .pcieLinkUp .. | .perstDeassert ..
  | .bar2Write .. | .msixUnmask .. | .atsInvalidate .. | .skeinProbe .. => true
  | _ => false

/-! ## Turns -/

/-- The next instruction of matrix core `c` is `t`, at `pc`: its task runs, issue waits for nothing (R78, R179). -/
def State.atTile (s : State) (c pc : Nat) (t : Tile) : Prop :=
  (s.pump c).coreLive c = true ∧ ((s.pump c).mcore c).wait = .none ∧ (s.pump c).fget .mcrPc c = pc ∧
    (((s.pump c).mcore c).prog[pc]?).bind decodeTile = some t

/-- The row of a data instruction of matrix core `c` (R78, R94). -/
def dataRow (c : Fin 512) : Tile → Option Instr
  | .xfer st .. => some (if st then .tst c else .tld c)
  | .tma .. => some (.tma c)
  | .tch .. => some (.tch c)
  | .trw op .. => match op with
    | 0 => some (.trwLoadcfg c)
    | 1 => some (.trwApply c)
    | 2 => some (.trwSave c)
    | 3 => some (.trwRestore c)
    | _ => none
  | .tep .. => some (.tep c)
  | .thx dir .. => if dir = 0 then some (.thxSend c) else if dir = 1 then some (.thxReceive c) else none
  | _ => none

/-- The next instruction of carding thread `t` is `w`, of a row, `len` bytes long, at `pc`; `u` is the state after its fetch (R179). -/
def State.atCard (s : State) (t : Nat) (row : CRow) (u : State) (pc len w : Nat) : Prop :=
  s.threadLive t = true ∧ s.fget .crdPc t = pc ∧ s.cfetch t pc = (u, .inr (some w, len)) ∧ rowOf w = some row

/-- The record of ring `g` that starts next is `x`, of type `ty`; it waits for no translation and is not skipped (R343, R348, R353). -/
def State.recTurn (s : State) (g ty : Nat) (x : Rec) : Prop :=
  s.nextStart g = some x ∧ byteAt x.data 0 = ty ∧ s.waitsFor (.record g x.idx) = false ∧ s.skips g x = false

/-- The request of a mailbox that is applied next for an opcode is `r`; its partition is formed where it must be, and the functions it
needs are ready (R377, R383, R396, R505). -/
def State.cmdTurn (s : State) (mb : Mbx) (op : Nat) (r : MbxReq) : Prop :=
  s.millServes (mbxNum mb) = true ∧ s.nextRequest (mbxNum mb) op = some r ∧
    (op = 0x201 ∨ ((mbxNum mb < 64 → s.formed (mbxNum mb) = true ∨ servedUnformed op = true) ∧
      (actsOnPart op r.data = true → s.formed (byteAt r.data 5) = true))) ∧
    s.readyFor op r.data = true

/-- A command is applied to the state and answered (R377). -/
def State.commanded (s : State) (mb : Mbx) (r : MbxReq) (f : State → Nat → MbxReq → State × Ans) : State :=
  (f s (mbxNum mb) r).1.answer (mbxNum mb) r (f s (mbxNum mb) r).2

/-- A frame of TYPE `ty` arrives in order on a port that carries it, and is well formed (R418, R423, R426). -/
def State.frameIn (s : State) (p ty : Nat) (f : FabFrame) : Prop :=
  f.header.length = 32 ∧ byteAt f.header 0 = ty ∧ 3 ≤ s.fget .flkPortState p ∧ bigFld f.header 14 2 = (s.port p).rxSeq ∧
    frameBad f = false ∧ carriesType (s.fget .flkPortState p) ((s.takeFrame p f).port p).hs ty = true

/-- The state once a port has taken a frame, before the frame's own effect (R426, R428, R451). -/
def State.gotFrame (s : State) (p : Nat) (f : FabFrame) : State := (s.takeFrame p f).flipKey p f.header

/-- A frame as its port hands it on. -/
def framed (f : Frame) : FabFrame := ⟨f.header, f.payload⟩

/-- The mill serves an SPDM request of a transport (R525). -/
def State.spdmServed (s : State) : Prop := s.millUp = true ∧ s.fget .pwrState 0 ≠ 4

end Sys2Proof.Machine
end

