-- ==== Sys2Proof/WellFormed.lean ====
section
/-! DEFINITION. Which operands a command may carry: lengths, ranges and sizes that the types do not already say. -/

namespace Sys2Proof

/-- A frame as a receiver sees it: a header of 32 bytes and at most 4,096 payload bytes in 64 B units (R420, R421). -/
def Frame.wf (f : Frame) : Bool := f.header.length == 32 && f.payload.length ≤ 4096

/-- A frame of video: inside the sizes of R310 and R311. -/
def FrameInfo.wf (f : FrameInfo) : Bool := decide (f.width ≤ 65535) && decide (f.height ≤ 65535)

/-- A 32-bit write carries a 32-bit value (R9). -/
def wideOk (wide : Bool) (v : BitVec 64) : Bool := wide || decide (v.toNat < 2 ^ 32)

/-- An access of R9 that is not of a register's size, or is not aligned to it. -/
def sizeBad (off size : Nat) : Bool := !((size == 4 || size == 8) && off % size == 0)

/-- The command is well formed. -/
def Instr.wf : Instr → Bool
  | .registerWrite _ wide w => wideOk wide w.value && wideOk wide w.sets
  | .badSizeAccess _ off size _ => sizeBad off size
  | .whorlJump _ wide v | .whorlSeek _ wide v => wideOk wide v
  | .imbalanceWindow counts => counts.all fun c => decide (c.2.2 < 2 ^ 32)
  | .videoFrameStart info => info.wf
  | .coldStart facts => facts.failPos.all fun p => decide (p.1 < 4) && decide (p.2 < 17)
  | .hello _ f | .auth _ f | .fin _ f | .rekey _ f | .link _ f | .write _ f | .signal _ f | .mirror _ f | .coll _ f
  | .resp _ f | .stop _ f => f.wf
  | .configRequest _ off _ => decide (off.toNat % 4 = 0)
  | .mctpMessage type _ => decide (type.toNat < 128)
  | .t1Ue dpa _ | .t2Ue dpa _ => decide (dpa.toNat < 2 ^ 48)
  | _ => true

end Sys2Proof
end

