-- ==== Sys2Proof/Certificates/Slice0/Obligations.lean ====
section
/-! DEFINITION. The statements for the provers. -/

open Sys2Proof Sys2Proof.Machine

/-! ## The block -/

/-- A step takes the command at the front of the queue and runs it on the state with the queue's rest. -/
def Obligations.StepRunsFrontCommand : Prop :=
  ∀ (c : Instr) (rest : List Instr) (s : State), step { s with pending := c :: rest } = exec c { s with pending := rest }

/-- After reset every field of the register file holds the reset value of its table (R13): among them every ring is DISABLED with HEAD 0 and LOG2N 4
(R341), every matrix core is idle at PC 0 with no flag set (R99), every port is OFF (R452), no partition is formed, time and READY are 0 (R512),
PWR_CAP is 2,000 W (R511), and the applied debug level is 0 (R536). No command waits; that memory lists no byte is the model's choice (log entry 5).
-/
def Obligations.ResetLeavesTableValues : Prop :=
  (∀ f i, i < 2 ^ 20 → State.reset.fget f i = f.reset i) ∧
  (∀ g, State.reset.fget .ringState g = 0 ∧ State.reset.fget .ringHead g = 0 ∧ State.reset.fget .ringCfgLog2n g = 4) ∧
  (∀ c, State.reset.fget .mcrPc c = 0 ∧ State.reset.fget .mcrFlags c = 0 ∧ State.reset.fget .mcrStatusBusy c = 0) ∧
  (∀ p, State.reset.fget .flkPortState p = 0 ∧ State.reset.fget .ringPstatusFormed p = 0) ∧
  State.reset.fget .glbTime 0 = 0 ∧ State.reset.fget .glbReadyStatus 0 = 0 ∧ State.reset.fget .pwrCap 0 = 2000 ∧
  State.reset.fget .secDbgApplied 0 = 0 ∧ State.reset.mem = [] ∧ State.reset.pending = []

/-! ## Accesses of the host and of the mill (R9 to R12, R226, R251, R551) -/

/-- REGISTER_WRITE, naturally aligned, writes the fields of the register that it reaches; a write that a power state blocks is discarded and counted
(R489), one that reaches nothing changes nothing. One that is not naturally aligned is discarded, and counted where the host sent it (R9; ERRIRQ is
0, so that no interrupt goes with the count). Field by field (R10): an RW field takes the value written, as its description takes it; a 1 clears a
W1C bit, unless hardware sets it at the same moment (R11); RO and WO fields and fields outside the access keep their value. MCR_FLAG_SET sets flags,
MCR_FLAG_CLR clears flags that are not set in the same MCLK, VID_CORE_EN selects cores (R90, R99, R338), and nothing else changes. -/
def Obligations.RegisterWriteActs : Prop :=
  (∀ (a : Access) (wide : Bool) (w : Written) (s : State),
    (accessAt a % (if wide then 8 else 4) = 0 →
      (∀ b inst off, s.locate a = .reg b inst off →
        exec (.registerWrite a wide w) s = .next (s.regWrite b inst off wide w.value.toNat w.sets.toNat)) ∧
      (∀ m off, s.locate a = .slot m off → exec (.registerWrite a wide w) s = .next (s.slotStore m off wide w.value.toNat)) ∧
      (∀ f off, s.locate a = .msixTable f off → wide = false →
        exec (.registerWrite a wide w) s = .next (s.msixWrite f off (w.value.toNat % 2 ^ 32))) ∧
      (s.locate a = .blocked → exec (.registerWrite a wide w) s = .next (s.fadd .pwrBlocked 0 1)) ∧
      (s.locate a = .refused ∨ s.locate a = .unmapped → exec (.registerWrite a wide w) s = .next s)) ∧
    (accessAt a % (if wide then 8 else 4) ≠ 0 → s.locate a ≠ .asleep → s.fget .pciCtl 0 = 0 →
      exec (.registerWrite a wide w) s = .next (if accessByHost a then s.fadd .pciBadsize 0 1 else s))) ∧
  (∀ (s : State) (i mask v sets : Nat) (f : FieldAt),
    let m := bitField mask f.lo f.fld.width
    let x := bitField v f.lo f.fld.width
    let old := s.fget f.fld i
    (m = 0 → s.writeField i f mask v sets = s) ∧
    (f.acc = .ro ∨ f.acc = .wo → s.writeField i f mask v sets = s) ∧
    (m ≠ 0 → f.acc = .w1c →
      (s.writeField i f mask v sets).fget f.fld i = ((old - (old &&& x &&& m)) ||| bitField sets f.lo f.fld.width) % 2 ^ f.fld.width) ∧
    (∀ y, m ≠ 0 → f.acc = .rw → s.taken f.fld i ((old - (old &&& m)) + (x &&& m)) = some y →
      (s.writeField i f mask v sets).fget f.fld i = y % 2 ^ f.fld.width)) ∧
  (∀ (a : Access) (m : BitVec 16) (c : Nat) (s : State), s.trigger a .mcrFlagSet = some c →
    exec (.mcrFlagSet a m) s = .next (s.fset .mcrFlags c (s.fget .mcrFlags c ||| m.toNat))) ∧
  (∀ (a : Access) (m k : BitVec 16) (c : Nat) (s : State), s.trigger a .mcrFlagClr = some c →
    exec (.mcrFlagClr a m k) s = .next (s.fset .mcrFlags c ((BitVec.ofNat 16 (s.fget .mcrFlags c) &&& ~~~m) ||| k).toNat)) ∧
  (∀ (a : Access) (e : BitVec 24) (i : Nat) (s : State), s.trigger a .vidCoreEn = some i →
    exec (.vidCoreEn a e) s = .next (s.fset .vidCoreEn i e.toNat))

/-- Accesses of a wrong size or alignment (R9), to no listed block of PF0 (R551), and to addresses that R226 refuses: a read returns all ones, zero,
and all ones; a write is discarded; each is counted. ERRIRQ is 0 in the first two, so that no interrupt goes with the count. -/
def Obligations.DeniedAccessesAreCounted : Prop :=
  (∀ (f : Func) (off size : Nat) (s : State), s.asleep f = false → sizeBad off size = true → s.fget .pciCtl 0 = 0 →
    exec (.badSizeAccess f off size true) s = .next (s.fadd .pciBadsize 0 1) ∧
    exec (.badSizeAccess f off size false) s = .next ((s.fadd .pciBadsize 0 1).emit (.readData size (2 ^ (8 * size) - 1)))) ∧
  (∀ (off : Nat) (wide : Bool) (s : State), s.asleep .pf0 = false → pfLoc off = .unmapped → off % (if wide then 8 else 4) = 0 →
    s.fget .pciCtl 0 = 0 →
    exec (.barUnmappedAccess .pf0 off wide true) s = .next (s.fadd .pciUnmapped 0 1) ∧
    exec (.barUnmappedAccess .pf0 off wide false) s = .next ((s.fadd .pciUnmapped 0 1).emit (.readData (if wide then 8 else 4) 0))) ∧
  (∀ (a : Access) (size : Nat) (s : State), s.locate a = .refused →
    exec (.unbackedDpaAccess a size true) s = .next (s.fadd .tierUnbacked 0 1) ∧
    exec (.unbackedDpaAccess a size false) s = .next ((s.fadd .tierUnbacked 0 1).emit (.readData size (2 ^ (8 * size) - 1))))

/-! ## Rings (R339 to R358) -/

/-- A doorbell on an ACTIVE ring that publishes records of the ring moves P (R342). One on a HELD ring is recorded; one on a ring that is DISABLED,
or that a DISABLE empties, is ignored and counted in RING_DBIGN (R339, R345). One behind HEAD or too far beyond it makes an ACTIVE ring guilty with
cause 5: the ring is stopped at its HEAD (R342, R367). -/
def Obligations.DoorbellOfRing : Prop :=
  (∀ (a : Access) (v : BitVec 32) (g : Nat) (s : State), s.trigger a .ringDb = some g →
      (s.fget .ringState g = 1 → (s.ring g).disabling = false →
        (v.toNat + 2 ^ 32 - s.fget .ringHead g) % 2 ^ 32 ≤ s.ringSlots g → v.toNat ≠ (s.ring g).tail →
        exec (.ringDb a v) s = .next (s.setRing g fun r => { r with tail := v.toNat })) ∧
      (s.fget .ringState g = 2 → (s.ring g).disabling = false →
        exec (.ringDb a v) s = .next (s.setRing g fun r => { r with heldDb := r.heldDb ++ [v.toNat] })) ∧
      (s.fget .ringState g = 0 ∨ (s.ring g).disabling = true → exec (.ringDb a v) s = .next (s.fadd .ringDbign g 1))) ∧
  (∀ (a : Access) (v : BitVec 32) (g : Nat) (s : State), s.trigger a .ringDb = some g → s.fget .ringState g = 1 →
      (s.ring g).disabling = false → s.ringSlots g < (v.toNat + 2 ^ 32 - s.fget .ringHead g) % 2 ^ 32 → v.toNat ≠ (s.ring g).tail →
      exec (.ringDb a v) s = .next (s.markGuilty g 5 (s.fget .ringHead g)))

/-- ENABLE in DISABLED sets HEAD and P to RING_START and makes the ring ACTIVE, where its partition is formed and has a skein; without one it does
nothing. REARM does it in GUILTY and clears ERR (R345). Where a power state stops a quadrant of the partition, the ring becomes HELD (R489). Other
rings and memory stay as they are. -/
def Obligations.EnableAndRearmRestartRing : Prop :=
  ∀ (a : Access) (g : Nat) (s : State), s.trigger a .ringCtl = some g → g < 1024 →
    let state := if s.inQuads (g / 16) s.quadStop then 2 else 1
    (s.fget .ringState g = 0 → s.formed (g / 16) = true → (s.part (g / 16)).mask ≠ 0 →
      ∃ t, exec (.enable a) s = .next t ∧ t.fget .ringState g = state ∧ t.fget .ringHead g = s.fget .ringStart g % 2 ^ 32 ∧
        (t.ring g).tail = s.fget .ringStart g ∧ (t.ring g).recs = [] ∧ t.mem = s.mem ∧ t.fget .ringStateErr g = s.fget .ringStateErr g ∧
        ∀ h, h ≠ g → t.ring h = s.ring h ∧ (h < 1024 → t.fget .ringState h = s.fget .ringState h ∧ t.fget .ringHead h = s.fget .ringHead h)) ∧
    (s.fget .ringState g = 0 → s.formed (g / 16) = false ∨ (s.part (g / 16)).mask = 0 → exec (.enable a) s = .next s) ∧
    (s.fget .ringState g = 3 →
      ∃ t, exec (.rearm a) s = .next t ∧ t.fget .ringState g = state ∧ t.fget .ringHead g = s.fget .ringStart g % 2 ^ 32 ∧
        (t.ring g).tail = s.fget .ringStart g ∧ t.fget .ringStateErr g = 0 ∧ t.mem = s.mem ∧
        ∀ h, h ≠ g → t.ring h = s.ring h ∧ (h < 1024 → t.fget .ringState h = s.fget .ringState h ∧ t.fget .ringHead h = s.fget .ringHead h))

/-- FLUSH discards published records that have not started and moves HEAD to P; DISABLE does it too, and the ring is DISABLED once no record is in
flight; CLRERR clears ERR in any state; an operation written in another state than its own is ignored (R345). -/
def Obligations.FlushDisableClrerr : Prop :=
  (∀ (a : Access) (g : Nat) (s : State), s.trigger a .ringCtl = some g → g < 1024 →
      (s.fget .ringState g = 1 ∨ s.fget .ringState g = 2 →
        (∃ t, exec (.flush a) s = .next t ∧ t.fget .ringHead g = (s.ring g).tail % 2 ^ 32 ∧ (t.ring g).recs = (s.ring g).recs.filter (s.begun g) ∧
          t.fget .ringState g = s.fget .ringState g ∧ t.mem = s.mem) ∧
        (∃ t, exec (.disable a) s = .next t ∧ t.fget .ringHead g = (s.ring g).tail % 2 ^ 32 ∧ t.mem = s.mem ∧
          ((s.ring g).recs.filter (s.begun g) = [] → t.fget .ringState g = 0) ∧
          ((s.ring g).recs.filter (s.begun g) ≠ [] → t.fget .ringState g = s.fget .ringState g ∧ (t.ring g).disabling = true))) ∧
      exec (.clrerr a) s = .next (s.fset .ringStateErr g 0)) ∧
  (∀ (a : Access) (g : Nat) (s : State), s.trigger a .ringCtl = some g →
      (s.fget .ringState g ≠ 0 → exec (.enable a) s = .next s) ∧
      (s.fget .ringState g ≠ 3 → exec (.rearm a) s = .next s) ∧
      (s.fget .ringState g ≠ 1 ∧ s.fget .ringState g ≠ 2 → exec (.flush a) s = .next s ∧ exec (.disable a) s = .next s))

/-- The record whose turn has come starts (R343, R347). A GRAPH whose job step succeeds and whose nodes can be read runs, and its nodes without
predecessors become ready (R359). A COPY or STREAM becomes a chain on its stream engine. SIGNAL_PEER goes to the peer, is applied at once where the
peer is this module, and ends UNREACHABLE while no device number is set (R357). A WAIT ends where its condition holds, and otherwise holds its ring
(R358). FENCE and NOP end (R354). A VIDEO job for an open session joins the video queue (R316). -/
def Obligations.RecordsStart : Prop :=
  ∀ (p : Fin 64) (r : Fin 16) (x : Rec) (s : State),
    let g := 16 * p.val + r.val
    let d := x.data
    (s.recTurn g 1 x → (s.engineLoad (s.homeQuad (g / 16))).1 < 64 → (s.engineLoad (s.homeQuad (g / 16))).2 + fld d 24 4 ≤ 1048576 →
      ∀ u k v nodes, s.graphJob g x = (u, .inl (some k)) →
        u.readNodes (g / 16) (fld d 16 6) (fld d 24 4) (fld d 24 4) [] = (v, .inl nodes) →
        let y : Graph := { ring := g, idx := x.idx, gen := x.gen, nodes := nodes, stamp := v.stamp }
        exec (.graph p r) s = .next ((({ v.tick with graphs := v.graphs ++ [y] } : State).started' g x.idx).readyAll g x.idx
          ((List.range (fld d 24 4)).filter fun i => (y.node i).pending = 0))) ∧
    (s.recTurn g 2 x → s.workAllowed g = true → exec (.copy p r) s = .next ((s.started' g x.idx).startChain
      { engine := s.homeQuad (g / 16), part := g / 16, job := s.jobOf g, of := .record g x.idx x.gen, dva := 0,
        desc := copyDesc (fld d 16 6) (fld d 24 6) (fld d 32 8 / 64) })) ∧
    (s.recTurn g 3 x → x.reported = true → exec (.signalLocal p r) s = .next (s.endRec g x.idx 0 0 0 0)) ∧
    (s.recTurn g 4 x → s.writesOpen g = false → x.reported = false →
      (s.ownDev = none → exec (.signalPeer p r) s = .next (s.endRec g x.idx 0x10 0 0 0)) ∧
      (s.ownDev = some (fld d 14 2) →
        let q := s.peerSignal (fld d 14 2) (byteAt d 16) (byteAt d 13) (byteAt d 12) (fld d 24 8)
        exec (.signalPeer p r) s = .next (q.1.endRec g x.idx q.2 0 0 0)) ∧
      (∀ own, s.ownDev = some own → own ≠ fld d 14 2 → exec (.signalPeer p r) s = .next ((s.started' g x.idx).fabSubmit
        [{ owner := .signal g x.idx x.gen, dst := fld d 14 2, ty := 2, spart := g / 16, dpart := byteAt d 16,
           opf := byteAt d 12 + 256 * byteAt d 13, payload := toBytes 8 (fld d 24 8) }]))) ∧
    (∀ u, s.recTurn g 5 x → s.waitCond (g / 16) d = (u, .holds) →
      exec (.wait p r) s = .next ((u.endRec g x.idx 0 0 0 0).fset .ringStateWaiting g 0)) ∧
    (∀ u, s.recTurn g 5 x → s.waitCond (g / 16) d = (u, .no) →
      exec (.wait p r) s = .next ((u.started' g x.idx).fset .ringStateWaiting g 1)) ∧
    (s.recTurn g 6 x → exec (.fence p r) s = .next (s.endRec g x.idx 0 0 0 0)) ∧
    (s.recTurn g 7 x → s.workAllowed g = true → exec (.stream p r) s = .next ((s.started' g x.idx).startChain
      { engine := byteAt d 12, part := g / 16, job := s.jobOf g, of := .record g x.idx x.gen, dva := fld d 16 6 })) ∧
    (∀ u e, s.recTurn g 8 x → s.workAllowed g = true → s.vread (g / 16) (fld d 16 6) 128 = (u, .ok e) →
      let v := u.vs (fld e 4 4 % 2 ^ 24)
      v.isOpen = true → v.closing = false → v.gen = fld e 4 4 / 2 ^ 24 → v.part = g / 16 → u.vidBad (g / 16) e v = false →
      exec (.video p r) s = .next (State.syncVid { u.started' g x.idx with videos :=
        u.videos ++ [{ ring := g, idx := x.idx, gen := x.gen, sess := fld e 4 4 % 2 ^ 24, desc := e }] } (g / 16))) ∧
    (s.recTurn g 0xF x → exec (.nop p r) s = .next (s.endRec g x.idx 0 0 0 0))

/-- SIGNAL_LOCAL on a slot whose generation matches applies its operation (SET, MAX or ADD) to the slot's value and ends DONE; otherwise the slot's
stale counter rises and the record ends STALE (R355, R356). -/
def Obligations.SignalLocalOnSlot : Prop :=
  ∀ (p : Fin 64) (r : Fin 16) (x : Rec) (s : State),
    let g := 16 * p.val + r.val
    let i := 256 * p.val + byteAt x.data 14
    let v := fld x.data 24 8
    s.recTurn g 3 x → byteAt x.data 12 = 1 → x.reported = false →
    (s.fget .ringSlotGen i = bitField v 56 8 →
      exec (.signalLocal p r) s = .next ((s.fset .ringSlotValue i (signalOp (byteAt x.data 13) 56 (s.fget .ringSlotValue i) (bitField v 0 56))).endRec
        g x.idx 0 0 0 0)) ∧
    (s.fget .ringSlotGen i ≠ bitField v 56 8 → exec (.signalLocal p r) s = .next ((s.fsat .ringSlotstale i 1).endRec g x.idx 8 0 0 0))

/-- RECORD_FETCH takes the next record of the ring that arbitration grants (R343, R411); a fetch whose translation fails makes its ring guilty with
cause FETCH. A record with SKIPONERR whose turn comes while ERR is set does nothing and completes SKIPPED, whatever its type (R353). -/
def Obligations.RecordsAreFetchedOrSkipped : Prop :=
  (∀ (p g : Nat) (s : State),
      leastRecent (fun p => (s.part p).fetchStamp) ((List.range 64).filter fun p => (List.range 16).any fun r => s.canFetch (16 * p + r)) = some p →
      s.bestRing (·.fetchStamp) (((List.range 16).map (16 * p + ·)).filter s.canFetch) = some g → (s.ring g).replay = [] →
      let h := s.fget .ringHead g
      let va := s.fget .ringBase g * 4096 + 64 * (h % s.ringSlots g)
      (∀ u d, s.vread (g / 16) va 64 = (u, .ok d) →
        exec .recordFetch s = .next ((u.fadd .ringHead g 1).takeRec g
          { idx := h, gen := s.fget .ringStateGen g, data := d, reported := (s.ring g).reported.contains h })) ∧
      (∀ u a ro, s.vread (g / 16) va 64 = (u, .bad a ro) → exec .recordFetch s = .next (u.markGuilty g 6 h)) ∧
      (∀ u a k, s.vread (g / 16) va 64 = (u, .wait a k) → exec .recordFetch s = .next (u.enterWait ⟨.fetch g, g / 16, a, false, k⟩))) ∧
  (∀ (p : Fin 64) (r : Fin 16) (x : Rec) (s : State),
    let g := 16 * p.val + r.val
    s.nextStart g = some x → s.waitsFor (.record g x.idx) = false → s.skips g x = true →
    ∀ c, (byteAt x.data 0, c) ∈ [(1, Instr.graph p r), (2, .copy p r), (3, .signalLocal p r), (4, .signalPeer p r), (5, .wait p r),
      (6, .fence p r), (7, .stream p r), (8, .video p r), (0xF, .nop p r)] →
    exec c s = .next (s.endRec g x.idx 0x12 0 0 0))

/-- A record that has ended completes while its ring is ACTIVE or HELD, except a FENCE of a HELD ring (R339, R350) and, without the mill, a GRAPH
that ends its job (R26); a WAIT wakes when its condition holds, and running out of TO_US makes its ring guilty with cause 4 (R358, R367); the
watchdog of a ring names the oldest record begun, with cause 3 (R366); a GUILTY ring whose work has stopped is reset (R368); a ring that waits ages
by one, up to 7 (R412). -/
def Obligations.RecordEvents : Prop :=
  ∀ (p : Fin 64) (r : Fin 16) (x : Rec) (s : State),
    let g := 16 * p.val + r.val
    (∀ (idx : BitVec 32) st t, (s.ring g).recs.find? (fun y => y.idx = idx.toNat) = some x → x.outcome = some st →
      (s.fget .ringState g = 1 ∨ (s.fget .ringState g = 2 ∧ byteAt x.data 0 ≠ 6)) →
      (byteAt x.data 0 = 1 → bitAt (byteAt x.data 12) 1 = true → s.millUp = true) →
      s.waitsFor (.completion g idx.toNat) = false → s.recovering (g / 16) = false →
      s.completeRec g x st = some t → exec (.recordComplete p r idx) s = .next (t.settleJobs (g / 16))) ∧
    (∀ u, s.waiting g = some x → s.fget .ringState g = 1 → s.waitsFor (.record g x.idx) = false → s.waitCond (g / 16) x.data = (u, .holds) →
      exec (.waitWake p r) s = .next ((u.endRec g x.idx 0 0 0 0).fset .ringStateWaiting g 0)) ∧
    (s.waiting g = some x → fld x.data 32 4 ≠ 0 → exec (.waitTimeout p r) s = .next (s.markGuilty g 4 x.idx)) ∧
    (s.watchdogRuns g = true → (s.ring g).recs.find? (s.begun g) = some x →
      exec (.ringWatchdogExpiry p r) s = .next (s.markGuilty g 3 x.idx)) ∧
    (s.millUp = true → s.fget .ringState g = 4 → s.ringBusy g = false → s.recovering p = false →
      exec (.guiltyResetDone p r) s = .next (s.guiltyDone p r)) ∧
    (s.fget .ringSched (g / 16) ≠ 0 → s.ringWaits g = true →
      exec (.ageTick p r) s = .next (s.setRing g fun q => { q with age := min 7 (q.age + 1) }))

/-! ## Matrix cores: issue (R75 to R94) -/

/-- A data instruction issues: unless the state it uses makes it malformed (R79, R152) or a queue it needs is full, it joins the queue of its units
with the address registers of this moment, what may start starts, and the PC goes on (R78, R94); while a queue it needs is full it waits. So do TLD,
TST (R80), TMA (R81), the four operations of TRW (R83, R127, R128), TEP (R85), THX (R91) and TCH (R126). -/
def Obligations.TileDataInstructionsIssue : Prop :=
  ∀ (c : Fin 512) (pc : Nat) (t : Tile) (s : State),
    let u := s.pump c
    let v := u.enqueue c (u.issuedAt c pc t)
    s.atTile c pc t → (u.mcore c).illegal t = false → u.crowded c t = false →
    (∀ i, dataRow c t = some i → (u.mcore c).full t = true → exec i s = .next u) ∧
    ((u.mcore c).full t = false → v.coreLive c = true →
    ((∃ tag car mar fmap nrow rlen pitch, t = .xfer false tag car mar fmap nrow rlen pitch) → exec (.tld c) s = .next (v.setPc c (pc + 1))) ∧
    ((∃ tag car mar fmap nrow rlen pitch, t = .xfer true tag car mar fmap nrow rlen pitch) → exec (.tst c) s = .next (v.setPc c (pc + 1))) ∧
    ((∃ arr bank acc lfmt rfmt lar rar klen l r lps rps llay iar, t = .tma arr bank acc lfmt rfmt lar rar klen l r lps rps llay iar) →
      exec (.tma c) s = .next (v.setPc c (pc + 1))) ∧
    ((∃ sbank obank first last qfmt kfmt vfmt qar kar var dlen nkv rus kv vsar star lens qps kps q,
        t = .tch sbank obank first last qfmt kfmt vfmt qar kar var dlen nkv rus kv vsar star lens qps kps q) →
      exec (.tch c) s = .next (v.setPc c (pc + 1))) ∧
    ((∃ slot ar arr bank, t = .trw 0 slot ar arr bank) → exec (.trwLoadcfg c) s = .next (v.setPc c (pc + 1))) ∧
    ((∃ slot ar arr bank, t = .trw 1 slot ar arr bank) → exec (.trwApply c) s = .next (v.setPc c (pc + 1))) ∧
    ((∃ slot ar arr bank, t = .trw 2 slot ar arr bank) → exec (.trwSave c) s = .next (v.setPc c (pc + 1))) ∧
    ((∃ slot ar arr bank, t = .trw 3 slot ar arr bank) → exec (.trwRestore c) s = .next (v.setPc c (pc + 1))) ∧
    ((∃ arr bank eslot ofmt oar sar bvar keep nrows, t = .tep arr bank eslot ofmt oar sar bvar keep nrows) →
      exec (.tep c) s = .next (v.setPc c (pc + 1))) ∧
    ((∃ nb car tag nrow rlen slot, t = .thx 0 nb car tag nrow rlen slot) → exec (.thxSend c) s = .next (v.setPc c (pc + 1))) ∧
    ((∃ nb car tag nrow rlen slot, t = .thx 1 nb car tag nrow rlen slot) → exec (.thxReceive c) s = .next (v.setPc c (pc + 1))))

/-- A data instruction that the state it uses makes malformed, or whose operands the core memory does not hold, ends its task with ILLEGAL at its PC
(R79, R152); a TLD or TST whose address is no multiple of 64 is such an instruction. A word that no instruction has ends it with ILLEGAL, and a PC
beyond the program with PROG (R77), in whatever row it is met: here in those of TEND and TLD. -/
def Obligations.BadTileInstructionsEndTask : Prop :=
  (∀ (c : Fin 512) (pc : Nat) (t : Tile) (i : Instr) (s : State),
      s.atTile c pc t → dataRow c t = some i → ((s.pump c).mcore c).illegal t = true ∨ (s.pump c).crowded c t = true →
      exec i s = .next ((s.pump c).stopMatrix c 1 pc)) ∧
  (∀ (m : MCore) st tag car mar fmap nrow rlen pitch,
      m.illegal (.xfer st tag car mar fmap nrow rlen pitch) = true ↔ SMap.get 0 m.mas mar % 64 ≠ 0) ∧
  (∀ (c : Fin 512) (s : State), (s.pump c).coreLive c = true → ((s.pump c).mcore c).wait = .none →
      let u := s.pump c
      let pc := u.fget .mcrPc c
      ((u.mcore c).prog[pc]? = none → exec (.tend c) s = .next (u.stopMatrix c 6 pc) ∧ exec (.tld c) s = .next (u.stopMatrix c 6 pc)) ∧
      (∀ w, (u.mcore c).prog[pc]? = some w → decodeTile w = none →
        exec (.tend c) s = .next (u.stopMatrix c 1 pc) ∧ exec (.tld c) s = .next (u.stopMatrix c 1 pc)))

/-- While nothing is queued or running that it must wait for (R95; here: nothing at all), TPR with CLR empties its slot; without, it loads the word
at its address register when the word is well formed, and ends the task with ILLEGAL when it is not (R84). -/
def Obligations.TprLoadsSlot : Prop :=
  ∀ (c : Fin 512) (pc slot ar : Nat) (s : State),
    let u := s.pump c
    let a := 64 * u.fget .mcrAr (16 * c + ar)
    let b := u.ld (coreMem c + a) 64
    (u.mcore c).queue = [] → (u.mcore c).running = [] →
    (s.atTile c pc (.tpr slot ar 1) →
      exec (.tpr c) s = .next ((u.setMcore c fun m => { m with slots := SMap.set [] m.slots slot [] }).setPc c (pc + 1))) ∧
    (s.atTile c pc (.tpr slot ar 0) → (if slot < 4 then pWordOk b else eWordOk b) = true →
      exec (.tpr c) s = .next ((u.setMcore c fun m => { m with slots := SMap.set [] m.slots slot b }).setPc c (pc + 1))) ∧
    (s.atTile c pc (.tpr slot ar 0) → (if slot < 4 then pWordOk b else eWordOk b) = false →
      exec (.tpr c) s = .next (u.stopMatrix c 1 pc))

/-- TLP opens its level for a count that is not 0, literal or from a length: index registers take base and stride, LC the count, and the body
starts; a count of 0 passes the loop (R86). TLE moves the registers of its masks by one stride and counts: while the count is not 0 the body starts
again, else the registers go back by the whole trip count and the level closes (R87). TSK goes on while its index lies below the length; otherwise
it counts a skip and, with ACT 2, passes NSKIP instructions, with ACT 0 leaves the loop, with ACT 1 goes to its TLE (R88). -/
def Obligations.TileLoops : Prop :=
  (∀ (c : Fin 512) (pc lvl csrc count lsel sh i0v i0ar i0base i0str i1v i1ar i1base i1str : Nat) (s : State),
      let u := s.pump c
      let n := if csrc = 0 then count else ceilDiv (u.fget .mcrLen (4 * c + lsel)) (64 * 2 ^ sh)
      let v := (u.setIndex c lvl i0v i0ar i0base i0str).setIndex c lvl i1v i1ar i1base i1str
      s.atTile c pc (.tlp lvl csrc count lsel sh i0v i0ar i0base i0str i1v i1ar i1base i1str) → lvl = (u.mcore c).loops.length →
      (n ≠ 0 → n < 2 ^ 24 → exec (.tlp c) s = .next ((((v.setMcore c fun m =>
        { m with loops := { lvl := lvl, start := pc + 1, count := n } :: m.loops }).fset .mcrLc (4 * c + lvl) n).setPc c (pc + 1)))) ∧
      (∀ e l, n = 0 → closers (u.mcore c).prog (pc + 1) = e :: l → exec (.tlp c) s = .next (v.setPc c (e + 1)))) ∧
  (∀ (c : Fin 512) (pc lvl armask mamask : Nat) (l : Loop) (rest : List Loop) (s : State),
      let u := s.pump c
      let lc := u.fget .mcrLc (4 * c + lvl) - 1
      let v := ((u.moveArs c lvl armask 1).moveMas c lvl mamask 1).fset .mcrLc (4 * c + lvl) lc
      s.atTile c pc (.tle lvl armask mamask) → (u.mcore c).loops = l :: rest → l.lvl = lvl →
      (lc ≠ 0 → exec (.tle c) s = .next (v.setPc c l.start)) ∧
      (lc = 0 → exec (.tle c) s = .next
        ((((v.moveArs c lvl armask (-(l.count : Int))).moveMas c lvl mamask (-(l.count : Int))).setMcore c fun m => { m with loops := rest }).setPc
          c (pc + 1)))) ∧
  (∀ (c : Fin 512) (pc lsel lvl act tsize ofs nskip : Nat) (l : Loop) (s : State),
      let u := s.pump c
      let i := l.count - u.fget .mcrLc (4 * c + lvl)
      let deeper := (u.mcore c).loops.length - 1 - lvl
      let ends := closers (u.mcore c).prog pc
      s.atTile c pc (.tsk lsel lvl act tsize ofs nskip) → ((u.mcore c).loops.find? fun x => x.lvl = lvl) = some l →
      (ofs + i * tsize < u.fget .mcrLen (4 * c + lsel) → exec (.tsk c) s = .next (u.setPc c (pc + 1))) ∧
      (u.fget .mcrLen (4 * c + lsel) ≤ ofs + i * tsize →
        (act = 2 → (((u.mcore c).prog.drop (pc + 1)).take nskip).all (fun w => w % 256 ≠ 0x30 && w % 256 ≠ 0x31) = true →
          exec (.tsk c) s = .next ((u.fadd .mcrSkips c 1).setPc c (pc + 1 + nskip))) ∧
        (∀ e, act = 0 → ends[deeper]? = some e →
          exec (.tsk c) s = .next (((u.fadd .mcrSkips c 1).closeLevels c (ends.take (deeper + 1))).setPc c (e + 1))) ∧
        (∀ e, act = 1 → ends[deeper]? = some e →
          exec (.tsk c) s = .next (((u.fadd .mcrSkips c 1).closeLevels c (ends.take deeper)).setPc c e))))

/-- TWT, TSG, TDF and TEND act once their condition holds: flags clear with CLRF, flags clear then set, the core arrives at its barrier, the core
reports DONE (R89, R90, R92, R93). A TWT whose condition does not hold waits, and TWT_RELEASE ends it. -/
def Obligations.TileWaitsFlagsAndEnd : Prop :=
  ∀ (c : Fin 512) (pc : Nat) (s : State),
    let u := s.pump c
    (∀ tags flags clrf ida idb ide, s.atTile c pc (.twt tags flags clrf ida idb ide) →
      (u.twtHolds c tags flags ida idb ide = true → exec (.twt c) s = .next (u.twtEnd c pc flags clrf)) ∧
      (u.twtHolds c tags flags ida idb ide = false → exec (.twt c) s = .next (u.setMcore c fun m => { m with wait := .twt }))) ∧
    (∀ tags flags clrf ida idb ide, u.coreLive c = true → (u.mcore c).wait = .twt → u.fget .mcrPc c = pc →
      decodeTile ((u.mcore c).prog.getD pc 0) = some (.twt tags flags clrf ida idb ide) → u.twtHolds c tags flags ida idb ide = true →
      exec (.twtRelease c) s = .next (u.twtEnd c pc flags clrf)) ∧
    (∀ set clr tgt core, s.atTile c pc (.tsg set clr tgt core) → (u.mcore c).settled = true →
      let d := if tgt = 0 then c.val else c.val / 8 * 8 + core
      exec (.tsg c) s = .next ((u.fset .mcrFlags d ((u.fget .mcrFlags d &&& (0xFFFF - clr)) ||| set)).setPc c (pc + 1))) ∧
    (∀ bar w, s.atTile c pc (.tdf bar w) → (u.mcore c).settled = true →
      exec (.tdf c) s = .next (((if w = 1 then u.setMcore c fun m => { m with wait := .tdf bar } else u).setPc c (pc + 1)).arrive (u.corePart c)
        bar)) ∧
    (s.atTile c pc .tend → (u.mcore c).queue = [] → (u.mcore c).running = [] →
      exec (.tend c) s = .next ((u.fset .mcrStatusBusy c 0).setMtask c fun t => { t with outcome := some 0 }))

/-- A started instruction ends: a transfer's tag becomes idle (R80), a TMA's bank becomes HELD (R72, R82), a TCH's score bank FREE and its output
banks HELD, a TEP's bank FREE or, with KEEP, HELD again (R72); queued instructions that waited for it start. A halo transfer that waits for credit
or for its partner tries again when either comes (R166). -/
def Obligations.TileInstructionsRetire : Prop :=
  (∀ (c : Fin 512) (r : Started) (s : State), s.coreLive c = true →
      (∀ tag : Fin 16, ((s.mcore c).running.find? fun x => x.i.op.tag? = some tag.val) = some r → r.paused = false → r.halo = 0 →
        exec (.transferComplete c tag) s = .next (((s.retire c fun x => x.i.op.tag? = some tag.val).syncUnits c).pump c)) ∧
      (∀ (b : Bool) arr bank acc lfmt rfmt lar rar klen l rr lps rps llay iar,
        ((s.mcore c).running.find? fun x => x.i.op.units.contains (if b then 1 else 0)) = some r →
        r.i.op = .tma arr bank acc lfmt rfmt lar rar klen l rr lps rps llay iar →
        exec (.tmaRetire c b) s = .next ((((s.setMcore c fun m =>
          { m with banks := SMap.set ({} : Bank) m.banks (2 * arr + bank) { (SMap.get ({} : Bank) m.banks (2 * arr + bank)) with st := 2 } }).retire c
            fun x => x.i.op.units.contains (if b then 1 else 0)).syncUnits c).pump c)) ∧
      (∀ (b : Bool) sbank obank first last qfmt kfmt vfmt qar kar var dlen nkv rus kv vsar star lens qps kps q,
        ((s.mcore c).running.find? fun x => x.i.op.units.contains (if b then 1 else 0)) = some r →
        r.i.op = .tch sbank obank first last qfmt kfmt vfmt qar kar var dlen nkv rus kv vsar star lens qps kps q →
        let hold (k : SMap Bank) (b : Nat) : SMap Bank := SMap.set {} k b { SMap.get {} k b with st := 2 }
        exec (.tmaRetire c b) s = .next ((((s.setMcore c fun m =>
          { m with banks := (outBanks dlen obank).foldl hold (SMap.set {} m.banks sbank {}) }).retire c
            fun x => x.i.op.units.contains (if b then 1 else 0)).syncUnits c).pump c)) ∧
      (∀ arr bank eslot ofmt oar sar bvar keep nrows,
        ((s.mcore c).running.find? fun x => x.i.op.units.contains 2) = some r → r.i.op = .tep arr bank eslot ofmt oar sar bvar keep nrows →
        exec (.tepDone c) s = .next ((((s.setMcore c fun m =>
          let k := SMap.get ({} : Bank) m.banks (2 * arr + bank)
          { m with banks := SMap.set ({} : Bank) m.banks (2 * arr + bank) (if k.back then { k with st := 2, back := false } else {}) }).retire c
            fun x => x.i.op.units.contains 2).syncUnits c).pump c))) ∧
  (∀ (c : Fin 512) (r : Started) (nb car tag nrow rlen slot : Nat) (s : State), s.coreLive c = true → (s.mcore c).running = [r] → r.halo = 1 →
      (r.i.op = .thx 0 nb car tag nrow rlen slot → exec (.thxSendResume c) s = .next ((s.runXfer c r.i).syncUnits c) ∧
        exec (.thxReceiveArrival c) s = .next (s.syncUnits c)) ∧
      (r.i.op = .thx 1 nb car tag nrow rlen slot → exec (.thxReceiveArrival c) s = .next ((s.runXfer c r.i).syncUnits c) ∧
        exec (.thxSendResume c) s = .next (s.syncUnits c)))

/-! ## Task dispatch, serving switch, carding, whorls (R178 to R216, R361 to R363, R403 to R407) -/

/-- TASK_DISPATCH grants one task (R411): that of the partition, ring and node whose turn it is; where its slices are decided and it has a free
target that its inputs can be set up in, it starts there, and its node counts it (R361, R364). A task that has ended leaves its place and is counted
in its graph (R363). At a batch-step boundary with a job to switch to, a switch starts once no chain writes T0: the live state of the active job is
saved, with the barriers that hold it (R407); its end leaves SWITCHING 0. -/
def Obligations.TasksEndAndJobsSwitch : Prop :=
  ∀ (s : State),
    (∀ (q : Fin 4) (p g n : Nat) (x : Graph) (l : List (Graph × Nat)) (u v : State) (extra : List (Nat × Byte)) (tg : Target),
      let rings (p : Nat) : List Nat := ((List.range 16).map (16 * p + ·)).filter fun g => s.mayDispatch p g && !(s.goNodes p g).isEmpty
      let nd := x.node n
      leastRecent (fun p => (s.part p).dispStamp) ((List.range 64).filter fun p => s.formed p && s.homeQuad p = q && !(rings p).isEmpty) = some p →
      s.bestRing (·.dispStamp) (rings p) = some g → s.goNodes p g = (x, n) :: l →
      s.decideSlices p nd.slices [] = (u, .inl (some extra)) →
      let w := u.setGraph g x.idx fun y => y.setNode n fun k => { k with slices := [], patch := k.patch ++ extra }
      w.target p nd.data nd.next = some tg → w.launch p g x n nd.next nd tg (nd.patch ++ extra) = (v, .done) →
      exec (.taskDispatch q) s = .next (((((v.tick.setGraph g x.idx fun y =>
          { y.setNode n fun k => { k with next := k.next + 1 } with running := y.running + 1 }).setRing g fun k =>
            { k with age := 0, dispStamp := v.stamp }).setPart p fun k => { k with dispStamp := v.stamp }).trace 2 p (g % 16) 0
              (toBytes 4 n ++ toBytes 4 nd.next)))) ∧
    (∀ (c : Fin 512) (o : Nat), (s.mtask c).active = true → (s.mtask c).outcome = some o →
      exec (.taskComplete (.matrix c)) s = .next ((s.setMtask c fun _ => {}).taskEnded (s.mtask c) o 0)) ∧
    (∀ (t : ThreadId) (o : Nat), (s.ctask t.num).active = true → (s.ctask t.num).outcome = some o →
      exec (.taskComplete (.carding t)) s = .next ((s.setCtask t.num fun _ => {}).taskEnded (s.ctask t.num) o 1)) ∧
    (∀ (p : Fin 64) (k : Nat) (free : Bool), s.serving p = true → s.frozen p = false → s.atBoundary p = some free →
      s.switchTo p free = some k → s.t0Chains p = false →
      (s.activeJob p = none →
        exec (.servingSwitch p) s = .next { s.fset .ringActiveSwitching p 1 with switching := s.switching ++ [(p.val, k, s.time)] }) ∧
      (∀ c, s.activeJob p = some c →
        let held := (s.boundaries.filter fun (b : Nat × Nat) => b.1 = p.val).map Prod.snd
        let u : State := { s.setJob c (fun j => { j with saved := true, held := held }) with
          saves := SMap.set {} s.saves c (s.capture p (s.job c).liveAll (s.liveSize p c) []),
          boundaries := s.boundaries.filter fun (b : Nat × Nat) => b.1 ≠ p.val }
        exec (.servingSwitch p) s = .next { u.fset .ringActiveSwitching p 1 with switching := u.switching ++ [(p.val, k, u.time)] })) ∧
    (∀ (p : Fin 64) (k from' : Nat), s.switching.find? (fun x => x.1 = p.val) = some (p.val, k, from') →
      exec (.switchComplete p) s = .next (s.switchComplete p) ∧ (s.switchComplete p).fget .ringActiveSwitching p = 0)

/-- Carding instructions: the one at the pc takes effect. ADDI adds its immediate; LD loads eight bytes; SD stores them. ECALL with a0 zero ends the
task DONE, else EXIT with a0; EBREAK ends it TRAP unless a debugger holds the thread (R178, R182, R185). Register x0 reads as zero, whatever was
written to it, and a write of another register leaves the rest (R178). -/
def Obligations.CardingInstructionsRun : Prop :=
  (∀ (t : ThreadId) (s u : State) (pc len w : Nat),
    let h := u.thread t.num
    (s.atCard t.num .ordinary u pc len w →
      exec (.cardingInstruction t) s = .next (u.ordinary t.num pc len w) ∧
      (w % 128 = 0x13 → bitField w 12 3 = 0 → exec (.cardingInstruction t) s = .next
        (u.draw.cretire t.num (h.wx (bitField w 7 5) ((h.rx (bitField w 15 5) + sx 12 (w / 2 ^ 20)) % 2 ^ 64)) (pc + len) 0)) ∧
      (∀ v b, w % 128 = 0x03 → bitField w 12 3 = 3 →
        u.cread t.num ((h.rx (bitField w 15 5) + sx 12 (w / 2 ^ 20)) % 2 ^ 64) 8 = (v, .ok b) →
        exec (.cardingInstruction t) s = .next (v.cretire t.num (h.wx (bitField w 7 5) (sx 64 (ofBytes b))) (pc + len) 0)) ∧
      (∀ v, w % 128 = 0x23 → bitField w 12 3 = 3 →
        u.cwrite t.num ((h.rx (bitField w 15 5) + sx 12 (bitField w 7 5 + bitField w 25 7 * 32)) % 2 ^ 64) (toBytes 8 (h.rx (bitField w 20 5))) =
          (v, .ok []) →
        exec (.cardingInstruction t) s = .next (v.cretire t.num (v.thread t.num) (pc + len) 0))) ∧
    (s.atCard t.num .ecall u pc len w →
      (h.rx 10 = 0 → exec (.ecall t) s = .next ((u.cretire t.num h (pc + len) 0).stopThread t.num 0)) ∧
      (h.rx 10 ≠ 0 → exec (.ecall t) s = .next ((u.fset .crdExit (t.num / 8) (h.rx 10 % 2 ^ 32)).stopThread t.num 7))) ∧
    (s.atCard t.num .ebreak u pc len w →
      (u.fget .secDbgApplied 0 = 2 → u.fget .secDbgJtag 0 = 1 →
        exec (.ebreak t) s = .next (u.cretire t.num { h with wait := .break } (pc + len) 0)) ∧
      (u.fget .secDbgApplied 0 ≠ 2 ∨ u.fget .secDbgJtag 0 ≠ 1 → exec (.ebreak t) s = .next (u.stopThread t.num 6)))) ∧
  (∀ (h : Thread) (r q v : Nat), h.rx 0 = 0 ∧ h.wx 0 v = h ∧ (r ≠ 0 → (h.wx r v).rx r = v % 2 ^ 64) ∧ (q ≠ r → (h.wx r v).rx q = h.rx q))

/-- The flag instructions of Xcard on matrix core rs1 of the skein: FSET sets and FCLR clears the flags of the mask rs2, once the thread's hand-offs
have written their lines; FRD reads the flags; FWAIT reads them once every flag of the mask is set, waits until then, and wakes when they are
(R189). Each of the four ends the task with ILLEGAL for a core above 7, and those with a mask for one above 0xFFFF (R187). -/
def Obligations.XcardFlags : Prop :=
  ∀ (t : ThreadId) (s u : State) (pc len w : Nat),
    let h := u.thread t.num
    let core := h.rx (bitField w 15 5)
    let mask := h.rx (bitField w 20 5)
    let c := 8 * (t.num / 256) + core
    let fl := u.fget .mcrFlags c
    let bad := 7 < core ∨ 0xFFFF < mask
    (s.atCard t.num .fset u pc len w →
      (core ≤ 7 → mask ≤ 0xFFFF → u.handsOff t.num = false →
        exec (.xcFset t) s = .next ((u.fset .mcrFlags c (fl ||| mask)).cretire t.num h (pc + len) 0)) ∧
      (core ≤ 7 → mask ≤ 0xFFFF → u.handsOff t.num = true → exec (.xcFset t) s = .next s) ∧
      (bad → exec (.xcFset t) s = .next (u.stopThread t.num 1))) ∧
    (s.atCard t.num .fclr u pc len w →
      (core ≤ 7 → mask ≤ 0xFFFF → u.handsOff t.num = false →
        exec (.xcFclr t) s = .next ((u.fset .mcrFlags c (fl - (fl &&& mask))).cretire t.num h (pc + len) 0)) ∧
      (core ≤ 7 → mask ≤ 0xFFFF → u.handsOff t.num = true → exec (.xcFclr t) s = .next s) ∧
      (bad → exec (.xcFclr t) s = .next (u.stopThread t.num 1))) ∧
    (s.atCard t.num .frd u pc len w →
      (core ≤ 7 → exec (.xcFrd t) s = .next (u.cretire t.num (h.wx (bitField w 7 5) fl) (pc + len) 0)) ∧
      (7 < core → exec (.xcFrd t) s = .next (u.stopThread t.num 1))) ∧
    (s.atCard t.num .fwait u pc len w →
      (core ≤ 7 → mask ≤ 0xFFFF → fl &&& mask = mask →
        exec (.xcFwait t) s = .next (u.cretire t.num (h.wx (bitField w 7 5) fl) (pc + len) 0)) ∧
      (core ≤ 7 → mask ≤ 0xFFFF → fl &&& mask ≠ mask →
        exec (.xcFwait t) s = .next (u.setThread t.num fun x => { x with wait := .flags c mask (bitField w 7 5) })) ∧
      (bad → exec (.xcFwait t) s = .next (u.stopThread t.num 1))) ∧
    (∀ c m rd, (s.thread t.num).wait = .flags c m rd → (s.ctask t.num).active = true → s.frozen (s.threadPart t.num) = false →
      s.fget .mcrFlags c &&& m = m →
      exec (.fwaitWake t) s = .next
        (s.cretire t.num { (s.thread t.num).wx rd (s.fget .mcrFlags c) with wait := .none } (s.fget .crdPc t.num + 4) 0))

/-- XC.THO takes a well-formed descriptor of the local window where fewer than 8 hand-offs of its core are busy, and waits at 8; a descriptor that
is not aligned or not well formed is ILLEGAL, and a PUT into the deckle window ends the task with ACCESS (R190, R191). HANDOFF_COMPLETE moves the
lines of the hand-off in its place, counts the bytes and sets its flag behind earlier ones; XC.TWAIT passes when none of the thread's is open, and
waits otherwise. -/
def Obligations.TileHandOffs : Prop :=
  ∀ (t : ThreadId) (s u : State) (pc len w : Nat),
    let n := t.num / 8
    let va := (u.thread t.num).rx (bitField w 15 5)
    let d := u.ld (localMem n + (va - localWindow)) 64
    let busy := (u.handoffs.filter fun h => h.thread / 8 = n && !h.done).length
    (s.atCard t.num .tho u pc len w → (va % 64 ≠ 0 → exec (.xcTho t) s = .next (u.stopThread t.num 1)) ∧
      (va % 64 = 0 → localWindow ≤ va → va < 2 ^ 48 →
        (handoffOk d = false → exec (.xcTho t) s = .next (u.stopThread t.num 1)) ∧
        (handoffOk d = true → u.handoffInWindow n d = true →
          exec (.xcTho t) s = .next (u.draw.faultThread t.num 4 (Config.putFaultVa u.fresh))) ∧
        (handoffOk d = true → u.handoffInWindow n d = false → 8 ≤ busy → exec (.xcTho t) s = .next s) ∧
        (handoffOk d = true → u.handoffInWindow n d = false → busy < 8 →
          exec (.xcTho t) s = .next ((State.syncHandoffs { u with handoffs := u.handoffs ++ [{ thread := t.num, desc := d }] } n).cretire t.num
            (u.thread t.num) (pc + len) 0)))) ∧
    (s.atCard t.num .twait u pc len w →
      (u.handsOff t.num = false → exec (.xcTwait t) s = .next (u.cretire t.num (u.thread t.num) (pc + len) 0)) ∧
      (u.handsOff t.num = true → exec (.xcTwait t) s = .next s)) ∧
    (∀ (k : Fin 2048) (slot : Fin 8) (h : Handoff), (s.handoffs.filter fun x => x.thread / 8 = k.val && !x.done)[slot.val]? = some h →
      let lines := fld h.desc 16 2 * fld h.desc 18 2
      let m := s.handoffMove k h.desc lines
      let v : State := { m with handoffs := markDone h m.handoffs }
      exec (.handoffComplete k slot) s = .next (((v.fadd .crdHoBytes k (64 * lines)).handoffFlags h.thread v.handoffs).syncHandoffs k))

/-- The statistics instructions on accumulator rs2: STCLR clears it, STSAVE stores its record at rs1, STMERGE merges the record at rs1 when it is
well formed, and STFIN stores mean and deviation as a pair at rs1 (R199 to R202). Each of the four ends the task with ILLEGAL for an accumulator
above 3; STSAVE and STMERGE for a record address that is no multiple of 64, and STMERGE for a record that is not well formed (R187). -/
def Obligations.XcardStatistics : Prop :=
  ∀ (t : ThreadId) (s u : State) (pc len w : Nat),
    let h := u.thread t.num
    let va := h.rx (bitField w 15 5)
    let i := h.rx (bitField w 20 5)
    let a : StatAcc := SMap.get {} h.stats i
    let fin := a.final (u.cardFlush (t.num / 8)) h.xceps
    (s.atCard t.num .stclr u pc len w →
      (i ≤ 3 → exec (.xcStclr t) s = .next (u.cretire t.num (h.setStat i {}) (pc + len) 0)) ∧
      (3 < i → exec (.xcStclr t) s = .next (u.stopThread t.num 1))) ∧
    (s.atCard t.num .stsave u pc len w →
      (∀ v, i ≤ 3 → va % 64 = 0 → u.cwrite t.num va a.record = (v, .ok []) →
        exec (.xcStsave t) s = .next (v.cretire t.num (v.thread t.num) (pc + len) 0)) ∧
      (3 < i ∨ va % 64 ≠ 0 → exec (.xcStsave t) s = .next (u.stopThread t.num 1))) ∧
    (s.atCard t.num .stmerge u pc len w →
      (∀ v b, i ≤ 3 → va % 64 = 0 → u.cread t.num va 192 = (v, .ok b) →
        (∀ r, statOf b = some r → exec (.xcStmerge t) s = .next (v.cretire t.num ((v.thread t.num).setStat i (a.merge r)) (pc + len) 0)) ∧
        (statOf b = none → exec (.xcStmerge t) s = .next (v.stopThread t.num 1))) ∧
      (3 < i ∨ va % 64 ≠ 0 → exec (.xcStmerge t) s = .next (u.stopThread t.num 1))) ∧
    (s.atCard t.num .stfin u pc len w →
      (∀ v, i ≤ 3 → u.cwrite t.num va (toBytes 4 fin.1 ++ toBytes 4 fin.2.1) = (v, .ok []) →
        exec (.xcStfin t) s = .next ((v.cretire t.num (v.thread t.num) (pc + len) 0).noteFlush (t.num / 8) fin.2.2)) ∧
      (3 < i → exec (.xcStfin t) s = .next (u.stopThread t.num 1)))

/-- The vector instructions of Xcard act on the active elements of legal groups with SEW 32: VSF a special function (R194), VFBA a fused product and
sum with an activation (R197), VCVT a conversion, drawing under RND (R198), VRND random values of a lane (R192, R217), VSTAT a statistics sum
(R199). Each of the five ends the task with ILLEGAL for other settings (R188), and VRND for a lane above 63 (R192). A draw waits, in its place,
behind what precedes it at its lane (R215). -/
def Obligations.XcardVectors : Prop :=
  ∀ (t : ThreadId) (s u : State) (pc len w : Nat) (c : VC),
    let h := u.thread t.num
    let fl := u.cardFlush (t.num / 8)
    let a := bitField w 20 5
    let b := bitField w 15 5
    let d := bitField w 7 5
    let lane := h.rx b
    let k := t.num / 256
    let who := t.num + 1
    (s.atCard t.num .vsf u pc len w → (xvc h w [a] true = none → exec (.xcVsf t) s = .next (u.stopThread t.num 1)) ∧
      (xvc h w [a] true = some c → exec (.xcVsf t) s = .next (u.xcElts t.num pc len w c
        (c.actives.map fun i => vsfElt fl (fnOf (bitField w 26 3)) (ofmtCode (bitField w 29 3)) (c.h.velt a 32 i))))) ∧
    (s.atCard t.num .vfba u pc len w → (xvc h w [a, b] true = none → exec (.xcVfba t) s = .next (u.stopThread t.num 1)) ∧
      (xvc h w [a, b] true = some c → exec (.xcVfba t) s = .next (u.xcElts t.num pc len w c
        (c.actives.map fun i => vfbaElt fl (bitField w 26 3) (ofmtCode (bitField w 29 3)) (c.h.velt b 32 i) (c.h.velt a 32 i) (c.h.velt d 32 i))))) ∧
    (s.atCard t.num .vcvt u pc len w → (xvc h w [a] true = none → exec (.xcVcvt t) s = .next (u.stopThread t.num 1)) ∧
      (xvc h w [a] true = some c →
        ((bitAt w 30 && u.lanePending k (lane % 64) who) = true → exec (.xcVcvt t) s = .next (s.joinLane k (lane % 64) who)) ∧
        ((bitAt w 30 && u.lanePending k (lane % 64) who) = false →
          let r := (u.leaveLanes who).vcvtGo k (lane % 64) (bitAt w 30) fl (bitField w 26 4) (c.actives.map fun i => c.h.velt a 32 i) []
          exec (.xcVcvt t) s = .next ((r.1.xcElts t.num pc len w c r.2).laneServed u k)))) ∧
    (s.atCard t.num .vrnd u pc len w → (xvc h w [] true = none → exec (.xcVrnd t) s = .next (u.stopThread t.num 1)) ∧
      (xvc h w [] true = some c →
        (64 ≤ lane → exec (.xcVrnd t) s = .next (u.stopThread t.num 1)) ∧
        (lane < 64 → u.lanePending k lane who = true → exec (.xcVrnd t) s = .next (s.joinLane k lane who)) ∧
        (lane < 64 → u.lanePending k lane who = false →
          let kind := bitField w 26 3
          let m := kindWords kind
          let r := (u.leaveLanes who).drawWords k lane (m * c.actives.length)
          exec (.xcVrnd t) s = .next ((r.1.cretire t.num (c.putActive d ((List.range c.actives.length).map fun i =>
            kindElt kind (r.2.getD (m * i) 0) (r.2.getD (m * i + 1) 0))) (pc + len) 0).laneServed u k)))) ∧
    (s.atCard t.num .vstat u pc len w → (xvc h w [a] false = none → exec (.xcVstat t) s = .next (u.stopThread t.num 1)) ∧
      (xvc h w [a] false = some c →
        let i := lane % 4
        let r := c.actives.foldl (fun (x : StatAcc × Bool) e => ((x.1.add (c.h.velt a 32 e)).1, x.2 || (x.1.add (c.h.velt a 32 e)).2))
          (SMap.get {} h.stats i, false)
        let v := (u.cretire t.num { h.setStat i r.1 with vstart := 0 } (pc + len) 0).fadd .crdSfuElem (t.num / 8) c.actives.length
        exec (.xcVstat t) s = .next (if r.2 then v.fset .crdStatusStovf (t.num / 8) 1 else v)))

/-- XC.SORT reads the request at rs1, writes its STATUS all ones and puts it behind the skein's other requests; it waits while 8 are queued, and an
address that is no multiple of 64 is ILLEGAL (R177, R193). SORT_DONE ends a request that breaks R175 with STATUS 1; it reads another's row and makes
its writes in order: values, indices unless it asks for values alone, and STATUS 0 last, after which the request leaves the network (R175). -/
def Obligations.SortRequests : Prop :=
  ∀ (t : ThreadId) (s u v y : State) (pc len w : Nat) (d b : List Byte),
    let va := (u.thread t.num).rx (bitField w 15 5)
    let k := t.num / 256
    let queued := (u.sorts.filter fun r => r.skein = k).length
    (s.atCard t.num .sort u pc len w →
      (va % 64 ≠ 0 → exec (.xcSort t) s = .next (u.stopThread t.num 1)) ∧
      (va % 64 = 0 → 8 ≤ queued → exec (.xcSort t) s = .next s) ∧
      (va % 64 = 0 → queued < 8 → u.cread t.num va 64 = (v, .ok d) → v.cwrite t.num (va + 36) (List.replicate 4 0xFF) = (y, .ok b) →
        exec (.xcSort t) s = .next (State.cretire { y with sorts := y.sorts ++ [{ skein := k, thread := t.num, va := va, data := d }] } t.num
          (y.thread t.num) (pc + len) 0))) ∧
    (∀ (q : Fin 64) (r : SortReq), s.sorts.find? (fun r => r.skein = q.val) = some r → s.waitsFor (.sort q.val) = false → r.writes = none →
      (sortBad r.data = true → exec (.sortDone q) s = .next (s.sortEnd r 1)) ∧
      (sortBad r.data = false → s.cread r.thread (fld r.data 0 8) (fld r.data 24 4 * (fmtWidth (byteAt r.data 30) / 8)) = (v, .ok b) →
        exec (.sortDone q) s = .next
          (v.sortGo r (sortWrites r ((List.range (fld r.data 24 4)).map fun i => elemOf (byteAt r.data 30) b i)) 24))) ∧
    (∀ (r : SortReq) (n : Nat),
      s.sortGo r [] (n + 1) = { s with sorts := s.sorts.erase r } ∧
      ∀ a bs rest, s.cwrite r.thread a bs = (v, .ok []) → s.sortGo r ((a, bs) :: rest) (n + 1) = v.sortGo r rest n)

/-- A write of SKN_WHORL_CMD takes its place behind what waits at the skein's lanes, and PEND counts it, up to 16 (R215, R224). The oldest command
with no draw of its lane ahead of it multiplies the lane's state (JUMP) or its base state (SEEK) by the power of its tick count, and moves the tick
count; what waited for it goes on (R215). A noise window that passes is hashed; one that fails is discarded, and the third in a row fails the source
(R207 to R209). -/
def Obligations.LanesJumpAndSeek : Prop :=
  ∀ (s : State),
    (∀ (a : Access) (wide : Bool) (v : BitVec 64) (k : Nat), s.trigger a .sknWhorlCmdLane = some k →
      let x := if wide then v.toNat else v.toNat % 2 ^ 32
      let c : WhorlCmd := { skein := k, lane := bitField x 0 6, seek := bitAt x 6, count := bitField x 8 56 }
      let u : State := { s with whorlCmds := s.whorlCmds ++ [c] }
      let t := u.fset .sknWhorlStatusPend k (min 16 (u.whorlCount k))
      (bitAt x 6 = false → exec (.whorlJump a wide v) s = .next t) ∧ (bitAt x 6 = true → exec (.whorlSeek a wide v) s = .next t)) ∧
    (∀ (k : Fin 64) (c : WhorlCmd), whorlNext k [] s.whorlCmds = some c →
      let l := s.lane k c.lane
      let t := ({ s with whorlCmds := s.whorlCmds.erase c } : State).syncWhorl k
      (c.seek = true → exec (.whorlCmdComplete k) s = .next
        ((t.setLane k c.lane { l with s := laneJump (lanePoly c.lane) l.base c.count } c.count).pumpSkein k)) ∧
      (c.seek = false → exec (.whorlCmdComplete k) s = .next
        ((t.setLane k c.lane { l with s := laneJump (lanePoly c.lane) l.s c.count } (s.fget .sknWhorlTick (64 * k + c.lane) + c.count)).pumpSkein k))) ∧
    (∀ raw : BitVec 1024, s.noiseFailed = false →
      (s.windowOk raw.toNat = true → ∃ t, exec (.noiseWindow raw) s = .next t ∧ t.noiseBad = 0 ∧ t.noiseOut = sha384 (toBytes 128 raw.toNat) ∧
        t.noiseFailed = false) ∧
      (s.windowOk raw.toNat = false → s.noiseBad < 2 →
        exec (.noiseWindow raw) s = .next { s with noiseBad := s.noiseBad + 1, noiseRun := 0 }) ∧
      (s.windowOk raw.toNat = false → 2 ≤ s.noiseBad →
        exec (.noiseWindow raw) s = .next ({ s with noiseBad := 3, noiseRun := 0 } : State).noiseFail))

/-! ## Streams, translation, flash, video (R230, R257 to R309, R311 to R337, R553 to R555) -/

/-- A descriptor of a running chain that is well formed and whose status block is there runs. MOVE has the engine grant its lines, one grant after
another (R263, R271): a line that moves counts its 64 bytes, and the last one makes the descriptor issued. BARSET sets its barrier, which may be
full at once, and the chain goes on (R261, R274). DESCRIPTOR_COMPLETE takes an issued MOVE's actions, a slice's end among them, and the chain goes
on (R266, R267). A malformed descriptor ends its chain, and its ring is guilty (R258). -/
def Obligations.DescriptorsRun : Prop :=
  (∀ (e : Fin 4) (n : Fin 136) (s u : State),
    let x := 136 * e.val + n.val
    let c := u.ctx x
    (s.ctxRuns x = true → s.fetchDesc x = (u, true) →
      (∀ v : State, byteAt c.desc 0 = 1 → c.go = false → u.mvBad c.part c.desc = false → u.ssbReady x c.desc = (v, some true) →
        deckSsb c.desc = 0 ∨ v.ssbRead c.part (deckSsb c.desc) 1 1 ≠ 2 →
        let w := v.setCtx x fun q => { q with go := true }
        let z := w.engineRun (x / 136) x (w.linesLeft (x / 136))
        exec (.move e n) s = .next (if z.drains = 0 then z else z.syncDrain).takeGuilts) ∧
      (byteAt c.desc 0 = 1 → c.go = false → u.mvBad c.part c.desc = true → exec (.move e n) s = .next (u.descMalformed x).takeGuilts) ∧
      (byteAt c.desc 0 ≠ 1 → byteAt c.desc 0 ≠ 2 →
        exec (.move e n) s = .next (u.descMalformed x).takeGuilts ∧ exec (.barset e n) s = .next (u.descMalformed x).takeGuilts) ∧
      (byteAt c.desc 0 = 2 → barsetBad c.desc = true → exec (.barset e n) s = .next (u.descMalformed x).takeGuilts) ∧
      (byteAt c.desc 0 = 2 → barsetBad c.desc = false → u.activeJob c.part = none → exec (.barset e n) s = .next (u.nextDesc x).takeGuilts) ∧
      (∀ k, byteAt c.desc 0 = 2 → barsetBad c.desc = false → u.activeJob c.part = some k →
        let b := byteAt c.desc 4
        let v := u.setBarrier k b fun q => { q with exp := fld c.desc 2 2, step := bitAt (byteAt c.desc 1) 0 }
        let q : Barrier := SMap.get {} (v.job k).barriers b
        (q.count < v.barExp c.part q → exec (.barset e n) s = .next (v.nextDesc x).takeGuilts) ∧
        (v.barExp c.part q ≤ q.count → exec (.barset e n) s = .next ((v.barrierFull c.part k b).nextDesc x).takeGuilts))) ∧
    (∀ v : State, (s.ctx x).busy = true → (s.ctx x).ended = none → (s.ctx x).issued = true → n.val < 128 →
      s.ssbReady x (s.ctx x).desc = (v, some true) →
      let d := (s.ctx x).desc
      exec (.descriptorComplete e n) s = .next
        (((v.descActions (s.ctx x).part d 0 (mvLines d)).sliceDone (s.ctx x).part (deckSsb d)).nextDesc x))) ∧
  (∀ (x : Nat) (s u : State), ((s.noteGrant x).noteMerge x).moveLine x = (u, .none) →
    s.grantLine x = (u.setCtx x fun q =>
      { q with next := (s.ctx x).next + 1, issued := (s.ctx x).next + 1 = mvLines (s.ctx x).desc }).countBytes x 1)

/-- An arrival counts at its barrier, and a full one is released or waits for its checkpoint (R273, R274); a wait that cannot be served stops its
chain with the status of R264 and R265; a slice that is late at its deadline counts once (R272); at the end of the grace a slice that has not ended
is cancelled as SHADOW where policy and slice allow it, else it stalls (R276 to R278); a drain that takes too long ends the chains that still run in
the draining domains with POWER_ABORT, and commands of the tier manager too (R281). -/
def Obligations.StreamBarriersSlicesAndStops : Prop :=
  ∀ (s : State),
    (∀ (a : Access) (bar : BitVec 8) (p k : Nat), (∃ h v, a = .carding h v) → s.trigger a .strmPArrive = some p →
      s.activeJob p = some k →
      let v := s.setBarrier k bar.toNat fun x => { x with count := x.count + 1 }
      let x : Barrier := SMap.get {} (v.job k).barriers bar.toNat
      (x.count < v.barExp p x → exec (.strmPArrive a bar) s = .next v) ∧
      (v.barExp p x ≤ x.count → exec (.strmPArrive a bar) s = .next (v.barrierFull p k bar.toNat))) ∧
    (∀ (e : Fin 4) (n : Fin 136) (w : TransWait), s.waits.find? (fun w => w.req == .stream (136 * e.val + n.val)) = some w →
      exec (.streamFaultUnserved e n) s = .next (s.stopDesc (136 * e.val + n.val) (s.unservedStatus (s.ctx (136 * e.val + n.val)) w))) ∧
    (∀ (p : Fin 64) (ssb : BitVec 48), s.formed p = true → ssb.toNat ≠ 0 → s.sliceLate p ssb.toNat = true →
      (s.late.contains (p.val, ssb.toNat) = false →
        exec (.sliceDeadline p ssb) s = .next { s.fadd .strmPLate p 1 with late := (p.val, ssb.toNat) :: s.late }) ∧
      (s.late.contains (p.val, ssb.toNat) = true → exec (.sliceDeadline p ssb) s = .next s)) ∧
    (∀ (p : Fin 64) (ssb : BitVec 48) (q : SliceReq), s.slices.find? (fun q => q.part = p.val && q.ssb = ssb.toNat && !q.held) = some q →
      s.ssbRead p ssb.toNat 0 1 = 0xFF →
      let held : State := ({ s with slices := s.slices.map fun x => if x = q then { x with held := true } else x } : State).fadd .strmPStalled p 1
      (s.fget .strmPModeSa p = 1 → s.ssbRead p ssb.toNat 2 1 = 1 →
        exec (.sliceGraceExpiry p ssb) s = .next
          ((({ s with slices := s.slices.erase q } : State).decide' p ssb.toNat q.slice 2).cancelSlice p ssb.toNat)) ∧
      (s.fget .strmPModeSa p = 1 → s.ssbRead p ssb.toNat 2 1 ≠ 1 → exec (.sliceGraceExpiry p ssb) s = .next (held.fadd .strmPUnavail p 1)) ∧
      (s.fget .strmPModeSa p ≠ 1 → exec (.sliceGraceExpiry p ssb) s = .next held)) ∧
    exec .streamDrainTimeout s = .next (s.ctxs.foldl (fun (t : State) c =>
      if !t.ctxDrains c.1 then t
      else match c.2.of with
        | .command m stamp => match (t.mbx m).reqs.find? fun r => r.stamp = stamp with
          | some r => t.endL m r 0xB [] false
          | none => t
        | _ => t.stopDesc c.1 4) s).syncDrain

/-- An access that waits goes on when its translation is served, or its requester meets the unserved fault: demand pages whose object needs no flash
that is not ready, ATS answers, page requests and errors of host reads; an error that meets no waiting access ends the next read of host memory so
(the model's choice, log 6). An invalidation takes its page out of the cache, and rejected host writes are counted (R230, R553 to R555). -/
def Obligations.TranslationWaitsEnd : Prop :=
  ∀ (s : State) (n : Nat) (w : TransWait),
    (s.waits[n]? = some w →
      (∀ t ok, s.millUp = true → w.kind = .demand →
        (s.flashDown = false ∨ (∀ x ∈ (s.part w.part).maps, x.va ≤ w.va → w.va < x.va + x.size →
          s.needsFlash w.part x.obj (if x.tier = 3 then 1 else x.tier) = false)) → s.serveDemand w.part w.va = (t, ok) →
        (ok = true → exec (.translationFaultServed n) s = .next (t.resume w)) ∧
        (ok = false → exec (.translationFaultServed n) s = .next (s.unserved w))) ∧
      (∀ dpa, s.millUp = true → w.kind = .refill dpa → exec (.translationFaultServed n) s = .next ((s.refill dpa).resume w)) ∧
      (∀ page (host : BitVec 52), w.kind = .ats → s.translate w.part w.va w.write = .ats page →
        exec (.atsTranslationCompletion n (some host)) s = .next (State.resume { s with
          atc := (w.part + 1, page, host.toNat * 4096 % 2 ^ 64) :: s.atc.filter fun t => !(t.1 = w.part + 1 && t.2.1 = page) } w) ∧
        exec (.atsTranslationCompletion n none) s = .next (s.askPri w)) ∧
      (∀ er f, w.kind.onHost = true →
        ((er = .timeout ∧ f = Fld.pciCto) ∨ ((er = .ur ∨ er = .ca) ∧ f = Fld.pciUrca) ∨ (er = .poison ∧ f = Fld.pciPoison)) →
        exec (.hostReadError n er) s = .next (((s.pciError f).unserved w).nextPri w.part))) ∧
    (∀ er, ((s.waits[n]?).all fun x => !x.kind.onHost) = true → exec (.hostReadError n er) s = .next { s with hostErr := some er }) ∧
    (∀ (f : Func) (prg : BitVec 9), s.priWait (funcNum f) prg.toNat = some w →
      exec (.pageRequestGroupResponse f prg true) s = .next ((s.resume w).nextPri w.part) ∧
      exec (.pageRequestGroupResponse f prg false) s = .next (((s.pciError .pciPriFail).unserved w).nextPri w.part) ∧
      exec (.priTimeout f prg) s = .next (((s.pciError .pciPriFail).unserved w).nextPri w.part)) ∧
    (∀ (f : Func) (prg : BitVec 9) (ok : Bool), s.priWait (funcNum f) prg.toNat = none →
      exec (.pageRequestGroupResponse f prg ok) s = .next (s.pciError .pciPriLate)) ∧
    (∀ (f : Func) (page : BitVec 52), exec (.atsInvalidate f page) s = .next
      (((({ s with atc := s.atc.filter fun t => !(t.1 = funcNum f && t.2.1 = page.toNat * 4096) } : State).fadd .pciAtsInv 0 1).emit
        (.atsInvalidated (funcNum f) (page.toNat * 4096))))) ∧
    exec .hostWriteReject s = .next (s.pciError .pciWrej)

/-- The flash layer while it runs: the journal is written; a commit ends, and what was changed since it began is not in it; upkeep moves blocks and
is counted by its cause; a failed block is counted as grown bad; a rebuild lays the stripes of the lost channel on those that are left, and STATE
returns to READY, or to READONLY where spares run low (R294, R296, R299, R301, R303, R307). A channel is lost once: STATE becomes DEGRADED, unless
it is READONLY, and a rebuild starts, or OFFLINE without any copy of the metadata; a package temperature goes into its register, with the hottest
package in front and THROT at 80 degrees (R295, R298, R299). -/
def Obligations.FlashUpkeep : Prop :=
  (∀ (s : State),
      (s.committing = true →
        let since := if s.journal.isNone || s.commitOf = some s.flashNow then none else s.commitOf
        exec .ftlCommitDone s = .next ((({ s with journal := since, committing := false, commitOf := none, commitDone := true } : State).fadd
          .ftlCommits 0 1).passStage4)) ∧
      (∀ jl, s.fget .ftlStatusState 0 = 0 → bitAt (s.fget .glbReadyStatus 0) 14 = true →
        let lost := jl && s.fget .ftlStatusDirtystart 0 = 1 && s.journal.isSome
        (lost = false → exec (.ftlMapLoadDone jl) s = .next ({ s with journal := none } : State).ftlOpen.flashReady) ∧
        (lost = true → exec (.ftlMapLoadDone jl) s = .next (s.loseJournal.fset .ftlStatusJlost 0 1).ftlOpen.flashReady)) ∧
      (s.ftlRuns = true →
        exec .ftlJournalWrite s = .next { s with journal := none } ∧
        (∀ b, exec (.readDisturbRefresh b) s = .next (s.ftlRelocate.fadd .ftlRdReloc 0 1)) ∧
        (∀ b c, c ≤ 60 → exec (.retentionScan b c) s = .next s) ∧
        (∀ b c, 60 < c → c ≤ 85 → exec (.retentionScan b c) s = .next (s.ftlRelocate.fadd .ftlRetReloc 0 1)) ∧
        (∀ b c, 85 < c → exec (.retentionScan b c) s = .next (s.ftlRelocate.fadd .ftlUrgent 0 1)) ∧
        (∀ ch, exec (.staticWearLevelling ch) s = .next s.ftlRelocate) ∧
        (∀ b, exec (.programEraseFailure b) s = .next
          ((((((s.draw.fadd .ftlProgBytes 0 (Config.flashMoved s.fresh)).fadd .ftlGrownBad 0 1).fadd .ftlChBad (Config.blockChannel b) 1).ftlHealth).ftlWorn))) ∧
        (s.fget .ftlStatusRebuild 0 ≠ 0 → s.flashTwice = false → s.fget .ftlStatusState 0 = 2 →
          ∃ t, exec .flashRebuildDone s = .next t ∧ t.fget .ftlStatusRebuild 0 = 0 ∧ t.fget .ftlStatusState 0 = (if s.worn then 3 else 1) ∧
            t.flashStale = 0)) ∧
      exec .returnEraseDone s = .next { s with returnErase := false }) ∧
  (∀ (ch : Fin 16) (s : State),
      (s.flashLost.testBit ch = true → exec (.flashChannelLost ch) s = .next s) ∧
      (s.flashLost.testBit ch = false → s.flashStale = 0 → s.fget .ftlStatusState 0 ≠ 0 → s.fget .ftlStatusState 0 ≠ 4 →
        let lost := s.flashLost ||| 2 ^ ch.val
        let u := (({ s with flashLost := lost, flashStale := 2 ^ ch.val, ftl := { s.ftl with fresh := s.ftl.next } } : State).fset .ftlChstatus 0
          (s.fget .ftlChstatus 0 ||| 2 ^ ch.val)).fset .ftlChLost ch 1
        let v := if metaLost lost then (u.fset .ftlStatusState 0 4).setReady 15 false
          else (u.fset .ftlStatusState 0 (if s.fget .ftlStatusState 0 = 3 then 3 else 2)).fset .ftlStatusRebuild 0 1
        exec (.flashChannelLost ch) s = .next ((v.logFault { cls := 0xC, unit := unitWord 6 ch }).hardFault none (unitWord 6 ch) 0xC)) ∧
      (∀ temp : BitVec 8,
        let m := SMap.set 0 s.pkgTemps ch.val temp.toNat
        let hot := (List.range 16).foldl (fun b i => if SMap.get 0 m i > SMap.get 0 m b then i else b) 0
        ∃ t, exec (.flashPackageTempChange ch temp) s = .next t ∧ t.pkgTemps = m ∧ t.fget .ftlTempPkg 0 = hot ∧
          t.fget .ftlTempThrot 0 = (if (List.range 16).any fun i => SMap.get 0 m i ≥ 80 then 1 else 0)))

/-- Frames: the frame whose turn it is starts on its cores; while its input is not at hand, each row tries for it again; a band of a decode is
stored and its flag set; a frame commits; the watchdog conceals what was not decoded; a stopping job's frame commits its status, which is written
where a slot holds it; a drain that takes too long stops every frame; a parity error takes its core out of service, and stops its frame with ABORTED
(R310, R316, R322, R324, R331, R336, R472). -/
def Obligations.VideoFramesRun : Prop :=
  ∀ (k : Fin 24) (s : State),
    (∀ info i j cores, s.vidDrain = false → s.fget .pwrStateStage 0 = 0 → s.vidNext info = some (i, j, cores) →
      (byteAt j.desc 0 = 1 → exec (.videoFrameStart info) s = .next (s.startDecode i j info cores)) ∧
      (byteAt j.desc 0 ≠ 1 → exec (.videoFrameStart info) s = .next (s.startEncode i j cores))) ∧
    (∀ f j, s.frameOn k = some f → s.vidJob f.ring f.idx = some j → j.stopping = false → s.waitsFor (.video k) = false →
      (f.phase = 0 → exec (.videoFrameCommit k) s = .next (s.frameInput k) ∧ exec (.videoBandDone k) s = .next (s.frameInput k)) ∧
      (f.phase = 1 →
        (byteAt j.desc 0 = 1 → exec (.videoFrameCommit k) s = .next (s.commitDecode f j)) ∧
        (byteAt j.desc 0 ≠ 1 → exec (.videoFrameCommit k) s = .next (s.commitEncode f j)) ∧
        (∀ slot u d, slotOf f j.desc = some slot → byteAt j.desc 0 ≠ 2 → fld j.desc 36 2 ≠ 0 → f.rows < (s.vs f.sess).padH →
          let hi := min (s.vs f.sess).padH (f.rows + fld j.desc 36 2)
          s.vwriteAll f.part ((s.slotRows (s.vs f.sess) f.info f.codec f.pos (fld j.desc 24 8 + slot * fld j.desc 20 4) f.rows hi) ++
            [(fld j.desc 40 8 + 64 * slot + 8, toBytes 4 hi)]) = (u, .ok d) →
          exec (.videoBandDone k) s = .next ((u.setFrame k fun x => { x with rows := hi }).setVidFlags f.part j.desc)) ∧
        (let v := s.vs f.sess
         let first := max (Config.videoLeft s.fresh) (f.rows / 16 * v.ew)
         let conc := f.concealed ++ (v.allBlocks.filter fun b => b ≥ first && !f.concealed.contains b)
         let g := { f with concealed := conc, marks := readMarks v.pics conc f.info.reads, status := if f.status = 0 then 2 else f.status }
         let u := (s.draw.setFrame k fun _ => g).fadd .vidCWdog k 1
         (byteAt j.desc 0 = 1 → exec (.videoWatchdog k) s = .next ((u.storeRows v g g.rows v.maxH).commitDecode g j)) ∧
         (byteAt j.desc 0 ≠ 1 → exec (.videoWatchdog k) s = .next (u.commitEncode { f with status := 2 } j)))) ∧
      exec (.videoFrameStop k) s = .next s) ∧
    (∀ f, s.frameOn k = some f → s.vidJob f.ring f.idx = none → exec (.videoFrameStop k) s = .next (s.freeFrame f)) ∧
    (∀ f j, s.frameOn k = some f → s.vidJob f.ring f.idx = some j → j.stopping = true → stopSlot f j.desc = none → s.waits = [] →
      s.fget .ringState f.ring = 4 → (s.vs f.sess).resetDue = false →
      ∃ t, exec (.videoFrameStop k) s = .next t ∧ t.frameOn k = none ∧ (t.vs f.sess).fresh = true ∧ (t.vs f.sess).held = []) ∧
    (s.vidDrain = true → exec .videoDrainTimeout s = .next (s.vframes.foldl (fun t f =>
      t.setVid f.ring f.idx fun j => if j.stopping then j else { j with stopping := true, stop := 4 }) s)) ∧
    (s.vidDead.contains k.val = false →
      let u : State := { s with vidDead := k.val :: s.vidDead }
      (s.vframes.find? (fun (x : VFrame) => x.cores.contains k.val) = none →
        exec (.videoParity k) s = .next (((u.fset .vidCStatusState k 3).logFault { cls := 6, unit := unitWord 8 k }).hardFault none (unitWord 8 k) 6)) ∧
      (∀ f, s.vframes.find? (fun (x : VFrame) => x.cores.contains k.val) = some f →
        exec (.videoParity k) s = .next (((u.setVid f.ring f.idx fun j => { j with stopping := true, stop := 5, hard := true }).logFault
          { cls := 6, part := f.part, unit := unitWord 8 k }).hardFault (some f.part) (unitWord 8 k) 6)))

/-! ## The mailboxes (R373 to R392, R466) -/

/-- A request doorbell copies its slot when fewer than 16 requests are in flight, and is counted and ignored at 16; a mailbox reset raises GEN;
deferred responses are written once there is room; a fault of the mill sets RESTARTING, and its restart serves again (R374, R375, R378, R466). The
imbalance monitor closes its window for every formed partition (R238). -/
def Obligations.MailboxesTakeAndReset : Prop :=
  ∀ (mb : Mbx) (s : State),
    (mbxNum mb < 65 →
      (∀ slot, s.fget .mbxStatusInflight (mbxNum mb) < 16 → exec (.mbxReqdb mb slot) s = .next
        (s.acceptRequest (mbxNum mb) slot (cellsGet s.slots (0x4000 * mbxNum mb + 0x1000 + 0x100 * slot.val) 256))) ∧
      (∀ slot, 16 ≤ s.fget .mbxStatusInflight (mbxNum mb) → exec (.mbxReqdb mb slot) s = .next (s.fadd .mbxDbign (mbxNum mb) 1)) ∧
      exec (.mailboxReset mb) s = .next (s.raiseGen (mbxNum mb))) ∧
    (∀ r, writable (s.mbx (mbxNum mb)).reqs = some r → s.rspRoom (mbxNum mb) = true →
      exec (.mailboxResponseDeferred mb) s = .next ((s.writeResponse (mbxNum mb) r).flushMbx (mbxNum mb) 16)) ∧
    (∀ core : Fin 4, s.millUp = true →
      exec (.millFault core) s = .next ((((List.range 65).foldl (fun t m => t.fset .mbxStatusRestarting m 1) s).logFault
        { cls := 7, action := 8, unit := unitWord 9 core }).hardFault none (unitWord 9 core) 7)) ∧
    (s.fget .mbxStatusRestarting 64 ≠ 0 → bitAt (s.fget .glbReadyStatus 0) 1 = true →
      (s.pwrSeq = none → exec (.millRestartDone true) s = .next s.abandonBist.millBack) ∧
      exec (.millRestartDone false) s = .next { s.fset .glbReadyStatus 0 0 with started := false }) ∧
    (∀ counts, exec (.imbalanceWindow counts) s = .next (s.formedParts.foldl (fun t p => t.imbPart p
      (((counts.map fun (x : Fin 64 × Fin 256 × Nat) => (x.1.val, x.2.1.val, x.2.2)).filter fun (x : Nat × Nat × Nat) => x.1 = p).map (·.2))) s))

/-- Each of the 43 mailbox commands is applied to its mailbox's next request for it, and answered (R377, R384 to R388); the three that move bytes
between tiers take a stream context first (tcmd, R254), and what forming or dissolving a partition ends is ended first (withMirror). CH_MAPOUT then
ends the jobs that lost their placements (R244). -/
def Obligations.CommandsAreAnswered : Prop :=
  ∀ (m : Mbx) (r : MbxReq) (s : State),
    (∀ e ∈ [(Instr.devInfo m, 0x101, cmdDevInfo), (.devSensors m, 0x102, cmdDevSensors), (.partForm m, 0x201, withMirror cmdPartForm),
        (.partDissolve m, 0x202, withMirror cmdPartDissolve), (.partQuery m, 0x203, cmdPartQuery), (.partSet m, 0x204, cmdPartSet),
        (.partQuota m, 0x205, cmdPartQuota), (.partSeed m, 0x206, cmdPartSeed), (.objCreate m, 0x301, cmdObjCreate),
        (.objShare m, 0x302, cmdObjShare), (.objPromote m, 0x303, tcmd cmdObjPromote), (.objEvict m, 0x304, cmdObjEvict),
        (.objPin m, 0x305, cmdObjPin), (.objStage m, 0x306, tcmd cmdObjStage), (.objQuery m, 0x307, cmdObjQuery),
        (.objDelete m, 0x308, cmdObjDelete), (.hashSet m, 0x309, cmdHashSet), (.loadModel m, 0x30A, tcmd cmdLoadModel),
        (.pwrSet m, 0x401, cmdPwrSet), (.pwrQuery m, 0x402, cmdPwrQuery), (.pwrCap m, 0x403, cmdPwrCap),
        (.measure m, 0x501, cmdMeasure), (.lifecycleSet m, 0x502, cmdLifecycleSet), (.debugSet m, 0x503, cmdDebugSet),
        (.certGet m, 0x504, cmdCertGet), (.fabDevnum m, 0x601, cmdFabDevnum), (.fabPort m, 0x602, cmdFabPort),
        (.fabRoute m, 0x603, cmdFabRoute), (.fabQuarantine m, 0x604, cmdFabQuarantine), (.fabQuery m, 0x605, cmdFabQuery),
        (.vsessOpen m, 0x701, cmdVsessOpen), (.vsessClose m, 0x702, cmdVsessClose), (.vsessQuery m, 0x703, cmdVsessQuery),
        (.vsessReset m, 0x704, cmdVsessReset), (.bistRun m, 0x801, cmdBistRun), (.bistQuery m, 0x802, cmdBistQuery),
        (.faultRead m, 0x901, cmdFaultRead), (.mirrorSet m, 0x902, cmdMirrorSet), (.ckptQuery m, 0x903, cmdCkptQuery),
        (.ckptRestore m, 0x904, cmdCkptRestore), (.lostRead m, 0x905, cmdLostRead), (.logRead m, 0xA01, cmdLogRead),
        (.logHead m, 0xA02, cmdLogHead)],
      s.cmdTurn m e.2.1 r → exec e.1 s = .next (s.commanded m r e.2.2)) ∧
    (s.cmdTurn m 0x30B r → exec (.chMapout m) s = .next (s.commanded m r cmdChMapout).endUnplaced)

/-- A query is answered with status 0 and the payload of its table: DEV_INFO, DEV_SENSORS, PART_QUERY (R384, R385), OBJ_QUERY (R386), PWR_QUERY,
MEASURE without a report, FAB_QUERY, VSESS_QUERY, BIST_QUERY, CKPT_QUERY, LOG_HEAD and, on the sideband, LOG_READ; the state is otherwise as it was.
MEASURE with a report, CERT_GET, FAULT_READ, LOST_READ and LOG_READ write their bytes at the virtual address named once that range can be written
(R388). -/
def Obligations.QueriesAnswer : Prop :=
  ∀ (m : Mbx) (r : MbxReq) (s : State),
    let n := mbxNum m
    let d := r.data
    let p := byteAt d 5
    let q := s.part p
    let say (t : State) (pl : List Byte) : Host.Outcome State Fault Refusal := .next (t.answer n r (.now 0 pl))
    let bit (b : Bool) : List Byte := [if b then 1 else 0]
    let figures (n : Nat) : List Byte := toBytes 1 (s.fget .secLc 0) ++ toBytes 1 (s.fget .secDbgReq 0) ++ toBytes 1 (s.fget .secDbgApplied 0) ++
      [0] ++ toBytes 4 n ++ (List.range 4).flatMap measurement
    (s.cmdTurn m 0x101 r → exec (.devInfo m) s = say s (padTo 16 [0x41, 0x58, 0x4D, 0x2D, 0x30, 0x39, 0x34, 0x30] ++
      toBytes 4 Config.firmware.toNat ++ toBytes 1 Config.fuseRev.toNat ++ toBytes 1 (s.fget .secLc 0) ++ toBytes 2 s.devnum ++
      toBytes 8 Config.serial.toNat ++ toBytes 1 ((List.range 4).foldl (fun a q => if s.spareUsed.testBit q then a else a + 2 ^ q) 0) ++
      toBytes 1 s.formedParts.length ++ toBytes 6 0 ++ toBytes 8 s.t1Backed ++ toBytes 8 (t2Size - 0x400000000) ++
      toBytes 8 (s.fget .ftlCapUserblk 0 * 4096) ++ toBytes 4 (s.fget .glbReadyStatus 0) ++ toBytes 12 0 ++
      [4, 64 - (skeinsOf s.outSkeins).length, 512, 2048, 16384, 64, 4, 4, 2, 8, 16, 16, 24, 8, 1, 1].flatMap (toBytes 2))) ∧
    (s.cmdTurn m 0x102 r → exec (.devSensors m) s = say s (toBytes 2 (s.fget .pwrInputW 0) ++ toBytes 2 (s.fget .pwrInputV 0) ++
      toBytes 1 ((List.range 6).foldl (fun a i => max a (SMap.get 0 s.temps i)) 0) ++
      (List.range 8).flatMap (fun i => toBytes 1 (s.fget .tierStackTemp i)) ++ (List.range 4).flatMap (fun q => toBytes 1 (s.fget .pwrMclk q / 10)) ++
      toBytes 1 (s.fget .pwrState 0) ++ toBytes 1 (s.fget .pwrThrotNow 0))) ∧
    (s.cmdTurn m 0x203 r → exec (.partQuery m) s = say s (toBytes 8 q.mask ++ toBytes 1 (s.fget .strmPModeClass p) ++ toBytes 1 q.subn ++
      toBytes 1 q.shadowAllow ++ toBytes 1 q.residency ++ toBytes 1 (s.fget .tierPHashHmode p) ++ toBytes 1 q.mirrorOn ++
      toBytes 2 (s.fget .tierPHashSeed p) ++ toBytes 2 q.mirrorDev ++ toBytes 1 q.mirrorPart ++ bit (!q.seed.isEmpty) ++ bit (s.jobOpen p) ++
      toBytes 3 0 ++ [1, 2, 3].flatMap (fun t => toBytes 8 (s.fget (quotaFld t) p)) ++ [1, 2, 3].flatMap (fun t => toBytes 8 (s.fget (useFld t) p)))) ∧
    (∀ i, s.cmdTurn m 0x307 r → s.lookup n (fld d 16 4) = .inl i →
      let o := s.obj i
      let mask (f : Copy → Bool) : Nat := [1, 2, 3].foldl (fun a t => if o.copies.any fun c => c.tier = t && f c then a + 2 ^ t else a) 0
      exec (.objQuery m) s = say s (toBytes 1 o.kind ++ toBytes 1 o.format ++ toBytes 1 (mask fun _ => true) ++
        toBytes 1 (mask fun c => c.refs.any fun f => f.part = p && f.pinned) ++ toBytes 4 0 ++ toBytes 8 o.bytes ++
        toBytes 6 (((o.copies.find? fun c => c.tier = 3).map (·.base)).getD 0) ++ toBytes 2 0 ++ toBytes 4 o.version ++
        toBytes 4 (o.copies.filter fun c => c.refs.any fun f => f.part = p).length)) ∧
    (s.cmdTurn m 0x402 r → exec (.pwrQuery m) s = say s (toBytes 1 (s.fget .pwrState 0) ++
      toBytes 1 (s.fget .pwrWakeSourceSrc 0 + 8 * s.fget .pwrWakeSourceFrom 0) ++ toBytes 2 (s.fget .pwrCap 0))) ∧
    (s.cmdTurn m 0x501 r → fld d 48 6 = 0 → exec (.measure m) s = say s (figures 0)) ∧
    (∀ u, s.cmdTurn m 0x501 r → fld d 48 6 ≠ 0 → s.cmdProbe n p (fld d 48 6) 512 = (u, none) →
      let body := u.reportBody ((d.drop 16).take 32) p
      (u.fget .secLc 0 = 0 → exec (.measure m) s = say (u.vstoreGo p (fld d 48 6) (body ++ List.replicate 96 0) 3) (figures 512)) ∧
      (u.fget .secLc 0 ≠ 0 →
        exec (.measure m) s = say ((u.aliasSign body).1.vstoreGo p (fld d 48 6) (body ++ (u.aliasSign body).2) 3) (figures 512))) ∧
    (s.cmdTurn m 0x504 r → s.fget .secLc 0 ≠ 0 → byteAt d 16 ≤ 3 →
      let cert := Config.certificate (byteAt d 16) (s.fget .secLc 0)
      exec (.certGet m) s = match s.cmdProbe n p (fld d 24 6) cert.length with
        | (u, none) => say (u.vstoreGo p (fld d 24 6) cert (cert.length / 4096 + 2)) (toBytes 4 cert.length ++ [4])
        | (u, some a) => .next (u.answer n r a)) ∧
    (s.cmdTurn m 0x605 r → exec (.fabQuery m) s = say s ((List.range 8).flatMap fun k =>
      toBytes 1 (s.fget .flkPortState k) ++ toBytes 1 (s.fget .flkPortEnc k + 2 * s.fget .flkPortEncreq k) ++ toBytes 2 (s.fget .flkPortPartner k) ++
        toBytes 1 (s.fget .flkPortCause k) ++ [0] ++
        toBytes 2 (min 0xFFFF ((s.port k).replayTimes.filter fun t => s.time < t + tickSec).length))) ∧
    (∀ i, s.cmdTurn m 0x703 r → s.sessLookup p (fld d 16 4) = .inl i →
      exec (.vsessQuery m) s = say s ((s.vs i).block ++ toBytes 8 (s.vs i).frames ++
        toBytes 4 (s.videos.filter fun j => j.sess = i && j.next = 0).length)) ∧
    (s.cmdTurn m 0x802 r →
      (s.bist = none → exec (.bistQuery m) s = say s (toBytes 16 0)) ∧
      (∀ b, s.bist = some b → exec (.bistQuery m) s = say s (toBytes 1 1 ++ toBytes 1 b.scope ++ toBytes 6 0 ++ toBytes 8 b.mask))) ∧
    (∀ i, s.cmdTurn m 0x903 r → s.newestImage p = some i →
      exec (.ckptQuery m) s = say s (toBytes 8 (s.image i).num ++ toBytes 8 (s.image i).step ++ bit (decide ((s.image i).mstate = 2)))) ∧
    (s.cmdTurn m 0xA02 r → exec (.logHead m) s = say s (toBytes 8 (s.changeNext + 2 ^ 64 - 1) ++ s.chain ++ toBytes 8 s.logLow)) ∧
    (∀ u, let l := if n < 64 then s.faultLog.filter fun e => byteAt e 17 = n else s.faultLog
      let es := (l.reverse.filter fun e => fld d 16 8 ≤ fld e 0 8).take (fld d 30 2)
      let next := (es.getLast?.map fun e => fld e 0 8 + 1).getD (max (fld d 16 8) s.faultNext)
      s.cmdTurn m 0x901 r → s.cmdProbe n p (fld d 24 6) es.flatten.length = (u, none) →
      exec (.faultRead m) s = say (u.vstoreGo p (fld d 24 6) es.flatten (es.flatten.length / 4096 + 2)) (toBytes 8 next ++ toBytes 2 es.length)) ∧
    (∀ u, let es := (s.lostLog.reverse.filter fun e => fld d 16 8 ≤ fld e 0 8).take (fld d 30 2)
      let next := (es.getLast?.map fun e => fld e 0 8 + 1).getD (max (fld d 16 8) s.lostNext)
      s.cmdTurn m 0x905 r → s.cmdProbe n p (fld d 24 6) es.flatten.length = (u, none) →
      exec (.lostRead m) s = say (u.vstoreGo p (fld d 24 6) es.flatten (es.flatten.length / 4096 + 2)) (toBytes 8 next ++ toBytes 2 es.length)) ∧
    (∀ u, let lo := max (fld d 16 8) s.logLow
      let es := ((s.changeLog.reverse.drop (lo - s.logLow)).take (fld d 30 2)).map (redact n)
      s.cmdTurn m 0xA01 r → m ≠ .sideband → s.cmdProbe n p (fld d 24 6) es.flatten.length = (u, none) →
      exec (.logRead m) s = say (u.vstoreGo p (fld d 24 6) es.flatten (es.flatten.length / 4096 + 2))
        (toBytes 8 (lo + es.length) ++ padTo 8 (toBytes 2 es.length) ++ toBytes 8 s.logLow)) ∧
    (s.cmdTurn m 0xA01 r → m = .sideband →
      let lo := max (fld d 16 8) s.logLow
      (s.changeLog.reverse.drop (lo - s.logLow) = [] → exec (.logRead m) s = say s (toBytes 8 lo ++ toBytes 2 0)) ∧
      (∀ e l, s.changeLog.reverse.drop (lo - s.logLow) = e :: l → exec (.logRead m) s = say s (toBytes 8 (lo + 1) ++ padTo 8 (toBytes 2 1) ++ e)))

/-- A command that changes a setting appends its change-log entry with the value before and after, and answers with the entry's index: PART_SET an
attribute, PART_SEED the seed, PART_QUOTA the quotas that are not all ones, HASH_SET the hash mode and seed, PWR_CAP the cap (0 stands for 2,000 W),
LIFECYCLE_SET the pending lifecycle on a step that R515 allows, with the signature that it needs (without, a count), DEBUG_SET the requested level,
FAB_DEVNUM the device number with a new tag generation (R236, R249, R385, R388, R390, R498, R515, R526). -/
def Obligations.SettingCommandsLog : Prop :=
  ∀ (m : Mbx) (r : MbxReq) (s : State),
    let n := mbxNum m
    let d := r.data
    let p := byteAt d 5
    let q := s.part p
    let v := fld d 24 8
    let w := fld d 16 2
    let say (t : State) (pl : List Byte) : Host.Outcome State Fault Refusal := .next (t.answer n r (.logged pl))
    (s.cmdTurn m 0x204 r →
      (byteAt d 16 = 1 → exec (.partSet m) s =
        say ((s.setPart p fun q => { q with subn := v }).logCmd n r 4 (toBytes 1 q.subn) (toBytes 1 v)) (toBytes 8 q.subn)) ∧
      (byteAt d 16 = 2 → exec (.partSet m) s =
        say ((s.setPart p fun q => { q with shadowAllow := v }).logCmd n r 5 (toBytes 1 q.shadowAllow) (toBytes 1 v)) (toBytes 8 q.shadowAllow)) ∧
      (byteAt d 16 = 3 → exec (.partSet m) s =
        say ((s.setPart p fun q => { q with residency := v }).logCmd n r 6 (toBytes 1 q.residency) (toBytes 1 v)) (toBytes 8 q.residency))) ∧
    (s.cmdTurn m 0x205 r →
      let set (i : Nat) (t : State) : State := if fld d (8 + 8 * i) 8 = 2 ^ 64 - 1 then t else t.fset (quotaFld i) p (fld d (8 + 8 * i) 8)
      let t := set 3 (set 2 (set 1 s))
      exec (.partQuota m) s = say (t.logCmd n r 3 (s.quotaSide p) (t.quotaSide p)) []) ∧
    (s.cmdTurn m 0x206 r →
      let seed := (d.drop 24).take 32
      let side (x : List Byte) : List Byte := if x.isEmpty then [] else (sha384 x).take 16
      (byteAt d 16 = 0 → exec (.partSeed m) s = .next (s.answer n r (.now 0 (if q.seed.isEmpty then [0] else padTo 8 [1] ++ q.seed)))) ∧
      (byteAt d 16 = 1 → exec (.partSeed m) s =
        say ((s.setPart p fun q => { q with seed := seed }).logCmd n r 8 (side q.seed) (side seed)) []) ∧
      (byteAt d 16 = 2 → exec (.partSeed m) s = say ((s.setPart p fun q => { q with seed := [] }).logCmd n r 8 (side q.seed) []) [])) ∧
    (s.cmdTurn m 0x309 r →
      let side (t : State) : List Byte := toBytes 1 (t.fget .tierPHashHmode p) ++ [0] ++ toBytes 2 (t.fget .tierPHashSeed p)
      let t := (s.fset .tierPHashHmode p (byteAt d 16)).fset .tierPHashSeed p (fld d 18 2)
      exec (.hashSet m) s = say (t.logCmd n r 7 (side s) (side t)) []) ∧
    (s.cmdTurn m 0x403 r →
      (w = 0 → exec (.pwrCap m) s = say ((s.fset .pwrCap 0 2000).logCmd n r 0xA (toBytes 2 (s.fget .pwrCap 0)) (toBytes 2 2000)) []) ∧
      (w ≠ 0 → exec (.pwrCap m) s = say ((s.fset .pwrCap 0 w).logCmd n r 0xA (toBytes 2 (s.fget .pwrCap 0)) (toBytes 2 w)) [])) ∧
    (s.cmdTurn m 0x502 r → s.authBad < 16 →
      let pend := s.fget .secLcPending 0
      let next := byteAt d 16
      let auth := (d.drop 32).take 96
      let burn (t : State) : State := ({ t with fuseLc := some next, fuseUds := t.fuseUds || pend = 0 } : State).fset .secLcPending 0 next
      (next = pend → exec (.lifecycleSet m) s = say (s.logCmd n r 0xB s.lcSide s.lcSide) []) ∧
      (pend = 1 → next = 2 → auth.all (· = 0) = true →
        let t := (burn s).fset .secLcProvisioned 0 (s.fget .secLcProvisioned 0)
        exec (.lifecycleSet m) s = say (t.logCmd n r 0xB s.lcSide t.lcSide) []) ∧
      (let fails := s.newChallenge.authFails
       let signed (t : State) : Host.Outcome State Fault Refusal :=
         if Config.lifecycleSig auth (s.lcMessage next) = true then say (t.logCmd n r 0xB s.lcSide t.lcSide) [] else .next (fails.1.answer n r fails.2)
       ((pend, next) = (1, 3) ∨ (pend, next) = (2, 3) → exec (.lifecycleSet m) s =
         signed ((burn s.newChallenge).fset .secLcProvisioned 0 (s.newChallenge.fget .secLcProvisioned 0))) ∧
       ((pend, next) = (0, 1) → s.noiseFailed = false →
         let t := (burn s.newChallenge).fset .secLcProvisioned 0 1
         exec (.lifecycleSet m) s = if Config.lifecycleSig auth (s.lcMessage next) = true then say (t.draw.logCmd n r 0xB s.lcSide t.lcSide) []
           else .next (fails.1.answer n r fails.2)))) ∧
    (s.cmdTurn m 0x503 r →
      let t := s.setDebug (byteAt d 16)
      exec (.debugSet m) s = say (t.logCmd n r 0xC s.debugSide t.debugSide) (toBytes 1 (t.fget .secDbgApplied 0))) ∧
    (s.cmdTurn m 0x601 r →
      let t := ((({ s with epoch := s.epoch + 1, fabTags := [] } : State).fset .flkIdDevnum 0 w).fset .flkIdSet 0 1).fset .flkIdTgen 0
        (Config.nvEpoch + (s.epoch + 1))
      exec (.fabDevnum m) s = say (t.logCmd n r 0xD (toBytes 2 s.devnum) (toBytes 2 t.devnum)) [])

/-- Forming and dissolving a partition whose skeins are free, in service and not under test (R384), and the commands on objects that exist and may
be named (R386): OBJ_CREATE within the quota with room for the copy; OBJ_SHARE by the creator; OBJ_EVICT and OBJ_PIN of a referenced copy;
OBJ_DELETE; OBJ_PROMOTE, OBJ_STAGE and LOAD_MODEL, whose checks pass, run once a stream context carries what they move (R246, R254, R387). CH_MAPOUT
takes a live channel out and answers with the placements moved. -/
def Obligations.PartitionAndObjectCommandsAct : Prop :=
  ∀ (m : Mbx) (r : MbxReq) (s : State),
    let n := mbxNum m
    let d := r.data
    let p := byteAt d 5
    let say (t : State) (a : Ans) : Host.Outcome State Fault Refusal := .next (t.answer n r a)
    let mask := fld d 16 8
    let canForm (u : State) : Prop := (mask &&& u.testSkeins) = 0 ∧ (mask &&& u.outSkeins) = 0 ∧
      (mask &&& u.parts.foldl (fun a e => if e.1 = p then a else a ||| e.2.mask) 0) = 0 ∧ u.askAllCpls p = none
    (s.cmdTurn m 0x201 r → canForm s → canForm (s.partChanged p) →
      ∃ t, exec (.partForm m) s = say t (.logged (toBytes 8 mask)) ∧ t.formed p = true ∧ (t.part p).mask = mask ∧ (t.part p).dcm = byteAt d 25 ∧
        (t.part p).dsm = byteAt d 26) ∧
    (s.cmdTurn m 0x202 r → s.askAllCpls p = none → (s.partChanged p).askAllCpls p = none →
      ∃ t, exec (.partDissolve m) s = say t (.logged []) ∧ t.formed p = false ∧ (t.part p).mask = 0 ∧ (t.part p).maps = []) ∧
    (∀ u base pl, s.cmdTurn m 0x301 r →
      let i := s.freeIndex
      let kind := byteAt d 16
      let tier := byteAt d 17
      let bytes := fld d 24 8
      let gen := if (s.obj i).used then ((s.obj i).gen + 1) % 256 else 0
      let c : Copy := { id := 0, tier := tier, version := 0, base := base, placement := pl }
      i < 2 ^ 24 → (kind = 3 → (s.objs.filter fun e => e.2.kind = 3 && !e.2.retired && e.2.creator = p).length < 64) →
      s.withinQuota p tier bytes = true → (tier = 3 → s.fget .ftlStatusState 0 ≠ 3 ∧ s.returnErase = false) →
      s.allocCopy p tier bytes = (u, .inl (base, pl)) →
      let o : Obj := { used := true, gen := gen, kind := kind, format := byteAt d 18, bytes := bytes, creator := p, copies := [c], nextCopy := 1,
                       born := s.stamp, va := if kind = 3 then fld d 32 6 else 0 }
      let t := ((((u.zeroCopy tier base bytes).setObj i fun _ => o).tick.addRef p i 0 tier).mapAsked p i tier (fld d 32 6) c)
      let h := toBytes 4 (t.handle i)
      exec (.objCreate m) s = say (t.logCmd n r 0xE [] (h ++ [BitVec.ofNat 8 kind, BitVec.ofNat 8 tier, BitVec.ofNat 8 (byteAt d 18), 0] ++
        toBytes 8 bytes)) (.logged h)) ∧
    (∀ i, s.lookup n (fld d 16 4) = .inl i →
      (s.cmdTurn m 0x302 r → n < 64 → (s.obj i).creator = n → byteAt d 21 ≤ 1 →
        let g := byteAt d 20
        let was : Nat := if (s.obj i).grants.contains g then 1 else 0
        let grants (l : List Nat) : List Nat := if byteAt d 21 = 0 then (if l.contains g then l else g :: l) else l.filter (· ≠ g)
        let t := s.setObj i fun o => { o with grants := grants o.grants }
        let side (b : Nat) : List Byte := toBytes 4 (s.handle i) ++ toBytes 1 g ++ toBytes 1 b
        exec (.objShare m) s = say (t.logCmd n r 0xE (side was) (side (1 - byteAt d 21))) (.logged [])) ∧
      (∀ u made t, s.cmdTurn m 0x303 r → (s.flashDown && s.needsFlash p i (byteAt d 20)) = false →
        s.promote p i (byteAt d 20) = (u, .inl made) → s.takeTier n r = some t → exec (.objPromote m) s = say t (.running [])) ∧
      (∀ c, s.cmdTurn m 0x304 r → (s.obj i).refCopy (byteAt d 20) p = some c →
        exec (.objEvict m) s = say (s.dropRef p i c.id).1 (.now 0 [if (s.dropRef p i c.id).2 then 1 else 0])) ∧
      (∀ c, s.cmdTurn m 0x305 r → (s.obj i).refCopy (byteAt d 20) p = some c →
        exec (.objPin m) s = say (s.setObj i fun o => { o with copies := setCopy o.copies c.id fun x =>
          { x with refs := x.refs.map fun f => if f.part = p then { f with pinned := byteAt d 21 = 1 } else f } }) (.now 0 [])) ∧
      (∀ c u data t, s.cmdTurn m 0x306 r → fld d 24 8 + fld d 32 8 ≤ ceilDiv (s.obj i).bytes 4096 * 4096 →
        (byteAt d 20 = 3 → s.fget .ftlStatusState 0 ≠ 3 ∧ s.returnErase = false ∧ s.fget .pwrStateStage 0 = 0) →
        (s.obj i).refCopy (byteAt d 20) p = some c → s.cmdRead n p (fld d 40 6) (fld d 32 8) = (u, .inl data) → s.takeTier n r = some t →
        exec (.objStage m) s = say t (.running [])) ∧
      (s.cmdTurn m 0x308 r → n < 64 → (s.obj i).creator = n →
        ∃ t, exec (.objDelete m) s = say t (.logged []) ∧ (t.obj i).retired = true)) ∧
    (∀ u pl t, s.cmdTurn m 0x30A r → cmdLoadModel s n r = (u, .running pl) → s.takeTier n r = some t →
      exec (.loadModel m) s = say t (.running [])) ∧
    (s.cmdTurn m 0x30B r → s.fget .tierChLive (byteAt d 16) ≠ 0 →
      let ch := byteAt d 16
      let x := s.mapOut ch 4
      let side (t : State) (c : Nat) : List Byte := toBytes 2 (t.fget .tierCapLive 0) ++ toBytes 1 ch ++ toBytes 1 c
      let t := ((x.1.logFault { cls := 3, action := 6, unit := unitWord 4 ch, detail := ch }).logCmd n r 0x10 (side s 0)
        (side x.1 4 ++ toBytes 4 x.2)).devEvent 0x985 [BitVec.ofNat 8 ch, 4]
      exec (.chMapout m) s = .next (t.answer n r (.logged (toBytes 4 x.2))).endUnplaced)

/-- The commands that act on the fabric, on video sessions, power, self-test, mirror and checkpoints, where their checks pass: FAB_PORT enables,
disables or retrains a port; FAB_ROUTE takes a whole table; FAB_QUARANTINE turns a device off or on; a session opens with its store, closes, or is
reset at its frame boundary (R314); PWR_SET answers at once where the state does not change, wakes, or prepares the first block; BIST_RUN starts a
test; MIRROR_SET names a partner; CKPT_RESTORE starts a recovery from an own image, or a takeover of one that fits (R480). -/
def Obligations.FabricAndSessionCommandsAct : Prop :=
  ∀ (m : Mbx) (r : MbxReq) (s : State),
    let n := mbxNum m
    let d := r.data
    let p := byteAt d 5
    let say (t : State) (a : Ans) : Host.Outcome State Fault Refusal := .next (t.answer n r a)
    (s.cmdTurn m 0x602 r →
      let k := byteAt d 16
      let st := s.fget .flkPortState k
      let u := (s.fset .flkPortEncreq k (byteAt d 18)).setPort k fun q => { q with expect := fld d 20 2 }
      let logged (t : State) : Host.Outcome State Fault Refusal := say (t.logCmd n r 0xD (s.portSide k) (t.portSide k)) (.logged [])
      let changed := s.fget .flkPortEncreq k ≠ byteAt d 18 ∨ (s.port k).expect ≠ fld d 20 2
      (byteAt d 17 ≠ 1 → st = 0 → exec (.fabPort m) s = logged u) ∧
      (byteAt d 17 ≠ 1 → st ≠ 0 → exec (.fabPort m) s = logged (u.portLeave k 0 1)) ∧
      (byteAt d 17 = 1 → st = 4 → changed → exec (.fabPort m) s = logged (u.startHandshake k true)) ∧
      (byteAt d 17 = 1 → st = 4 → ¬changed → exec (.fabPort m) s = logged u) ∧
      (byteAt d 17 = 1 → st < 2 → exec (.fabPort m) s =
        logged (((u.fset .flkPortState k 1).setPort k fun q => { q with fails := [], held := false }).portTrain k))) ∧
    (∀ u b, s.cmdTurn m 0x603 r → s.cmdRead n p (fld d 16 6) (8 * fld d 24 2) = (u, .inl b) →
      let l := (List.range (fld d 24 2)).map fun i => fld b (8 * i) 8
      (routesBad l = false → exec (.fabRoute m) s =
        say ((({ u with routes := l } : State).fabSubmit []).logCmd n r 0xD (routeSide s.routes) (routeSide l)) (.logged []))) ∧
    (s.cmdTurn m 0x604 r →
      let dev := fld d 16 2
      let v := s.fget .flkQuar (dev / 32)
      let b := 2 ^ (dev % 32)
      let side (t : State) : List Byte := toBytes 2 dev ++ toBytes 1 (if t.quarantined dev then 1 else 0)
      (byteAt d 18 = 0 → let t := (s.fset .flkQuar (dev / 32) (v - (v &&& b))).fabSubmit []
        exec (.fabQuarantine m) s = say (t.logCmd n r 0xD (side s) (side t)) (.logged [])) ∧
      (byteAt d 18 = 1 →
        let u := s.fset .flkQuar (dev / 32) (v ||| b)
        let w := (u.fadd .flkUnreach 0 ((u.fabReqs.filter fun x => x.dst = dev && x.answer.isNone).length)).answerReqs (fun x => x.dst = dev) 5
        let t := ((w.colls.filter fun c => c.group.any fun e => e.1 = dev).foldl (fun (t : State) c => t.collEnd c.part c.dva 5) w).collDrive
        exec (.fabQuarantine m) s = say (t.logCmd n r 0xD (side s) (side t)) (.logged []))) ∧
    (∀ u pl, s.cmdTurn m 0x701 r →
      let b := (d.drop 16).take 128
      let opened := s.vsess.filter fun e => e.2.isOpen
      (opened.filter fun e => e.2.part = p).length < 64 → opened.length < 1024 → s.withinQuota p 1 (storeBytes b) = true →
      s.allocT1 p (storeBytes b) = (u, .inl pl) →
      let i := ((List.range 1024).find? fun i => !(s.vs i).isOpen).getD 0
      let gen := if (s.vs i).used then ((s.vs i).gen + 1) % 256 else 0
      let h := toBytes 4 (gen * 2 ^ 24 + i)
      let t := ((u.charge p 1 (storeBytes b)).setVs i fun _ =>
        { used := true, isOpen := true, gen := gen, part := p, block := b, store := pl, bytes := storeBytes b }).syncVid p
      exec (.vsessOpen m) s = say (t.logCmd n r 0xF [] (h ++ [BitVec.ofNat 8 (byteAt b 0), BitVec.ofNat 8 (byteAt b 1), 0, 0] ++
        toBytes 8 (storeBytes b))) (.logged (padTo 8 h ++ toBytes 8 (storeBytes b)))) ∧
    (∀ i, s.sessLookup p (fld d 16 4) = .inl i →
      (s.cmdTurn m 0x702 r →
        ∃ t : State, exec (.vsessClose m) s = say (t.setVs i fun v => { v with closing := true }) (.running []) ∧
          ∀ j ∈ t.videos, j.sess = i → j.stopping = true) ∧
      (s.cmdTurn m 0x704 r →
        let h := toBytes 4 (fld d 16 4)
        let u := s.setVs i fun v => { v with resetDue := true }
        ((s.vframes.any fun f => f.sess = i) = true → exec (.vsessReset m) s = say (u.logCmd n r 0xF h h) (.logged [])) ∧
        ((s.vframes.any fun f => f.sess = i) = false → exec (.vsessReset m) s = say ((u.frameBoundary i).logCmd n r 0xF h h) (.logged [])))) ∧
    (s.cmdTurn m 0x401 r → s.pwrSeq = none → s.fget .pwrStateStage 0 = 0 →
      let t := byteAt d 16
      let f := s.fget .pwrState 0
      let u := (s.fset .pwrStateBusy 0 1).fset .pwrStateTarget 0 t
      (t = f → exec (.pwrSet m) s = say (s.logCmd n r 0xA (toBytes 1 f) (toBytes 1 f)) (.logged (toBytes 1 f))) ∧
      (t < f → exec (.pwrSet m) s = say { u with pwrSeq := some { request := some (n, r.stamp), target := t, wake := true } } (.running [])) ∧
      (f < t → exec (.pwrSet m) s =
        say (({ u with pwrSeq := some { request := some (n, r.stamp), target := t, todo := powerBlocks t } } : State).prepare 1) (.running []))) ∧
    (s.cmdTurn m 0x801 r → s.bist = none → s.fget .pwrState 0 = 0 → s.quadStop = 0 → s.fget .pwrStateStage 0 = 0 → s.bistRefusal n d = none →
      exec (.bistRun m) s = say (s.bistStart n r) (.running [])) ∧
    (s.cmdTurn m 0x902 r →
      let old := s.part p
      let side (q : Partition) : List Byte := toBytes 1 q.mirrorOn ++ [0] ++ toBytes 2 q.mirrorDev ++ toBytes 1 q.mirrorPart
      let name (t : State) : State := t.setPart p fun q =>
        { q with mirrorOn := byteAt d 16, mirrorDev := fld d 18 2, mirrorPart := byteAt d 20, mirrorNamed := true, mirrorShut := false }
      let logged (t : State) : Host.Outcome State Fault Refusal := say (t.logCmd n r 9 (side old) (side (t.part p))) (.logged [])
      (old.mirrorDev = fld d 18 2 → old.mirrorPart = byteAt d 20 → exec (.mirrorSet m) s = logged (name s)) ∧
      (old.mirrorDev ≠ fld d 18 2 ∨ old.mirrorPart ≠ byteAt d 20 → exec (.mirrorSet m) s = logged (name (s.freeMirror p)))) ∧
    (∀ i, s.cmdTurn m 0x904 r → s.ownImage p (fld d 16 8) = some i → s.recovering p = false → s.activeJob p = some (s.image i).job →
      exec (.ckptRestore m) s = say (s.startRecovery { part := p, image := some i, request := some (n, r.stamp) }) (.running [])) ∧
    (∀ x, s.cmdTurn m 0x904 r → s.ownImage p (fld d 16 8) = none → s.regionImage p (fld d 16 8) = some x → s.jobOpen p = false →
      exec (.ckptRestore m) s = say s (if s.takeoverFits p (s.takenImage p x) = true then .running [] else .now 5 []))

/-- The end of a command marked L writes its status and payload behind its entry: L_COMMAND_COMPLETE ends the running command of its mailbox and
SEQ; OBJ_PROMOTE, OBJ_STAGE and LOAD_MODEL take their whole effect then, once their context has issued what they move (R377); a VSESS_CLOSE ends
when no frame of its session runs; a CKPT_RESTORE of an image that a partner keeps takes over. -/
def Obligations.LongCommandsEnd : Prop :=
  ∀ (mb : Mbx) (seq : BitVec 16) (r : MbxReq) (s : State), s.millServes (mbxNum mb) = true → s.runningL (mbxNum mb) seq.toNat = some r →
    let n := mbxNum mb
    let d := r.data
    (fld d 0 2 = 0x401 → exec (.lCommandComplete mb seq) s = .next (s.wakeFinish n r)) ∧
    (s.tierDone n r.stamp = true →
      (fld d 0 2 = 0x303 → exec (.lCommandComplete mb seq) s = .next (s.finishL n r cmdObjPromote (fun t _ => t) false)) ∧
      (fld d 0 2 = 0x306 → exec (.lCommandComplete mb seq) s = .next (s.finishStage n r)) ∧
      (∀ u pl, fld d 0 2 = 0x30A → cmdLoadModel s n r = (u, .running pl) → exec (.lCommandComplete mb seq) s = .next
        ((u.logCmd n r 0xE [] ((d.drop 16).take 8 ++ (pl.drop 8).take 8)).endL n r 0 pl true)) ∧
      (fld d 0 2 = 0x702 → (s.vframes.any fun f => f.sess = fld d 16 4 % 2 ^ 24) = false → exec (.lCommandComplete mb seq) s = .next
        (((s.closeSess (fld d 16 4 % 2 ^ 24)).logCmd n r 0xF (toBytes 4 (fld d 16 4)) []).endL n r 0 [] true))) ∧
    (fld d 0 2 = 0x904 → s.recoveries.any (fun (x : Recovery) => x.request = some (n, r.stamp)) = false →
      (∀ x, s.regionImage (byteAt d 5) (fld d 16 8) = some x → exec (.lCommandComplete mb seq) s = .next (s.takeover n r x)) ∧
      (s.regionImage (byteAt d 5) (fld d 16 8) = none → exec (.lCommandComplete mb seq) s = .next (s.endL n r 5 [] false)))

/-- The entries of the change log are chained: an entry's CHAIN is the digest of the CHAIN before it and its own digest, and its index is one more
than the last (R390). -/
def Obligations.ChangeLogIsChained : Prop :=
  ∀ (s : State) (src part cls op seq gen : Nat) (old new : List Byte),
    let t := s.logChange src part cls op seq gen old new
    ∃ e rest, t.changeLog = e :: rest ∧ rest = s.changeLog.take 65535 ∧ e.length = 192 ∧ fld e 0 8 = s.changeNext % 2 ^ 64 ∧
      (e.drop 80).take 48 = sha384 (e.take 80) ∧ t.chain = sha384 (s.chain ++ (e.drop 80).take 48) ∧ t.changeNext = s.changeNext + 1

/-! ## The fabric (R415 to R454), checkpoints and peer mirror (R458 to R480) -/

/-- A frame in order, well formed and of a channel that its port carries, takes effect by its TYPE: LINK its hop fields alone; HELLO, AUTH, FIN and
REKEY the handshake and its keys; WRITE, SIGNAL, MIRROR and COLL, once routed here under a new TAG, the request; RESP our requests; STOP holds its
source (R421, R426, R430, R431, R440, R445, R448, R451). -/
def Obligations.FramesTakeEffect : Prop :=
  ∀ (p : Fin 8) (f : Frame) (s : State),
    let x := framed f
    let h := x.header
    let g := s.gotFrame p x
    let asked (k : State → State × Option Nat) : State := (g.routed p x fun v => v.taggedReq (hdrSrc h) (byteAt h 11) (bigFld h 12 2) fun w =>
      if w.fget .pwrState 0 ≥ 2 then (w.fadd .flkQRefused (byteAt h 8) 1, some 2) else k w).afterFrame p x
    (s.frameIn p 0x10 x → exec (.link p f) s = .next (g.afterFrame p x)) ∧
    (s.frameIn p 0x11 x → exec (.hello p f) s = .next ((g.gotHello p x.payload).afterFrame p x)) ∧
    (s.frameIn p 0x12 x → exec (.auth p f) s = .next ((g.gotAuth p (bigFld h 26 2) (bigFld h 28 4) x.payload).afterFrame p x)) ∧
    (s.frameIn p 0x13 x → exec (.fin p f) s = .next ((g.gotFin p x.payload).afterFrame p x)) ∧
    (s.frameIn p 0x14 x → exec (.rekey p f) s = .next ((g.gotRekey p x.payload).afterFrame p x)) ∧
    (s.frameIn p 1 x → s.fabPend.length < 256 → exec (.write p f) s = .next (asked fun u =>
      u.peerWrite (hdrSrc h) (byteAt h 9) (byteAt h 8) (bigFld h 20 6) (bigFld h 12 2) (byteAt h 11) x.payload)) ∧
    (s.frameIn p 2 x → exec (.signal p f) s = .next (asked fun u =>
      let r := u.peerSignal (hdrSrc h) (byteAt h 8) (bigFld h 26 2 / 256) (bigFld h 26 2 % 4) (fld x.payload 0 8)
      if r.2 = 0 then (r.1.fadd .flkQRxbytes (byteAt h 8) 8, some 0)
      else if r.2 = 8 then (r.1, some 1)
      else (r.1.fadd .flkQRefused (byteAt h 8) 1, some 2))) ∧
    (s.frameIn p 3 x → exec (.mirror p f) s = .next (asked fun u =>
      let r := u.mirrorFrame (hdrSrc h) (byteAt h 9) (byteAt h 8) (bigFld h 20 6) (bigFld h 28 4) x.payload
      (r.1, some r.2))) ∧
    (s.frameIn p 4 x → exec (.coll p f) s = .next (asked fun u =>
      let r := u.collTake (byteAt h 8) (hdrSrc h) (byteAt h 9) (bigFld h 26 2 % 256) (bigFld h 26 2 / 256) (bigFld h 28 4) (bigFld h 20 6) x.payload
      (if r.2 = 2 then r.1.fadd .flkQRefused (byteAt h 8) 1 else r.1.fadd .flkQRxbytes (byteAt h 8) x.payload.length, some r.2)).collDrive) ∧
    (s.frameIn p 5 x → exec (.resp p f) s = .next ((g.routed p x fun v =>
      (splitBytes 8 (x.payload.length / 8) x.payload).foldl (fun (t : State) e => t.respEntry (hdrSrc h) e) v).afterFrame p x)) ∧
    (s.frameIn p 0x15 x → exec (.stop p f) s = .next ((g.routed p x fun v =>
      let e : FabStop := { dev := hdrSrc h, part := if bitAt (bigFld h 26 2) 6 then 64 else bigFld h 26 2 % 64 }
      { v with fabStops := if v.fabStops.contains e then v.fabStops else v.fabStops ++ [e] }).afterFrame p x))

/-- A request goes to a device of its own TGEN and window once: a TAG that was answered before is answered the same again and has no second effect;
an older TGEN, or a TAG beyond the window of 1,024, is STALE (R432). -/
def Obligations.RequestsTakeEffectOnce : Prop :=
  ∀ (s : State) (dev tgen tag st : Nat) (k : State → State × Option Nat),
    let q := s.rxSrc dev
    let age := (tgen + 256 - q.tgen) % 256
    let off := (tag + 65536 - q.base) % 65536
    q.known = true →
    (128 ≤ age → s.taggedReq dev tgen tag k = s.fadd .flkStale 0 1) ∧
    (age = 0 → 1024 ≤ off → s.taggedReq dev tgen tag k = s.fadd .flkStale 0 1) ∧
    (age = 0 → off < 1024 → q.done.find? (fun e => e.1 = tag) = some (tag, st) →
      s.taggedReq dev tgen tag k = (s.fadd .flkDup 0 1).answerPeer dev tag tgen st) ∧
    (∀ u, age = 0 → off < 1024 → q.done.find? (fun e => e.1 = tag) = none →
      (s.fabPend.any fun x => x.src = dev && x.tag = tag && x.tgen = tgen) = false → k s = (u, some st) →
      s.taggedReq dev tgen tag k = u.recordTag dev tag tgen st)

/-- A port trains, loses signal or its cable, and misses its timers as R416, R419, R428, R429, R449, R451 and R560 say. -/
def Obligations.PortsFollowTheirLinks : Prop :=
  ∀ (p : Fin 8) (s : State),
    let st := s.fget .flkPortState p
    (st = 2 → exec (.portTrainingDone p true) s = .next ((s.fset .flkPortState p 3).startHandshake p false) ∧
      exec (.portTrainingDone p false) s = .next (s.portFail p 3)) ∧
    ((st = 2 ∨ st = 3) → exec (.portSignalLoss p) s = .next (s.portFail p 2)) ∧
    ((st = 4 ∨ st = 5) → exec (.portSignalLoss p) s = .next (s.portDown p 2)) ∧
    (st = 0 → ∀ b, exec (.cablePresentChange p b) s = .next (s.setPort p fun q => { q with present := b })) ∧
    (st = 1 → exec (.cablePresentChange p true) s = .next ((s.setPort p fun q => { q with present := true }).portTrain p) ∧
      exec (.cablePresentChange p false) s = .next ((s.setPort p fun q => { q with present := false }).fset .flkPortCause p 2)) ∧
    (2 ≤ st → exec (.cablePresentChange p false) s = .next ((s.setPort p fun q => { q with present := false }).portDown p 2)) ∧
    (3 ≤ st → exec (.linkErrorFrame p .fec) s = .next (s.fadd .flkPFecUncorr p 1) ∧
      exec (.linkErrorFrame p .auth) s = .next (s.fadd .flkPErrAuthfail p 1)) ∧
    (st = 4 → s.fget .flkPortEnc p = 1 → (s.port p).hs = 4 → (s.port p).rekeying = false → exec (.rekeyInterval p) s = .next
      ((s.draw.setPort p fun q => { q with rekeying := true }).sendHop p 0x14 0 0 (pad64 (Config.rekeyBody s.fresh)))) ∧
    (s.inHandshake p = true → exec (.handshakeTimeout p) s = .next (s.handshakeFail p 6)) ∧
    (∀ k l, (s.port p).kept = k :: l → 3 ≤ st → 8 ≤ k.replays → exec (.linkAckTimeout p) s = .next (s.portDown p 4)) ∧
    (∀ k, (s.port p).kept = [k] → 3 ≤ st → k.replays < 8 → exec (.linkAckTimeout p) s = .next
      (((s.setPort p fun q =>
          { q with kept := [{ k with replays := k.replays + 1 }], replayTimes := s.time :: q.replayTimes.filter fun t => s.time < t + tickSec }).fadd .flkPRetries p 1).wireSend p k.f k.seq)) ∧
    (∀ vc : Fin 4, s.starved p vc = true → (s.port p).late.testBit vc = false → exec (.creditTimeout p vc) s = .next
      ((s.setPort p fun q => { q with late := q.late ||| 2 ^ vc.val }).fadd .flkPErrCredto p 1)) ∧
    (((List.range 4).any fun vc => (s.port p).late.testBit vc && s.starved p vc) = true →
      exec (.creditDeadTime p) s = .next (s.portDown p 5))

/-- A request without an answer is sent again, unless a STOP keeps it, and ends UNREACHABLE at the retry limit; gathered answers go out; a STOP
ends; a SIGNAL_PEER record ends by its answer, or is stale; a collective starts, or ends TIMEOUT (R357, R370, R431, R433, R439, R440, R445). -/
def Obligations.FabricTimersAndAnswers : Prop :=
  ∀ (s : State),
    (∀ (dev : BitVec 12) (tag : BitVec 16) (r : FabReq),
      let hit (r : FabReq) : Bool := r.dst = dev.toNat && r.tag = some tag.toNat && r.answer.isNone
      s.fabReqs.find? hit = some r →
      (s.fget .flkRoutingE2eRetry 0 ≤ r.resends → exec (.e2eTimeout dev tag) s = .next ((s.fadd .flkUnreach 0 1).answerReqs (fun y => y = r) 5)) ∧
      (r.resends < s.fget .flkRoutingE2eRetry 0 →
        (s.stoppedTo dev.toNat r.spart = true → exec (.e2eTimeout dev tag) s = .next
          { s with fabReqs := s.fabReqs.map fun (y : FabReq) => if y = r then { r with resends := r.resends + 1 } else y }) ∧
        (∀ u q, s.stoppedTo dev.toNat r.spart = false → s.transmit r tag.toNat = (u, q) → q.answer = none →
          exec (.e2eTimeout dev tag) s = .next
            { u with fabReqs := u.fabReqs.map fun (y : FabReq) => if y = r then { q with resends := r.resends + 1 } else y }))) ∧
    (∀ (dev : BitVec 12), (s.rxSrc dev.toNat).answers = [] → exec (.respGatherExpiry dev) s = .next s) ∧
    (∀ (dev : BitVec 12) e l, (s.rxSrc dev.toNat).answers = e :: l → exec (.respGatherExpiry dev) s = .next
      ((s.setRxSrc dev.toNat fun q => { q with answers := l.drop 31 }).originate 5 dev.toNat 0 0 (s.fget .flkIdTgen 0) 0 0
        ((e :: l).take 32).length 0 (respBytes ((e :: l).take 32))).1) ∧
    (∀ (dev : BitVec 12), exec (.stopExpiry dev) s = .next
      (State.fabSubmit { s with fabStops := s.fabStops.filter fun x => x.dev ≠ dev.toNat } [])) ∧
    (∀ (p : Fin 64) (r : Fin 16) (x : FabReq) (idx gen a : Nat),
      let g := 16 * p.val + r.val
      (s.fabReqs.find? fun x => x.answer.isSome && x.owner.signals g) = some x →
      x.owner = .signal g idx gen → x.answer = some a →
      let t : State := { s with fabReqs := s.fabReqs.erase x }
      (s.fget .ringStateGen g = gen → exec (.signalPeerAnswer p r) s = .next (t.endRec g idx (peerStatus a) 0 0 0)) ∧
      (s.fget .ringStateGen g ≠ gen → exec (.signalPeerAnswer p r) s = .next ((t.fadd .ringStale g 1).fadd .ringPstale p 1))) ∧
    (∀ (a : Access) (va : BitVec 64) (p : Nat), (∃ t v, a = .carding t v) → s.trigger a .flkQColl = some p → va.toNat % 64 = 0 → va.toNat < 2 ^ 48 →
      (s.colls.filter fun c => c.part = p).length < 16 → (s.colls.any fun c => c.part = p && c.dva = va.toNat) = false →
      exec (.collectiveStart a va) s = .next
        ((State.syncColl { s with colls := s.colls ++ [{ part := p, dva := va.toNat }] } p).collStart p va.toNat)) ∧
    (∀ (p : Fin 64) (c : Coll), s.colls.find? (fun c => c.part = p.val && c.running) = some c →
      exec (.collectiveTimeout p) s = .next (s.collEnd p c.dva 3).collDrive)

/-- Checkpoints: a copy of the next parity takes the number CGEN and the next sequence, and the peer mirror as it is set now takes effect; its
completion turns the parity, releases the barrier and lets held writes go. Mirror images are committed once all is applied, a failed mirror is
logged, heartbeats go on while a job is open, and a silent partner is reported once (R36, R458, R461, R463, R465, R474 to R479). -/
def Obligations.CheckpointsAndMirror : Prop :=
  ∀ (p : Fin 64) (s : State),
    (∀ b k, s.ckpts.find? (fun c => c.1 = p.val && !c.2.2) = some (p.val, b, false) → s.activeJob p = some k → s.quiesced p = true →
      s.recovering p = false → (s.image (2 * p.val + (s.part p).nextImage)).mstate ≠ 1 →
      ∃ t, exec (.checkpointCopy p) s = .next t ∧
        (t.image (2 * p.val + (s.part p).nextImage)).num = (s.part p).cgen * 2 ^ 24 + ((s.part p).ckptSeq + 1) % 2 ^ 24 ∧
        (t.image (2 * p.val + (s.part p).nextImage)).job = k ∧ (t.image (2 * p.val + (s.part p).nextImage)).bar = b ∧
        (t.image (2 * p.val + (s.part p).nextImage)).complete = false ∧ (t.part p).ckptSeq = ((s.part p).ckptSeq + 1) % 2 ^ 24 ∧
        (t.part p).mirrorNow = (if (s.part p).mirrorOn = 1 then some ((s.part p).mirrorDev, (s.part p).mirrorPart) else none)) ∧
    (∀ b k, s.ckpts.find? (fun c => c.1 = p.val && c.2.2) = some (p.val, b, true) → s.activeJob p = some k →
      let x := (s.part p).nextImage
      let reps := (List.range 16).flatMap fun r => (s.ring (16 * p.val + r)).reported.map fun n => (16 * p.val + r, n)
      let t1 := (s.setImage (2 * p.val + (1 - x)) fun m => { m with reps := reps }).setImage (2 * p.val + x) fun m => { m with complete := true, stamp := s.stamp }
      let t2 := (List.range 16).foldl (fun (t : State) r => t.setRing (16 * p.val + r) fun q => { q with reported := [] }) t1.tick
      let t3 : State := { t2.setPart p fun q => { q with nextImage := 1 - x } with ckpts := t2.ckpts.filter fun y => y ≠ (p.val, b, true) }
      let t4 := t3.finishRelease p k b true
      exec (.checkpointComplete p) s = .next (((t4.fabPend.filter fun w => w.part = p.val && !t4.waitsFor (.fabric w.src w.tag)).foldl
        (fun (t : State) (w : FabPend) => t.resumeWrite w.src w.tag) t4).beginMirror p (2 * p.val + x))) ∧
    (∀ i, s.sending p = some i → s.fabOpen (.mirror p) = false → s.fabWorst (.mirror p) = 0 →
      let t := (s.fabDrop (.mirror p)).setImage i fun m => { m with mstate := 2, mwhole := true }
      exec (.mirrorCommit p) s = .next (t.fabSubmit (t.mirrorReqs (.mirror p) p i (16 + 4 * (i % 2)) (toBytes 4 (t.image i).num)))) ∧
    (∀ r l, (s.fabReqs.filter fun r => r.owner.mirrors p && r.answer.any (· ≥ 2)) = r :: l →
      let told := !((r :: l).any fun x => x.addr = 0 && x.payload.length = 16)
      let t : State := { s with fabReqs := s.fabReqs.filter fun x => !x.owner.mirrors p }
      let i := (t.sending p).getD ((t.newestImage p).getD (2 * p.val))
      let v := (t.setImage i fun m => { m with mstate := 3, mwhole := false }).setPart p fun q => { q with mirrorTold := q.mirrorTold && told }
      exec (.mirrorFail p) s = .next ((v.logFault { cls := 0xB, part := p.val, unit := unitWord 0xA r.dst }).hardFault (some p.val)
        (unitWord 0xA r.dst) 0xB)) ∧
    ((s.part p).mirrorTold = true → s.jobOpen p = true → exec (.mirrorHeartbeat p) s = .next
      (s.fabSubmit (s.mirrorReqs (.mirror p) p ((s.newestImage p).getD (2 * p.val)) 0 (toBytes 8 s.time)))) ∧
    ((s.part p).mirrorTold = true → s.jobOpen p = false → exec (.mirrorHeartbeat p) s = .next
      ((s.setPart p fun q => { q with mirrorTold := false }).fabSubmit (s.mirrorReqs (.mirror p) p (2 * p.val) 24 [0]))) ∧
    ((s.mirror p).used = true → (s.mirror p).lost = false → s.ldNat ((s.mirror p).base + 24) 1 = 1 →
      exec (.peerLost p) s = .next ((((s.setMirror p fun m => { m with lost := true }).logFault
        { cls := 8, part := p.val, unit := unitWord 0xA (s.part p).mirrorDev }).hardFault (some p.val) (unitWord 0xA (s.part p).mirrorDev) 8)))

/-! ## Faults and recovery (R455 to R472) -/

/-- A fault of a skein that belongs to a partition is reported and starts its recovery, of one that belongs to none replaces it at once; an
uncorrectable word of core, local or skein memory also ends the task that reads it with ECC (R69); probes find the skeins that run, and one that
stays silent is a fault. Recovery stops the work, replaces the skeins, restores the image. Faults of T1 and T2 memory are handled by what they hold,
and a channel that fails leaves service (R455, R464, R467 to R472). -/
def Obligations.FaultsAreHandled : Prop :=
  ∀ (s : State),
    (∀ (k : Fin 64) (c : Fin 512) (n : Fin 2048),
      exec (.skeinFault (.skein k)) s = .next (s.skeinFault k (unitWord 1 k)) ∧
      exec (.skeinFault (.matrixCore c)) s = .next (s.skeinFault (c.val / 8) (unitWord 2 c)) ∧
      exec (.skeinFault (.cardingCore n)) s = .next (s.skeinFault (n.val / 32) (unitWord 3 n)) ∧
      ∀ rd, exec (.skeinFault (.coreMemory c rd)) s = .next ((s.eccReader rd).skeinFault (c.val / 8) (unitWord 2 c)) ∧
        exec (.skeinFault (.localMemory n rd)) s = .next ((s.eccReader rd).skeinFault (n.val / 32) (unitWord 3 n)) ∧
        exec (.skeinFault (.skeinMemory k rd)) s = .next ((s.eccReader rd).skeinFault k (unitWord 1 k))) ∧
    (∀ c : Fin 512, s.coreLive c = true → s.eccReader (.core c) = s.stopMatrix c 8 (s.fget .mcrPc c)) ∧
    (∀ t : ThreadId, (s.ctask t.num).active = true → s.eccReader (.thread t) = s.stopThread t.num 5) ∧
    (∀ k unit p, s.holder k = some p → s.skeinFault k unit =
      (s.hardFault (some p) unit 1).startRecovery { part := p, cls := 1, unit := unit, skeins := [k], phys := SMap.get 0 s.phys k }) ∧
    (∀ k unit, s.holder k = none → s.outSkeins.testBit k = false → s.spareFree (k / 16) = true → s.skeinFault k unit =
      (((s.takeSpare k).logFault { cls := 1, action := 1, unit := unit, phys := SMap.get 0 s.phys k }).hardFault none unit 1)) ∧
    (exec .skeinProbe s = .next { s with probes := (List.range 64).foldl (fun a k =>
      if s.quadRuns (k / 16) && !s.outSkeins.testBit k then a ||| 2 ^ k else a) 0 }) ∧
    (∀ k : Fin 64, s.probes.testBit k = true →
      exec (.skeinProbeTimeout k) s = .next (({ s with probes := s.probes - 2 ^ k.val } : State).skeinFault k (unitWord 1 k))) ∧
    (∀ (p : Fin 64) (r : Recovery), s.recovery p = some r → s.millUp = true →
      (r.phase = 0 → s.replaceable r.skeins = true → (s.activeJob p = none ∨ (s.imageFor r).isSome = true) →
        exec (.recoveryStopped p) s = .next ((s.stopWork p).setRecovery p fun x => { x with phase := 1 })) ∧
      (r.phase = 0 → s.replaceable r.skeins = false → exec (.recoveryStopped p) s = .next ((s.stopWork p).recoveryHwfault r)) ∧
      (r.phase = 1 → s.replaceable r.skeins = false → exec (.recoveryReplacementDone p) s = .next (s.recoveryHwfault r)) ∧
      (r.phase = 1 → r.skeins = [] → s.activeJob p = none → exec (.recoveryReplacementDone p) s = .next
        (((s.endRecovery p).takeGuilts).logFault { cls := r.cls, part := p.val, action := if r.cls = 3 then 6 else 4, unit := r.unit,
                                                   phys := r.phys, detail := r.detail })) ∧
      (∀ i, r.phase = 1 → r.skeins = [] → (s.activeJob p).isSome = true → s.imageFor r = some i → exec (.recoveryReplacementDone p) s = .next
        (s.setRecovery p fun x => { x with phase := 2, image := some i, action := if r.cls = 3 then 6 else 4, skeins := [] })) ∧
      (∀ us, exec (.recoveryRestoreDone p us) s = .next (s.recoveryRestored p us))) ∧
    (∀ (dpa : BitVec 52) (rd : Reader), dpa.toNat < s.t1Backed →
      let ch := s.channelAt dpa.toNat
      let u := s.t1UeRow dpa.toNat rd (unitWord 4 ch)
      ((u.countUe ch).2 = false → exec (.t1Ue dpa rd) s = .next (u.countUe ch).1) ∧
      ((u.countUe ch).2 = true → exec (.t1Ue dpa rd) s = .next ((u.countUe ch).1.loseChannel ch))) ∧
    (∀ ch : Fin 256, exec (.commandAddressParityError ch) s = .next (s.loseChannel ch)) ∧
    (∀ (dpa : BitVec 52) (rd : Reader),
      let a := dpa.toNat
      let u := unitWord 5 (t2Package a)
      (ftlReserve ≤ a → a < t2Base + t2Size → t2Base ≤ a → exec (.t2Ue dpa rd) s = .next (s.logFault { cls := 4, action := 5, unit := u, detail := a })) ∧
      (t2Base ≤ a → a < ftlReserve → a < t2Base + t2Size → (s.refillFrom a).isSome = true →
        exec (.t2Ue dpa rd) s = .next ((s.holdForRefill rd a).logFault { cls := 4, action := 5, unit := u, detail := a })) ∧
      (t2Base ≤ a → a < ftlReserve → a < t2Base + t2Size → (s.refillFrom a).isSome = false →
        exec (.t2Ue dpa rd) s = .next ((s.readerFaults rd 6).logFault { cls := 4, unit := u, detail := a })))

/-! ## Power (R484 to R511, R562 to R565) -/

/-- A power-state sequence: a prepared block that has stopped answers, the next is prepared, or the state commits; one that cannot stop refuses with
its reason, counted, and the sequence rolls back. A wake from P4 notes its source and ends in P3 (R490 to R496). -/
def Obligations.PowerSequencesRun : Prop :=
  ∀ (s : State) (q : PwrSeq) (c : Nat) (rest : List Nat),
    (s.pwrSeq = some q → q.todo = c :: rest → q.refused = none → s.millUp = true → s.fget .pwrStateStage 0 = 0 →
      let u : State := { s.stopBlock q.target c with pwrSeq := some { q with todo := rest, ready := c :: q.ready } }
      (s.blockReady q.target c = true → rest = [] → exec .blockReady s = .next (u.powerCommit { q with todo := rest, ready := c :: q.ready })) ∧
      (∀ d l, s.blockReady q.target c = true → rest = d :: l → exec .blockReady s = .next (u.prepare d)) ∧
      (s.blockReady q.target c = false → exec .blockReady s = .next s) ∧
      (∀ reason, s.refuseReason q.target c = some reason → ∃ t, exec .pwrDrainTimeout s = .next t ∧
        t.pwrSeq = some { q with refused := some (c, reason) } ∧ t.fget .pwrRefuseBlock 0 = c % 256 ∧
        t.fget .pwrRefuseReason 0 = reason % 16 ∧ t.fget .pwrRefusals 0 = (s.fget .pwrRefusals 0 + 1) % 2 ^ 64)) ∧
    (∀ m r reason, s.pwrSeq = some q → q.refused = some (c, reason) → s.millUp = true → s.seqRequest q = some (m, r) →
      exec .powerRollbackDone s = .next (s.rollBack.endL m r 0x10 (toBytes 1 (s.fget .pwrState 0) ++ toBytes 1 c) false)) ∧
    (s.started = true → s.fget .pwrState 0 = 4 → s.pwrSeq = none → s.fget .pwrStateStage 0 = 0 →
      ∀ cause n, (cause = .pf0Mailbox ∧ n = 2) ∨ ((∃ p, cause = .partMailbox p) ∧ n = 3) ∨ (cause = .sideband ∧ n = 4) →
      ∃ t, exec (.wakeEvent cause) s = .next t ∧ t.fget .pwrWakeSourceSrc 0 = n ∧ t.fget .pwrWakeSourceFrom 0 = 4 ∧
        t.fget .pwrStateBusy 0 = 1 ∧ t.fget .pwrStateTarget 0 = 3 ∧ t.fget .pwrState 0 = 4) ∧
    (s.wakingUp = true →
      exec (.wakeDone false) s = .next { s.fset .glbReadyStatus 0 0 with started := false, pwrSeq := none } ∧
      (s.mctpHeld = [] → exec (.wakeDone true) s = .next { s.wakeEnds with mctpHeld := [] }))

/-- Power samples, the brake and temperatures: a sample stands in its registers and in the window of the rules and counts 10 µs of throttling where
a cause is in force; the brake and the clocks follow PWRBRK#; a die's temperature acts where the module runs, and a stack's sets its refresh and
activation limits at 85 and 95 degrees (R241, R498 to R502, R564). -/
def Obligations.SamplesBrakeAndTemperatures : Prop :=
  ∀ (s : State),
    (∀ w v : BitVec 16, s.started = true →
      let u := ((s.fset .pwrInputW 0 w.toNat).fset .pwrInputV 0 v.toNat).setPwr fun x =>
        { x with samples := (w.toNat :: x.samples).take 100, hold := x.hold - 1 }
      let t := (if s.fget .pwrStateStage 0 ≠ 0 then u else u.fastRule.capRule.raiseRule.hotRule).refreshClocks
      (t.throttle = 0 → exec (.powerSample w v) s = .next t) ∧ (t.throttle ≠ 0 → exec (.powerSample w v) s = .next (t.fadd .pwrThrotUs 0 10))) ∧
    exec .pwrbrkAssert s = .next (s.fset .pciBoardBrake 0 1).refreshClocks ∧
    exec .pwrbrkRelease s = .next ((s.fset .pciBoardBrake 0 0).setPwr fun x => { x with hold := if s.braked then 100 else x.hold }).refreshClocks ∧
    (∀ src temp : BitVec 8, s.started = true → src.toNat < 19 → exec (.dieTempChange src temp) s = .next (s.measureTemp src.toNat temp.toNat)) ∧
    (∀ (k : Fin 8) (temp : BitVec 8), s.started = true →
      (temp.toNat < 85 → exec (.stackTempChange k temp) s = .next ((((s.fset .tierStackTemp k temp.toNat).fset .tierStackHotref k 0).fset
        .tierStackThrot k 0).measureTemp (8 + k.val) temp.toNat)) ∧
      (85 ≤ temp.toNat → temp.toNat < 95 → exec (.stackTempChange k temp) s = .next ((((s.fset .tierStackTemp k temp.toNat).fset .tierStackHotref k 1).fset
        .tierStackThrot k 0).measureTemp (8 + k.val) temp.toNat)) ∧
      (95 ≤ temp.toNat → exec (.stackTempChange k temp) s = .next (((((s.fset .tierStackTemp k temp.toNat).fset .tierStackHotref k 1).fset
        .tierStackThrot k 1).fset .tierStackWashot k 1).measureTemp (8 + k.val) temp.toNat)))

/-- Supply loss and shutdown: a loss starts the commit and stage 1; the input's return before stage 2 aborts it; else memory but T2 is lost and the
module waits for the commit and goes off. Overcurrent opens the input switch until the input has been below 30 V; a thermal trip goes to stage 2 and
holds THERM_TRIP#; a rail that does not come up stops the start; the hold-up store's charge shows (R501, R507 to R510, R562 to R565). -/
def Obligations.SupplyLossShutsDown : Prop :=
  ∀ (s : State),
    (s.started = true → s.fget .pwrStateStage 0 = 0 → s.fget .ftlStatusState 0 ≠ 0 →
      exec .supplyLoss s = .next ((({ s with inputOk := false, coldCause := 4 } : State).powerLost.fset .pwrStateStage 0 1).refreshClocks) ∧
      (s.swOpen = false → s.inputOk = true → ∃ t : State, exec .inputOvercurrent s = .next t.lossDetected ∧ t.swOpen = true ∧
        t.fget .pciBoardSwopen 0 = 1)) ∧
    (s.swOpen = false → s.fget .pwrStateStage 0 = 0 → exec .inputQualified s = .next { s with inputOk := true, seqStopped := false }) ∧
    (s.swOpen = false → s.fget .pwrStateStage 0 = 1 →
      exec .inputQualified s = .next ({ s with inputOk := true, seqStopped := false } : State).abortShutdown) ∧
    (s.fget .pwrStateStage 0 = 1 → exec .checkReturnExpiry s = .next s.stage2) ∧
    (s.fget .pwrStateStage 0 = 3 → exec .waitCommitTimeout s = .next (({ s with committing := false } : State).fset .pwrStateStage 0 4)) ∧
    (s.fget .pwrStateStage 0 = 4 → exec .shutdownEnd s = .next
      ({ (s.fset .pwrStateStage 0 0).fset .glbReadyStatus 0 0 with started := false, committing := false } : State).refreshClocks) ∧
    (s.tripPin = true ∨ s.swOpen = true → exec .inputBelow30V s = .next { s with tripPin := false, swOpen := false, inputOk := false }) ∧
    (∀ (src : BitVec 8) lim trip, thermalLimit src.toNat = some (lim, trip) → s.started = true → s.fget .pwrStateStage 0 = 0 →
      trip ≤ SMap.get 0 s.temps src.toNat →
      exec (.thermalTrip src) s = .next ({ s.fadd .pwrTrips 0 1 with tripPin := true, coldCause := 3 } : State).powerLost.stage2) ∧
    (s.started = false → s.inputOk = true → exec .powerGoodTimeout s = .next
      { s.logFault { cls := Config.powerFault.1.toNat, unit := Config.powerFault.2.toNat } with seqStopped := true }) ∧
    (∀ e : BitVec 8, s.inputOk = true → s.fget .pwrState 0 = 4 →
      ∃ t, exec (.holdupStoreCharged e) s = .next t ∧ t.holdup = some e.toNat ∧ t.fget .pciBoardHoldupE 0 = e.toNat ∧
        t.fget .pciBoardHoldupOk 0 = (if 40 ≤ e.toNat then 1 else 0) ∧ t.fget .pciBoardHoldupLow 0 = (if 40 ≤ e.toNat then 0 else 1))

/-! ## Starts and resets (R503 to R517, R547, R556, R566, R567) -/

/-- A cold start follows a qualified input and the release of PERST#; GLB_RESET with its key and PERST# reset the module; the link comes up with its
speed and width and goes down with every cached translation and BAR; a function reset is counted, one of PF0 and the clearing of VF Enable act on
every VF. -/
def Obligations.StartsAndResets : Prop :=
  ∀ (s : State),
    (∀ f, s.started = false → s.inputOk = true → s.perst = false → s.tripPin = false → s.swOpen = false → s.seqStopped = false →
      exec (.coldStart f) s = .next (s.coldStart f)) ∧
    (∀ v : BitVec 32, s.started = true → s.fget .pwrStateStage 0 = 0 → v.toNat % 2 ^ 16 = 0x5A17 → bitAt v.toNat 16 = true →
      exec (.glbReset v) s = .next (s.moduleReset 2)) ∧
    (∀ v : BitVec 32, v.toNat % 2 ^ 16 ≠ 0x5A17 ∨ bitAt v.toNat 16 = false → exec (.glbReset v) s = .next s) ∧
    (s.perst = false → s.started = true → s.fget .pwrStateStage 0 = 0 →
      exec .perstAssert s = .next (({ s with perst := true } : State).moduleReset 1)) ∧
    (s.perst = false → s.started = false → exec .perstAssert s = .next { s with perst := true }) ∧
    (s.perst = true → s.started = true → ∀ b, exec (.perstDeassert b) s = .next (({ s with perst := false } : State).fset .pciLinkLstate 0 1)) ∧
    (s.perst = true → s.started = false →
      exec (.perstDeassert true) s = .next (({ s with perst := false } : State).fset .pciLinkSris 0 0) ∧
      exec (.perstDeassert false) s = .next (({ s with perst := false } : State).fset .pciLinkSris 0 1)) ∧
    (∀ (speed : BitVec 3) (width : BitVec 5) (flit : Bool), s.started = true → s.perst = false → speed ≠ 0 → speed ≠ 7 → width = 8 ∨ width = 16 →
      ∃ t, exec (.pcieLinkUp speed width flit) s = .next t ∧ t.fget .pciLinkSpeed 0 = speed.toNat ∧ t.fget .pciLinkWidth 0 = width.toNat ∧
        t.fget .pciLinkFlit 0 = (if flit then 1 else 0) ∧ t.fget .pciLinkLstate 0 = 3 ∧ bitAt (t.fget .glbReadyStatus 0) 0 = true) ∧
    (s.started = true → exec .linkReset s = .next ((((({ (s.dropFuncs fun _ => true) with vfEnable := false, numVfs := 0, bars := [] } : State).setReady
      0 false).fset .pciLinkSpeed 0 0).fset .pciLinkLstate 0 0).dropHostAccesses)) ∧
    (∀ p, s.started = true → exec (.functionReset (.vf p)) s = .next ((s.resetVf p).fadd .pciFlr 0 1)) ∧
    (s.started = true → exec (.functionReset .pf0) s = .next
      (({ ((s.resetVfs.raiseGen 64).dropFuncs (· = 0)) with vfEnable := false, numVfs := 0, bars := [] } : State).fadd .pciFlr 0 1)) ∧
    (s.started = true → s.vfEnable = true → exec .vfEnableClear s = .next (({ s.resetVfs with vfEnable := false } : State).fadd .pciFlr 0 64))

/-! ## The host interface and the management bus (R496, R546 to R552, R568, R569) -/

/-- Configuration requests: a present function answers with its word or takes the write; an absent one is an Unsupported Request. Unmasking a vector
sends what is pending; a write through BAR2 stores at TIER_BAR2.BASE, and is counted as blocked below P0 (R489, R546 to R548, R552). -/
def Obligations.HostInterfaceActs : Prop :=
  ∀ (f : Func) (s : State),
    (s.started = true → s.linkUp = true →
      (s.funcPresent f = true → ∀ off : BitVec 12,
        (exec (.configRequest f off none) s = .next ((s.emit (.readData 4 (s.configValue f (off.toNat / 4 * 4)
          (Config.configWord (funcNum f) (off.toNat / 4 * 4) s.fresh).toNat))).draw)) ∧
        (∀ v, exec (.configRequest f off (some v)) s = .next (s.configWrite f (off.toNat / 4 * 4) v.toNat))) ∧
      (s.funcPresent f = false → ∀ off w, exec (.configRequest f off w) s = .next (s.emit (.readStatus 0)))) ∧
    (s.configValue .pf0 0 0 = 0x09401F6A ∧ (∀ p, s.configValue (.vf p) 0 0 = 0x09411F6A)) ∧
    (∀ v : Fin 18, s.funcPresent f = true → s.asleep f = false → (funcNum f ≠ 0 ∨ v.val < 3) →
      s.powered true (.msixTable (funcNum f) (16 * v.val + 12)) ≠ .blocked →
      let t : State := { s with msixMask := SMap.set true s.msixMask (32 * funcNum f + v.val) false }
      (SMap.get false s.msixPend (32 * funcNum f + v.val) = false → exec (.msixUnmask f v) s = .next t) ∧
      (SMap.get false s.msixPend (32 * funcNum f + v.val) = true → exec (.msixUnmask f v) s = .next
        { t.emit (.msix (funcNum f) v) with msixPend := SMap.set false s.msixPend (32 * funcNum f + v.val) false })) ∧
    (∀ (off : BitVec 36) b l, s.asleep .pf0 = false →
      (s.fget .pwrState 0 = 0 → s.fget .tierBar2En 0 = 1 →
        exec (.bar2Write off (b :: l)) s = .next (s.writeDpa .host (s.fget .tierBar2Base 0 * 2 ^ 30 + off.toNat) (b :: l))) ∧
      (s.fget .pwrState 0 ≠ 0 → exec (.bar2Write off (b :: l)) s = .next (s.fadd .pwrBlocked 0 1)))

/-- The management bus where it is served: a vendor message becomes a request of the sideband mailbox; control commands answer; an I3C address is
taken once; the first SMBus transfer settles the mode, and command 0x01 reads the hottest die (R568, R569). Discovery over DOE names its two
protocols (R525). Completion codes are those of DMTF (log entry 35, PRESUMED). -/
def Obligations.ManagementBusAnswers : Prop :=
  ∀ (s : State),
    (∀ body, s.started = true → s.busServed = true → s.fget .pwrState 0 ≠ 4 → fld body 0 2 = 0x1F6A → body.length = 258 →
      exec (.mctpMessage 0x7E body) s = .next (s.acceptRequest 65 0 (body.drop 2))) ∧
    (∀ type body, s.started = true → s.busServed = true → s.fget .pwrState 0 = 4 → s.mctpHeld = [] →
      exec (.mctpMessage type body) s = .next { s with mctpHeld := [(type.toNat, body)] }) ∧
    (s.busServed = true → s.millUp = true →
      (∀ e, e ≠ 0 → e ≠ 0xFF → exec (.setEndpointId e) s = .next (({ s with eid := e.toNat } : State).emit (.mctpControl 1 [0, 0, e, 0]))) ∧
      exec .getEndpointId s = .next (s.emit (.mctpControl 2 [0, BitVec.ofNat 8 s.eid, 0, 0])) ∧
      exec .mctpGetVersion s = .next (s.emit (.mctpControl 4 (0 :: Config.mctpVersions))) ∧
      exec .getMessageTypeSupport s = .next (s.emit (.mctpControl 5 [0, 3, 0x00, 0x05, 0x7E]))) ∧
    (∀ st dyn, s.busServed = true → s.smbus ≠ some true → s.dynAddr = none →
      exec (.entdaa dyn) s = .next { s with smbus := some false, dynAddr := some dyn.toNat } ∧
      (st.toNat = 0x60 + Config.straps.toNat → exec (.setdasa st dyn) s = .next { s with smbus := some false, dynAddr := some dyn.toNat })) ∧
    (s.busServed = true → s.smbus ≠ some false →
      exec (.smbusReadByte 1) s = .next (({ s with smbus := some true } : State).emit
        (.bus [BitVec.ofNat 8 ((List.range 6).foldl (fun a i => max a (SMap.get 0 s.temps i)) 0)]))) ∧
    (s.spdmServed → exec (.doeDiscovery 0) s = .next (s.emit (.doe [1, 0, 0, 1])) ∧ exec (.doeDiscovery 1) s = .next (s.emit (.doe [1, 0, 1, 0])))

/-- SPDM requests of a transport, each in its step of the connection: versions 1.2 and 1.3, capabilities, P-384 and SHA-384, digests, the chain, the
challenge and the measurements; out of order they are unexpected (R523 to R525). Codes and order are those of DMTF (log entry 34, PRESUMED). -/
def Obligations.SpdmRequestsAnswer : Prop :=
  ∀ (t : Transport) (s : State), s.spdmServed →
    let reply (u : State) (r : SpdmReply) : Host.Outcome State Fault Refusal := .next (u.emit (.spdm (t == .doe) r))
    let chain := s.certChain
    exec (.getVersion t) s = reply (s.setSpdm t fun _ => { phase := 1 }) (.version [0x12, 0x13]) ∧
    (∀ code, exec (.spdmUnsupportedRequest t code) s = reply s (.error 7)) ∧
    ((s.spdmConn t).phase = 0 → exec (.getDigests t) s = reply s (.error 4)) ∧
    (1 ≤ (s.spdmConn t).phase → ∀ v : BitVec 8, v = 0x12 ∨ v = 0x13 →
      exec (.getCapabilities t v) s = reply (s.setSpdm t fun _ => { phase := 2, version := v.toNat }) (.capabilities v.toNat)) ∧
    (2 ≤ (s.spdmConn t).phase → ∀ asym hash : BitVec 32, bitAt asym.toNat 7 = true → bitAt hash.toNat 1 = true →
      exec (.negotiateAlgorithms t asym hash) s = reply (s.setSpdm t fun c => { c with phase := 3 }) (.algorithms 0x80 2)) ∧
    (3 ≤ (s.spdmConn t).phase → s.fget .secLc 0 ≠ 0 →
      exec (.getDigests t) s = reply s (.digests [sha384 chain]) ∧
      (∀ off len : BitVec 16, off.toNat < chain.length → exec (.getCertificate t 0 off len) s =
        reply s (.certificate 0 ((chain.drop off.toNat).take len.toNat) (chain.length - off.toNat - ((chain.drop off.toNat).take len.toNat).length))) ∧
      (∀ nonce : BitVec 256,
        let own := s.conditioned 32
        let q := own.1.aliasSign (toBytes 32 nonce.toNat ++ own.2)
        exec (.challenge t 0 nonce) s = reply q.1 (.challengeAuth 0 (sha384 chain) own.2 q.2)) ∧
      (∀ (i : BitVec 8) (nonce : BitVec 256), i.toNat ≤ 7 → exec (.getMeasurements t i false nonce) s =
        reply s (.measurements 7 (s.spdmBlocks.filter fun b => i.toNat = 0xFF || b.1 = i.toNat) [])))

/-! ## Debug and self-test (R526 to R545) -/

/-- Debug: the aperture reads the trace buffer while it is open, reaches what the level and the power state allow, and counts what they deny; halts
and resumes act on threads at FULL; JTAG instructions answer with their registers, below their level as BYPASS; the console is read below FULL only
for status (R526 to R534). -/
def Obligations.DebugActs : Prop :=
  ∀ (s : State),
    (s.started = true → s.asleep .pf0 = false → ∀ (off : BitVec 28) (wide : Bool) (w : Option (BitVec 64)),
      let n := if wide then 8 else 4
      let dpa := (s.fget .secAper 0 + (off.toNat - 0xC000000)) % 2 ^ 52
      off.toNat % n = 0 →
      (0xC000000 ≤ off.toNat → s.debugReaches dpa w.isSome = false → exec (.debugApertureAccess off wide w) s = .next
        (if w.isSome then s.fadd .secDbgdeny 0 1 else (s.fadd .secDbgdeny 0 1).emit (.readData n (2 ^ (8 * n) - 1)))) ∧
      (0xC000000 ≤ off.toNat → s.debugReaches dpa false = true → w = none →
        exec (.debugApertureAccess off wide w) s = .next (s.emit (.readData n (s.debugRead dpa n)))) ∧
      (∀ v, 0xC000000 ≤ off.toNat → s.debugReaches dpa true = true → w = some v →
        exec (.debugApertureAccess off wide w) s = .next (s.debugWrite dpa n (v.toNat % 2 ^ (8 * n)))) ∧
      (0x8000000 ≤ off.toNat → off.toNat < 0x9000000 → s.traceOpen = true → w = none →
        exec (.debugApertureAccess off wide w) s = .next (s.emit (.readData n (ofBytes (s.ld (traceBase + (off.toNat - 0x8000000)) n)))))) ∧
    (∀ t : ThreadId, s.started = true → s.fget .pwrState 0 = 0 →
      (s.fget .secDbgApplied 0 ≠ 2 → exec (.secHaltHalt t) s = .next (s.fadd .secDbgdeny 0 1) ∧
        exec (.secHaltResume t) s = .next (s.fadd .secDbgdeny 0 1)) ∧
      (s.fget .secDbgApplied 0 = 2 → (s.ctask t.num).active = true →
        exec (.secHaltHalt t) s = .next (s.setThread t.num fun h => { h with halted := true })) ∧
      (s.fget .secDbgApplied 0 = 2 → s.halts = [] → (s.thread t.num).wait = .none →
        ∃ u, exec (.secHaltResume t) s = .next u ∧ (u.thread t.num).halted = false ∧ (u.thread t.num).wait = .none)) ∧
    exec .bypass s = .next ((s.setTap .bypass).emit (.jtag [false])) ∧
    exec .xident s = .next ((s.setTap .xident).emit (.jtag (bitsOf 32 (0x09400000 + Config.fuseRev.toNat * 2 ^ 8 + s.fget .secLc 0)))) ∧
    (∀ bits, s.fget .secDbgApplied 0 = 2 → exec (.samplePreload bits) s = .next
      ((({ s.draw with preload := bits } : State).setTap .samplePreload).emit (.jtag (Config.boundary s.fresh)))) ∧
    (s.fget .secDbgApplied 0 = 2 → s.formedParts = [] → exec .extest s = .next ((s.setTap .extest).emit (.boundary s.preload))) ∧
    (s.fget .secDbgApplied 0 ≠ 2 → exec .extest s = exec .bypass s ∧ ∀ bits, exec (.samplePreload bits) s = exec .bypass s) ∧
    (s.fget .secDbgApplied 0 = 0 → ∀ v, exec (.dbgAccess v) s = .next (((s.setTap .dbgAccess).fadd .secDbgdeny 0 1).emit (.jtag (bitsOf 96 (2 ^ 96 - 1))))) ∧
    (∀ v : BitVec 96, let dpa := (s.fget .secAper 0 + v.toNat % 2 ^ 52) % 2 ^ 52
      s.fget .secDbgApplied 0 ≠ 0 → dpa % 4 = 0 → v.toNat.testBit 52 = true → s.debugReaches dpa true = true →
      exec (.dbgAccess v) s = .next (((s.setTap .dbgAccess).debugWrite dpa 4 (v.toNat / 2 ^ 64)).emit (.jtag (bitsOf 96 v.toNat)))) ∧
    (∀ ro line, s.millUp = true → s.fget .pwrState 0 ≠ 4 → s.fget .secDbgApplied 0 = 2 ∨ (s.fget .secDbgApplied 0 = 1 ∧ ro = true) →
      exec (.uartCommand ro line) s = .next (s.draw.emit (.uart (Config.consoleText s.fresh))))

/-- A self-test that completes takes its units out of test, shows signatures and failures, handles the failing units, and answers its command behind
its change-log entry; nothing happens while none runs (R539 to R545). -/
def Obligations.SelfTestCompletes : Prop :=
  ∀ (s : State) (fs : BitVec 64) (fc : List (Fin 256)) (fi : BitVec 2) (fv : List (Fin 24)) (n : Nat),
    let iods := [0, 1].filter fun d => fi.toNat.testBit d
    let found : BistFound := { units := skeinsOf fs.toNat ++ iods.map (72 + ·), channels := fc.map (·.val), video := fv.map (·.val), repairs := n }
    (s.bist = none → exec (.bistComplete fs fc fi fv n) s = .next s) ∧
    (∀ b, s.bist = some b → s.millUp = true →
      let units := bistUnits b.scope b.mask
      let f := found.within units
      let sigs := bistSigs s.fresh b.kind units f.units
      let t1 := (skeinsOf s.testSkeins).foldl (fun (t : State) k => t.resetSkein k) { s with fresh := s.fresh + units.length }
      let t2 : State := { t1 with bist := none, testSkeins := 0, repairRecord := s.repairRecord + f.repairs }
      let t3 := ((t2.formedParts.foldl State.showPartition t2).bistShow b f units sigs).bistHandle f (iods.filter fun d => units.contains (72 + d))
      let t4 := t3.refreshClocks
      ∀ r, (t4.mbx b.mbx).reqs.find? (fun (x : MbxReq) => x.stamp = b.stamp && x.phase = 1) = some r →
        exec (.bistComplete fs fc fi fv n) s = .next
          ((t4.logCmd b.mbx r 0x11 (toBytes 1 b.kind ++ toBytes 1 b.scope ++ toBytes 6 0 ++ toBytes 8 b.mask) (toBytes 16 (bistFold sigs))).endL
            b.mbx r 0 (toBytes 16 (bistFold sigs) ++ toBytes 2 f.repairs) true))

/-! ## Rules over all commands, and over registers, words and memory -/

/-- Every step completes: whatever the command and the state, `exec` answers a next state, no fault and no refusal; on an empty queue the module's
time advances by one ACLK cycle and nothing else changes (that is DESIGN CHOICE, log entry 2). -/
def Obligations.EveryStepCompletes : Prop :=
  (∀ (c : Instr) (s : State), ∃ t, exec c s = .next t) ∧
  (∀ s : State, s.pending = [] → ∃ t, step s = .next t ∧ t.fget .glbTime 0 = (s.fget .glbTime 0 + 1) % 2 ^ 64 ∧
    (∀ f i, f ≠ .glbTime → t.fget f i = s.fget f i) ∧ { t with regs := s.regs } = s)

/-- An aligned register write leaves every field that the map shows as RO everywhere, but for the barrier registers that show what BARSEL selects,
and every WO one; it sets no bit of a field that is W1C everywhere, where hardware sets none at the same moment. Any other access, or one that is
not aligned, changes no field but the counts of blocked and of ill-sized ones (R9 to R11, R284, R489). -/
def Obligations.ReadOnlyFieldsKeepTheirValue : Prop :=
  ∀ (s : State) (a : Access) (wide : Bool) (w : Written) (f : Fld) (i : Nat), ∃ t, exec (.registerWrite a wide w) s = .next t ∧
    (∀ b inst off, s.locate a = .reg b inst off → accessAt a % (if wide then 8 else 4) = 0 →
      (f.always .ro → f ∉ [Fld.strmPBarExp, .strmPBarCount, .strmPPhase] → t.fget f i = s.fget f i) ∧
      (f.always .wo → t.fget f i = s.fget f i) ∧
      (f.always .w1c → w.sets = 0 → t.fget f i &&& s.fget f i = t.fget f i) ∧
      (∀ a, t.ld a 1 = s.ld a 1)) ∧
    ((∀ b inst off, s.locate a ≠ .reg b inst off) ∨ accessAt a % (if wide then 8 else 4) ≠ 0 → f ≠ .pwrBlocked → f ≠ .pciBadsize →
      t.fget f i = s.fget f i)

/-- Tile words and tile instructions are in step: a well-formed instruction is a word of 128 bits that decodes to it, and a word that decodes is
that of its instruction, which is well formed (R78 to R93). -/
def Obligations.TileWordsRoundTrip : Prop :=
  (∀ t : Tile, t.wf = true → t.encode < 2 ^ 128 ∧ decodeTile t.encode = some t) ∧
  (∀ (w : Nat) (t : Tile), w < 2 ^ 128 → decodeTile w = some t → t.wf = true ∧ t.encode = w)

/-- Memory: stored bytes read back, every other byte is unchanged, no register changes, the canonical form is kept, and two memories in that form
that read alike at every address are equal. -/
def Obligations.StoresReadBack : Prop :=
  ∀ (s : State) (a : Nat) (bs : List Byte),
    (s.st a bs).ld a bs.length = bs ∧
    (∀ b n, b + n ≤ a ∨ a + bs.length ≤ b → (s.st a bs).ld b n = s.ld b n) ∧
    (s.st a bs).regs = s.regs ∧
    (s.memWf = true → (s.st a bs).memWf = true) ∧
    (∀ t : State, s.memWf = true → t.memWf = true → (∀ b, s.ld b 1 = t.ld b 1) → s.mem = t.mem)

/-- The register file stays in canonical form, every value inside its field's width, over a step of the commands of the register, JTAG and
management ports and of the link that portCommand names; it is so at reset. -/
def Obligations.RegisterFileStaysCanonical : Prop :=
  State.reset.regsFit = true ∧
  ∀ (s t : State) (c : Instr) (rest : List Instr), s.regsFit = true → s.pending = c :: rest → portCommand c = true →
    step s = .next t → t.regsFit = true

/-! ## Number formats and levels -/

/-- The canonical NaN of each floating-point format, and no other word, is what a NaN becomes: every NaN word of a format, whatever its sign and
payload, is written again as the canonical one under every rounding (R41). -/
def Obligations.NansAreCanonical : Prop :=
  fp32.nan = 0x7FC00000 ∧ bf16.nan = 0x7FC0 ∧ fp16.nan = 0x7E00 ∧ fp8e5.nan = 0x7E ∧ fp8e4.nan = 0x7F ∧
  (∀ f ∈ [fp32, bf16, fp16, fp8e5, fp8e4], ∀ g ∈ [fp32, bf16, fp16, fp8e5, fp8e4], ∀ (rnd : Rnd) (w : Nat), w < 2 ^ f.width →
    (f.dec w).isNan = true → g.enc rnd (f.dec w) = g.nan) ∧
  (∀ f ∈ [fp32, bf16, fp16, fp8e5, fp8e4], (f.dec f.nan).isNan = true) ∧
  (∀ v : Val, (v.add .nan).isNan = true ∧ (Val.nan.add v).isNan = true ∧ (v.mul .nan).isNan = true ∧ (Val.nan.mul v).isNan = true)

/-- Lifecycle and requested level give the applied level: at a start, and at DEBUG_SET once the grant of the lifecycle stands; SECURE (2) grants
MILL (1), every other lifecycle FULL (2) (R533). -/
def Obligations.LifecycleGivesAppliedLevel : Prop :=
  ∀ (s old : State) (sig : Nat), old.fusedLc < 4 →
    let table (lc v : Nat) : Nat := if lc = 2 then min v 1 else v
    let t := s.secStart old sig
    t.fget .secLc 0 = old.fusedLc ∧
    (s.fget .secDbgReq 0 ≤ 2 → t.fget .secDbgApplied 0 = table old.fusedLc (s.fget .secDbgReq 0)) ∧
    (∀ v, v ≤ 2 → t.fget .secDbgApplied 0 ≤ table old.fusedLc v ∨ s.ctasks = [] →
      (t.setDebug v).fget .secDbgReq 0 = v ∧ (t.setDebug v).fget .secDbgApplied 0 = table old.fusedLc v)
end

