-- ==== Sys2Proof/Laws/Fields.lean ====
section
/-! SUPPORT. The width of each register field, one rewriting rule a field. -/

namespace Sys2Proof.Machine

@[simp] theorem Fld.width_mcrIdCore : Fld.width .mcrIdCore = 9 := rfl
@[simp] theorem Fld.width_mcrIdSkein : Fld.width .mcrIdSkein = 6 := rfl
@[simp] theorem Fld.width_mcrIdQuad : Fld.width .mcrIdQuad = 2 := rfl
@[simp] theorem Fld.width_mcrIdRev : Fld.width .mcrIdRev = 8 := rfl
@[simp] theorem Fld.width_mcrStatusBusy : Fld.width .mcrStatusBusy = 1 := rfl
@[simp] theorem Fld.width_mcrStatusArra : Fld.width .mcrStatusArra = 1 := rfl
@[simp] theorem Fld.width_mcrStatusArrb : Fld.width .mcrStatusArrb = 1 := rfl
@[simp] theorem Fld.width_mcrStatusEpi : Fld.width .mcrStatusEpi = 1 := rfl
@[simp] theorem Fld.width_mcrStatusXfer : Fld.width .mcrStatusXfer = 1 := rfl
@[simp] theorem Fld.width_mcrStatusSnflush : Fld.width .mcrStatusSnflush = 1 := rfl
@[simp] theorem Fld.width_mcrStatusIsat : Fld.width .mcrStatusIsat = 1 := rfl
@[simp] theorem Fld.width_mcrFaultCode : Fld.width .mcrFaultCode = 4 := rfl
@[simp] theorem Fld.width_mcrFaultPc : Fld.width .mcrFaultPc = 11 := rfl
@[simp] theorem Fld.width_mcrPc : Fld.width .mcrPc = 11 := rfl
@[simp] theorem Fld.width_mcrFlags : Fld.width .mcrFlags = 16 := rfl
@[simp] theorem Fld.width_mcrFlagSet : Fld.width .mcrFlagSet = 16 := rfl
@[simp] theorem Fld.width_mcrFlagClr : Fld.width .mcrFlagClr = 16 := rfl
@[simp] theorem Fld.width_mcrStep : Fld.width .mcrStep = 32 := rfl
@[simp] theorem Fld.width_mcrLen : Fld.width .mcrLen = 32 := rfl
@[simp] theorem Fld.width_mcrModeSubn : Fld.width .mcrModeSubn = 1 := rfl
@[simp] theorem Fld.width_mcrModePart : Fld.width .mcrModePart = 6 := rfl
@[simp] theorem Fld.width_mcrModeOwned : Fld.width .mcrModeOwned = 1 := rfl
@[simp] theorem Fld.width_mcrDeckleBase : Fld.width .mcrDeckleBase = 8 := rfl
@[simp] theorem Fld.width_mcrDeckleSize : Fld.width .mcrDeckleSize = 8 := rfl
@[simp] theorem Fld.width_mcrStepsA : Fld.width .mcrStepsA = 64 := rfl
@[simp] theorem Fld.width_mcrStepsB : Fld.width .mcrStepsB = 64 := rfl
@[simp] theorem Fld.width_mcrCycTask : Fld.width .mcrCycTask = 64 := rfl
@[simp] theorem Fld.width_mcrStallHaz : Fld.width .mcrStallHaz = 64 := rfl
@[simp] theorem Fld.width_mcrStallMem : Fld.width .mcrStallMem = 64 := rfl
@[simp] theorem Fld.width_mcrEccCe : Fld.width .mcrEccCe = 64 := rfl
@[simp] theorem Fld.width_mcrSkips : Fld.width .mcrSkips = 64 := rfl
@[simp] theorem Fld.width_mcrAr : Fld.width .mcrAr = 16 := rfl
@[simp] theorem Fld.width_mcrLc : Fld.width .mcrLc = 24 := rfl
@[simp] theorem Fld.width_crdIdCore : Fld.width .crdIdCore = 11 := rfl
@[simp] theorem Fld.width_crdIdSkein : Fld.width .crdIdSkein = 6 := rfl
@[simp] theorem Fld.width_crdIdQuad : Fld.width .crdIdQuad = 2 := rfl
@[simp] theorem Fld.width_crdIdRev : Fld.width .crdIdRev = 8 := rfl
@[simp] theorem Fld.width_crdStatusTbusy : Fld.width .crdStatusTbusy = 8 := rfl
@[simp] theorem Fld.width_crdStatusSnflush : Fld.width .crdStatusSnflush = 1 := rfl
@[simp] theorem Fld.width_crdStatusHobusy : Fld.width .crdStatusHobusy = 1 := rfl
@[simp] theorem Fld.width_crdStatusStovf : Fld.width .crdStatusStovf = 1 := rfl
@[simp] theorem Fld.width_crdFaultCode : Fld.width .crdFaultCode = 4 := rfl
@[simp] theorem Fld.width_crdFaultThread : Fld.width .crdFaultThread = 3 := rfl
@[simp] theorem Fld.width_crdFaultPc : Fld.width .crdFaultPc = 64 := rfl
@[simp] theorem Fld.width_crdFaultVa : Fld.width .crdFaultVa = 64 := rfl
@[simp] theorem Fld.width_crdExit : Fld.width .crdExit = 32 := rfl
@[simp] theorem Fld.width_crdModeSubn : Fld.width .crdModeSubn = 1 := rfl
@[simp] theorem Fld.width_crdModePart : Fld.width .crdModePart = 6 := rfl
@[simp] theorem Fld.width_crdModeOwned : Fld.width .crdModeOwned = 1 := rfl
@[simp] theorem Fld.width_crdInstr : Fld.width .crdInstr = 64 := rfl
@[simp] theorem Fld.width_crdFlops : Fld.width .crdFlops = 64 := rfl
@[simp] theorem Fld.width_crdSfuElem : Fld.width .crdSfuElem = 64 := rfl
@[simp] theorem Fld.width_crdHoBytes : Fld.width .crdHoBytes = 64 := rfl
@[simp] theorem Fld.width_crdEccCe : Fld.width .crdEccCe = 64 := rfl
@[simp] theorem Fld.width_crdStallMem : Fld.width .crdStallMem = 64 := rfl
@[simp] theorem Fld.width_crdPc : Fld.width .crdPc = 48 := rfl
@[simp] theorem Fld.width_sknWhorlCmdLane : Fld.width .sknWhorlCmdLane = 6 := rfl
@[simp] theorem Fld.width_sknWhorlCmdOp : Fld.width .sknWhorlCmdOp = 1 := rfl
@[simp] theorem Fld.width_sknWhorlCmdCount : Fld.width .sknWhorlCmdCount = 56 := rfl
@[simp] theorem Fld.width_sknWhorlStatusPend : Fld.width .sknWhorlStatusPend = 5 := rfl
@[simp] theorem Fld.width_sknWhorlStatusSeeded : Fld.width .sknWhorlStatusSeeded = 1 := rfl
@[simp] theorem Fld.width_sknWhorlStatusSrcfail : Fld.width .sknWhorlStatusSrcfail = 1 := rfl
@[simp] theorem Fld.width_sknWhorlWords : Fld.width .sknWhorlWords = 64 := rfl
@[simp] theorem Fld.width_sknWhorlTick : Fld.width .sknWhorlTick = 64 := rfl
@[simp] theorem Fld.width_sknWhorlPolyLo : Fld.width .sknWhorlPolyLo = 64 := rfl
@[simp] theorem Fld.width_sknWhorlPolyHi : Fld.width .sknWhorlPolyHi = 64 := rfl
@[simp] theorem Fld.width_tierCapLive : Fld.width .tierCapLive = 9 := rfl
@[simp] theorem Fld.width_tierCapSysres : Fld.width .tierCapSysres = 7 := rfl
@[simp] theorem Fld.width_tierCapT1cap : Fld.width .tierCapT1cap = 16 := rfl
@[simp] theorem Fld.width_tierUnbacked : Fld.width .tierUnbacked = 64 := rfl
@[simp] theorem Fld.width_tierPteBad : Fld.width .tierPteBad = 64 := rfl
@[simp] theorem Fld.width_tierLive : Fld.width .tierLive = 32 := rfl
@[simp] theorem Fld.width_tierBar2Base : Fld.width .tierBar2Base = 9 := rfl
@[simp] theorem Fld.width_tierBar2En : Fld.width .tierBar2En = 1 := rfl
@[simp] theorem Fld.width_tierStackTemp : Fld.width .tierStackTemp = 8 := rfl
@[simp] theorem Fld.width_tierStackHotref : Fld.width .tierStackHotref = 1 := rfl
@[simp] theorem Fld.width_tierStackThrot : Fld.width .tierStackThrot = 1 := rfl
@[simp] theorem Fld.width_tierStackWashot : Fld.width .tierStackWashot = 1 := rfl
@[simp] theorem Fld.width_tierChLive : Fld.width .tierChLive = 1 := rfl
@[simp] theorem Fld.width_tierChCause : Fld.width .tierChCause = 3 := rfl
@[simp] theorem Fld.width_tierChCe : Fld.width .tierChCe = 16 := rfl
@[simp] theorem Fld.width_tierPHashHmode : Fld.width .tierPHashHmode = 1 := rfl
@[simp] theorem Fld.width_tierPHashSeed : Fld.width .tierPHashSeed = 16 := rfl
@[simp] theorem Fld.width_tierPT1use : Fld.width .tierPT1use = 64 := rfl
@[simp] theorem Fld.width_tierPT1quota : Fld.width .tierPT1quota = 64 := rfl
@[simp] theorem Fld.width_tierPT2use : Fld.width .tierPT2use = 64 := rfl
@[simp] theorem Fld.width_tierPT2quota : Fld.width .tierPT2quota = 64 := rfl
@[simp] theorem Fld.width_tierPT3use : Fld.width .tierPT3use = 64 := rfl
@[simp] theorem Fld.width_tierPT3quota : Fld.width .tierPT3quota = 64 := rfl
@[simp] theorem Fld.width_tierPImbImb : Fld.width .tierPImbImb = 1 := rfl
@[simp] theorem Fld.width_tierPImbImbNow : Fld.width .tierPImbImbNow = 1 := rfl
@[simp] theorem Fld.width_tierPImbHotch : Fld.width .tierPImbHotch = 8 := rfl
@[simp] theorem Fld.width_tierPImbRatio : Fld.width .tierPImbRatio = 16 := rfl
@[simp] theorem Fld.width_tierPImbEvents : Fld.width .tierPImbEvents = 32 := rfl
@[simp] theorem Fld.width_strmCapEngines : Fld.width .strmCapEngines = 3 := rfl
@[simp] theorem Fld.width_strmCapCtx : Fld.width .strmCapCtx = 8 := rfl
@[simp] theorem Fld.width_strmDrainTo : Fld.width .strmDrainTo = 16 := rfl
@[simp] theorem Fld.width_strmEStatusActive : Fld.width .strmEStatusActive = 8 := rfl
@[simp] theorem Fld.width_strmEStatusDrain : Fld.width .strmEStatusDrain = 1 := rfl
@[simp] theorem Fld.width_strmEBytes : Fld.width .strmEBytes = 64 := rfl
@[simp] theorem Fld.width_strmEMerged : Fld.width .strmEMerged = 64 := rfl
@[simp] theorem Fld.width_strmEFaults : Fld.width .strmEFaults = 64 := rfl
@[simp] theorem Fld.width_strmPModeSa : Fld.width .strmPModeSa = 1 := rfl
@[simp] theorem Fld.width_strmPModeClass : Fld.width .strmPModeClass = 1 := rfl
@[simp] theorem Fld.width_strmPModeReplay : Fld.width .strmPModeReplay = 1 := rfl
@[simp] theorem Fld.width_strmPModeCtx : Fld.width .strmPModeCtx = 8 := rfl
@[simp] theorem Fld.width_strmPArrive : Fld.width .strmPArrive = 8 := rfl
@[simp] theorem Fld.width_strmPBarsel : Fld.width .strmPBarsel = 8 := rfl
@[simp] theorem Fld.width_strmPBarExp : Fld.width .strmPBarExp = 16 := rfl
@[simp] theorem Fld.width_strmPBarCount : Fld.width .strmPBarCount = 16 := rfl
@[simp] theorem Fld.width_strmPPhase : Fld.width .strmPPhase = 32 := rfl
@[simp] theorem Fld.width_strmPWinSbase : Fld.width .strmPWinSbase = 8 := rfl
@[simp] theorem Fld.width_strmPWinSsize : Fld.width .strmPWinSsize = 8 := rfl
@[simp] theorem Fld.width_strmPWinGrace : Fld.width .strmPWinGrace = 16 := rfl
@[simp] theorem Fld.width_strmPSlices : Fld.width .strmPSlices = 64 := rfl
@[simp] theorem Fld.width_strmPLate : Fld.width .strmPLate = 64 := rfl
@[simp] theorem Fld.width_strmPShadow : Fld.width .strmPShadow = 64 := rfl
@[simp] theorem Fld.width_strmPUnavail : Fld.width .strmPUnavail = 64 := rfl
@[simp] theorem Fld.width_strmPStalled : Fld.width .strmPStalled = 64 := rfl
@[simp] theorem Fld.width_strmPStallNs : Fld.width .strmPStallNs = 64 := rfl
@[simp] theorem Fld.width_strmPShadowSteps : Fld.width .strmPShadowSteps = 64 := rfl
@[simp] theorem Fld.width_strmPBytes : Fld.width .strmPBytes = 64 := rfl
@[simp] theorem Fld.width_strmPMerged : Fld.width .strmPMerged = 64 := rfl
@[simp] theorem Fld.width_strmPAborts : Fld.width .strmPAborts = 64 := rfl
@[simp] theorem Fld.width_ftlCapUserblk : Fld.width .ftlCapUserblk = 32 := rfl
@[simp] theorem Fld.width_ftlCapRawgb : Fld.width .ftlCapRawgb = 16 := rfl
@[simp] theorem Fld.width_ftlStatusState : Fld.width .ftlStatusState = 3 := rfl
@[simp] theorem Fld.width_ftlStatusDirtystart : Fld.width .ftlStatusDirtystart = 1 := rfl
@[simp] theorem Fld.width_ftlStatusJlost : Fld.width .ftlStatusJlost = 1 := rfl
@[simp] theorem Fld.width_ftlStatusRebuild : Fld.width .ftlStatusRebuild = 1 := rfl
@[simp] theorem Fld.width_ftlStatusLifeUsed : Fld.width .ftlStatusLifeUsed = 8 := rfl
@[simp] theorem Fld.width_ftlChstatus : Fld.width .ftlChstatus = 16 := rfl
@[simp] theorem Fld.width_ftlSpareSparePm : Fld.width .ftlSpareSparePm = 16 := rfl
@[simp] theorem Fld.width_ftlSpareMinChPm : Fld.width .ftlSpareMinChPm = 16 := rfl
@[simp] theorem Fld.width_ftlBglimit : Fld.width .ftlBglimit = 5 := rfl
@[simp] theorem Fld.width_ftlTemp : Fld.width .ftlTemp = 8 := rfl
@[simp] theorem Fld.width_ftlTempPkg : Fld.width .ftlTempPkg = 4 := rfl
@[simp] theorem Fld.width_ftlTempThrot : Fld.width .ftlTempThrot = 1 := rfl
@[simp] theorem Fld.width_ftlTempWashot : Fld.width .ftlTempWashot = 1 := rfl
@[simp] theorem Fld.width_ftlReadBytes : Fld.width .ftlReadBytes = 64 := rfl
@[simp] theorem Fld.width_ftlStageBytes : Fld.width .ftlStageBytes = 64 := rfl
@[simp] theorem Fld.width_ftlProgBytes : Fld.width .ftlProgBytes = 64 := rfl
@[simp] theorem Fld.width_ftlErases : Fld.width .ftlErases = 64 := rfl
@[simp] theorem Fld.width_ftlRdReloc : Fld.width .ftlRdReloc = 64 := rfl
@[simp] theorem Fld.width_ftlRetReloc : Fld.width .ftlRetReloc = 64 := rfl
@[simp] theorem Fld.width_ftlUrgent : Fld.width .ftlUrgent = 64 := rfl
@[simp] theorem Fld.width_ftlSoft : Fld.width .ftlSoft = 64 := rfl
@[simp] theorem Fld.width_ftlParrec : Fld.width .ftlParrec = 64 := rfl
@[simp] theorem Fld.width_ftlLost : Fld.width .ftlLost = 64 := rfl
@[simp] theorem Fld.width_ftlGrownBad : Fld.width .ftlGrownBad = 64 := rfl
@[simp] theorem Fld.width_ftlCommits : Fld.width .ftlCommits = 64 := rfl
@[simp] theorem Fld.width_ftlChAvgPe : Fld.width .ftlChAvgPe = 16 := rfl
@[simp] theorem Fld.width_ftlChMaxPe : Fld.width .ftlChMaxPe = 16 := rfl
@[simp] theorem Fld.width_ftlChBad : Fld.width .ftlChBad = 16 := rfl
@[simp] theorem Fld.width_ftlChLost : Fld.width .ftlChLost = 1 := rfl
@[simp] theorem Fld.width_vidCapCores : Fld.width .vidCapCores = 5 := rfl
@[simp] theorem Fld.width_vidCapSpp : Fld.width .vidCapSpp = 8 := rfl
@[simp] theorem Fld.width_vidCapSess : Fld.width .vidCapSess = 16 := rfl
@[simp] theorem Fld.width_vidDrainTo : Fld.width .vidDrainTo = 16 := rfl
@[simp] theorem Fld.width_vidCoreEn : Fld.width .vidCoreEn = 24 := rfl
@[simp] theorem Fld.width_vidCStatusState : Fld.width .vidCStatusState = 2 := rfl
@[simp] theorem Fld.width_vidCStatusPart : Fld.width .vidCStatusPart = 6 := rfl
@[simp] theorem Fld.width_vidCFrames : Fld.width .vidCFrames = 64 := rfl
@[simp] theorem Fld.width_vidCPixels : Fld.width .vidCPixels = 64 := rfl
@[simp] theorem Fld.width_vidCWdog : Fld.width .vidCWdog = 64 := rfl
@[simp] theorem Fld.width_vidPSessSessions : Fld.width .vidPSessSessions = 16 := rfl
@[simp] theorem Fld.width_vidPSessQueued : Fld.width .vidPSessQueued = 16 := rfl
@[simp] theorem Fld.width_vidPDecFrames : Fld.width .vidPDecFrames = 64 := rfl
@[simp] theorem Fld.width_vidPEncFrames : Fld.width .vidPEncFrames = 64 := rfl
@[simp] theorem Fld.width_vidPDamaged : Fld.width .vidPDamaged = 64 := rfl
@[simp] theorem Fld.width_vidPWatchdog : Fld.width .vidPWatchdog = 64 := rfl
@[simp] theorem Fld.width_vidPUnsupp : Fld.width .vidPUnsupp = 64 := rfl
@[simp] theorem Fld.width_vidPBsBytes : Fld.width .vidPBsBytes = 64 := rfl
@[simp] theorem Fld.width_ringDb : Fld.width .ringDb = 32 := rfl
@[simp] theorem Fld.width_ringCtl : Fld.width .ringCtl = 3 := rfl
@[simp] theorem Fld.width_ringHead : Fld.width .ringHead = 32 := rfl
@[simp] theorem Fld.width_ringState : Fld.width .ringState = 3 := rfl
@[simp] theorem Fld.width_ringStateErr : Fld.width .ringStateErr = 1 := rfl
@[simp] theorem Fld.width_ringStateWaiting : Fld.width .ringStateWaiting = 1 := rfl
@[simp] theorem Fld.width_ringStateGen : Fld.width .ringStateGen = 8 := rfl
@[simp] theorem Fld.width_ringStateInflight : Fld.width .ringStateInflight = 7 := rfl
@[simp] theorem Fld.width_ringBase : Fld.width .ringBase = 36 := rfl
@[simp] theorem Fld.width_ringCfgLog2n : Fld.width .ringCfgLog2n = 5 := rfl
@[simp] theorem Fld.width_ringCfgPrio : Fld.width .ringCfgPrio = 3 := rfl
@[simp] theorem Fld.width_ringCfgIrqen : Fld.width .ringCfgIrqen = 1 := rfl
@[simp] theorem Fld.width_ringWdog : Fld.width .ringWdog = 32 := rfl
@[simp] theorem Fld.width_ringStart : Fld.width .ringStart = 32 := rfl
@[simp] theorem Fld.width_ringDbign : Fld.width .ringDbign = 64 := rfl
@[simp] theorem Fld.width_ringRecs : Fld.width .ringRecs = 64 := rfl
@[simp] theorem Fld.width_ringStale : Fld.width .ringStale = 64 := rfl
@[simp] theorem Fld.width_ringFenceValue : Fld.width .ringFenceValue = 48 := rfl
@[simp] theorem Fld.width_ringFenceGen : Fld.width .ringFenceGen = 8 := rfl
@[simp] theorem Fld.width_ringSlotValue : Fld.width .ringSlotValue = 56 := rfl
@[simp] theorem Fld.width_ringSlotGen : Fld.width .ringSlotGen = 8 := rfl
@[simp] theorem Fld.width_ringSlotaclSrc : Fld.width .ringSlotaclSrc = 12 := rfl
@[simp] theorem Fld.width_ringSlotaclAny : Fld.width .ringSlotaclAny = 1 := rfl
@[simp] theorem Fld.width_ringSlotaclEn : Fld.width .ringSlotaclEn = 1 := rfl
@[simp] theorem Fld.width_ringSlotstale : Fld.width .ringSlotstale = 32 := rfl
@[simp] theorem Fld.width_ringPstatusFormed : Fld.width .ringPstatusFormed = 1 := rfl
@[simp] theorem Fld.width_ringPstatusJob : Fld.width .ringPstatusJob = 1 := rfl
@[simp] theorem Fld.width_ringPstatusSnflush : Fld.width .ringPstatusSnflush = 1 := rfl
@[simp] theorem Fld.width_ringPstatusIsat : Fld.width .ringPstatusIsat = 1 := rfl
@[simp] theorem Fld.width_ringPstatusStovf : Fld.width .ringPstatusStovf = 1 := rfl
@[simp] theorem Fld.width_ringPstatusCpllost : Fld.width .ringPstatusCpllost = 1 := rfl
@[simp] theorem Fld.width_ringPstatusGuilty : Fld.width .ringPstatusGuilty = 16 := rfl
@[simp] theorem Fld.width_ringBypass : Fld.width .ringBypass = 64 := rfl
@[simp] theorem Fld.width_ringPstale : Fld.width .ringPstale = 64 := rfl
@[simp] theorem Fld.width_ringGuilty0Gring : Fld.width .ringGuilty0Gring = 4 := rfl
@[simp] theorem Fld.width_ringGuilty0Gcause : Fld.width .ringGuilty0Gcause = 4 := rfl
@[simp] theorem Fld.width_ringGuilty0Ggen : Fld.width .ringGuilty0Ggen = 8 := rfl
@[simp] theorem Fld.width_ringGuilty0Gindex : Fld.width .ringGuilty0Gindex = 32 := rfl
@[simp] theorem Fld.width_ringGuilty1Gnode : Fld.width .ringGuilty1Gnode = 16 := rfl
@[simp] theorem Fld.width_ringGuilty1Gtask : Fld.width .ringGuilty1Gtask = 24 := rfl
@[simp] theorem Fld.width_ringGuilty1Gcode : Fld.width .ringGuilty1Gcode = 4 := rfl
@[simp] theorem Fld.width_ringGuilty1Gkind : Fld.width .ringGuilty1Gkind = 1 := rfl
@[simp] theorem Fld.width_ringGtime : Fld.width .ringGtime = 64 := rfl
@[simp] theorem Fld.width_mbxStatusReady : Fld.width .mbxStatusReady = 1 := rfl
@[simp] theorem Fld.width_mbxStatusRestarting : Fld.width .mbxStatusRestarting = 1 := rfl
@[simp] theorem Fld.width_mbxStatusGen : Fld.width .mbxStatusGen = 8 := rfl
@[simp] theorem Fld.width_mbxStatusInflight : Fld.width .mbxStatusInflight = 5 := rfl
@[simp] theorem Fld.width_mbxReqdb : Fld.width .mbxReqdb = 4 := rfl
@[simp] theorem Fld.width_mbxRsptail : Fld.width .mbxRsptail = 32 := rfl
@[simp] theorem Fld.width_mbxRspack : Fld.width .mbxRspack = 32 := rfl
@[simp] theorem Fld.width_mbxEvtail : Fld.width .mbxEvtail = 32 := rfl
@[simp] theorem Fld.width_mbxEvack : Fld.width .mbxEvack = 32 := rfl
@[simp] theorem Fld.width_mbxCtlIrqrsp : Fld.width .mbxCtlIrqrsp = 1 := rfl
@[simp] theorem Fld.width_mbxCtlIrqevt : Fld.width .mbxCtlIrqevt = 1 := rfl
@[simp] theorem Fld.width_mbxCtlReset : Fld.width .mbxCtlReset = 1 := rfl
@[simp] theorem Fld.width_mbxStale : Fld.width .mbxStale = 64 := rfl
@[simp] theorem Fld.width_mbxDbign : Fld.width .mbxDbign = 64 := rfl
@[simp] theorem Fld.width_mbxEvdrop : Fld.width .mbxEvdrop = 64 := rfl
@[simp] theorem Fld.width_ringSched : Fld.width .ringSched = 24 := rfl
@[simp] theorem Fld.width_ringSwmin : Fld.width .ringSwmin = 24 := rfl
@[simp] theorem Fld.width_ringActiveRing : Fld.width .ringActiveRing = 4 := rfl
@[simp] theorem Fld.width_ringActiveValid : Fld.width .ringActiveValid = 1 := rfl
@[simp] theorem Fld.width_ringActiveSwitching : Fld.width .ringActiveSwitching = 1 := rfl
@[simp] theorem Fld.width_ringActiveResident : Fld.width .ringActiveResident = 16 := rfl
@[simp] theorem Fld.width_ringEprioE : Fld.width .ringEprioE = 3 := rfl
@[simp] theorem Fld.width_ringEprioW : Fld.width .ringEprioW = 1 := rfl
@[simp] theorem Fld.width_ringSwitches : Fld.width .ringSwitches = 64 := rfl
@[simp] theorem Fld.width_ringSwNs : Fld.width .ringSwNs = 64 := rfl
@[simp] theorem Fld.width_ringSwmaxNs : Fld.width .ringSwmaxNs = 64 := rfl
@[simp] theorem Fld.width_ringSwBytes : Fld.width .ringSwBytes = 64 := rfl
@[simp] theorem Fld.width_ringLiveCm : Fld.width .ringLiveCm = 11 := rfl
@[simp] theorem Fld.width_ringLiveLm : Fld.width .ringLiveLm = 7 := rfl
@[simp] theorem Fld.width_ringLiveSm : Fld.width .ringLiveSm = 14 := rfl
@[simp] theorem Fld.width_ringSave : Fld.width .ringSave = 40 := rfl
@[simp] theorem Fld.width_flkCapPorts : Fld.width .flkCapPorts = 4 := rfl
@[simp] theorem Fld.width_flkCapVcs : Fld.width .flkCapVcs = 4 := rfl
@[simp] theorem Fld.width_flkCapMaxdev : Fld.width .flkCapMaxdev = 13 := rfl
@[simp] theorem Fld.width_flkIdDevnum : Fld.width .flkIdDevnum = 12 := rfl
@[simp] theorem Fld.width_flkIdSet : Fld.width .flkIdSet = 1 := rfl
@[simp] theorem Fld.width_flkIdTgen : Fld.width .flkIdTgen = 8 := rfl
@[simp] theorem Fld.width_flkRoutingHopmax : Fld.width .flkRoutingHopmax = 8 := rfl
@[simp] theorem Fld.width_flkRoutingE2eRetry : Fld.width .flkRoutingE2eRetry = 4 := rfl
@[simp] theorem Fld.width_flkE2eTo : Fld.width .flkE2eTo = 16 := rfl
@[simp] theorem Fld.width_flkCreditToUs : Fld.width .flkCreditToUs = 16 := rfl
@[simp] theorem Fld.width_flkCreditToDeadMs : Fld.width .flkCreditToDeadMs = 16 := rfl
@[simp] theorem Fld.width_flkRateGbps : Fld.width .flkRateGbps = 16 := rfl
@[simp] theorem Fld.width_flkRateStopUs : Fld.width .flkRateStopUs = 16 := rfl
@[simp] theorem Fld.width_flkCollTo : Fld.width .flkCollTo = 16 := rfl
@[simp] theorem Fld.width_flkMalThresh : Fld.width .flkMalThresh = 16 := rfl
@[simp] theorem Fld.width_flkStale : Fld.width .flkStale = 64 := rfl
@[simp] theorem Fld.width_flkDup : Fld.width .flkDup = 64 := rfl
@[simp] theorem Fld.width_flkFiltered : Fld.width .flkFiltered = 64 := rfl
@[simp] theorem Fld.width_flkHopdrop : Fld.width .flkHopdrop = 64 := rfl
@[simp] theorem Fld.width_flkNoroute : Fld.width .flkNoroute = 64 := rfl
@[simp] theorem Fld.width_flkRatedrop : Fld.width .flkRatedrop = 64 := rfl
@[simp] theorem Fld.width_flkUnreach : Fld.width .flkUnreach = 64 := rfl
@[simp] theorem Fld.width_flkPortState : Fld.width .flkPortState = 3 := rfl
@[simp] theorem Fld.width_flkPortEnc : Fld.width .flkPortEnc = 1 := rfl
@[simp] theorem Fld.width_flkPortEncreq : Fld.width .flkPortEncreq = 1 := rfl
@[simp] theorem Fld.width_flkPortCause : Fld.width .flkPortCause = 4 := rfl
@[simp] theorem Fld.width_flkPortPartner : Fld.width .flkPortPartner = 16 := rfl
@[simp] theorem Fld.width_flkPTxbytes : Fld.width .flkPTxbytes = 64 := rfl
@[simp] theorem Fld.width_flkPRxbytes : Fld.width .flkPRxbytes = 64 := rfl
@[simp] theorem Fld.width_flkPFecCorr : Fld.width .flkPFecCorr = 64 := rfl
@[simp] theorem Fld.width_flkPFecUncorr : Fld.width .flkPFecUncorr = 64 := rfl
@[simp] theorem Fld.width_flkPRetries : Fld.width .flkPRetries = 64 := rfl
@[simp] theorem Fld.width_flkPMalformed : Fld.width .flkPMalformed = 64 := rfl
@[simp] theorem Fld.width_flkPErrAuthfail : Fld.width .flkPErrAuthfail = 32 := rfl
@[simp] theorem Fld.width_flkPErrCredto : Fld.width .flkPErrCredto = 32 := rfl
@[simp] theorem Fld.width_flkQuar : Fld.width .flkQuar = 32 := rfl
@[simp] theorem Fld.width_flkQColl : Fld.width .flkQColl = 64 := rfl
@[simp] theorem Fld.width_flkQPend : Fld.width .flkQPend = 5 := rfl
@[simp] theorem Fld.width_flkQTxbytes : Fld.width .flkQTxbytes = 64 := rfl
@[simp] theorem Fld.width_flkQRxbytes : Fld.width .flkQRxbytes = 64 := rfl
@[simp] theorem Fld.width_flkQRefused : Fld.width .flkQRefused = 64 := rfl
@[simp] theorem Fld.width_flkQColls : Fld.width .flkQColls = 64 := rfl
@[simp] theorem Fld.width_ringImpBase : Fld.width .ringImpBase = 32 := rfl
@[simp] theorem Fld.width_ringImpSize : Fld.width .ringImpSize = 32 := rfl
@[simp] theorem Fld.width_ringImpCtlSrc : Fld.width .ringImpCtlSrc = 12 := rfl
@[simp] theorem Fld.width_ringImpCtlSpart : Fld.width .ringImpCtlSpart = 6 := rfl
@[simp] theorem Fld.width_ringImpCtlAnydev : Fld.width .ringImpCtlAnydev = 1 := rfl
@[simp] theorem Fld.width_ringImpCtlAnypart : Fld.width .ringImpCtlAnypart = 1 := rfl
@[simp] theorem Fld.width_ringImpCtlEn : Fld.width .ringImpCtlEn = 1 := rfl
@[simp] theorem Fld.width_ringImpAccepted : Fld.width .ringImpAccepted = 64 := rfl
@[simp] theorem Fld.width_pwrState : Fld.width .pwrState = 3 := rfl
@[simp] theorem Fld.width_pwrStateTarget : Fld.width .pwrStateTarget = 3 := rfl
@[simp] theorem Fld.width_pwrStateBusy : Fld.width .pwrStateBusy = 1 := rfl
@[simp] theorem Fld.width_pwrStateStage : Fld.width .pwrStateStage = 3 := rfl
@[simp] theorem Fld.width_pwrWakeSourceSrc : Fld.width .pwrWakeSourceSrc = 3 := rfl
@[simp] theorem Fld.width_pwrWakeSourceFrom : Fld.width .pwrWakeSourceFrom = 3 := rfl
@[simp] theorem Fld.width_pwrRefuseBlock : Fld.width .pwrRefuseBlock = 8 := rfl
@[simp] theorem Fld.width_pwrRefuseTarget : Fld.width .pwrRefuseTarget = 3 := rfl
@[simp] theorem Fld.width_pwrRefuseReason : Fld.width .pwrRefuseReason = 4 := rfl
@[simp] theorem Fld.width_pwrDrainTo : Fld.width .pwrDrainTo = 16 := rfl
@[simp] theorem Fld.width_pwrMclkMax : Fld.width .pwrMclkMax = 11 := rfl
@[simp] theorem Fld.width_pwrBrakeMclk : Fld.width .pwrBrakeMclk = 11 := rfl
@[simp] theorem Fld.width_pwrCap : Fld.width .pwrCap = 12 := rfl
@[simp] theorem Fld.width_pwrThrotNow : Fld.width .pwrThrotNow = 6 := rfl
@[simp] theorem Fld.width_pwrThrotSeen : Fld.width .pwrThrotSeen = 6 := rfl
@[simp] theorem Fld.width_pwrMclk : Fld.width .pwrMclk = 11 := rfl
@[simp] theorem Fld.width_pwrInputW : Fld.width .pwrInputW = 16 := rfl
@[simp] theorem Fld.width_pwrInputV : Fld.width .pwrInputV = 16 := rfl
@[simp] theorem Fld.width_pwrDips : Fld.width .pwrDips = 64 := rfl
@[simp] theorem Fld.width_pwrLosses : Fld.width .pwrLosses = 64 := rfl
@[simp] theorem Fld.width_pwrRefusals : Fld.width .pwrRefusals = 64 := rfl
@[simp] theorem Fld.width_pwrBlocked : Fld.width .pwrBlocked = 64 := rfl
@[simp] theorem Fld.width_pwrThrotUs : Fld.width .pwrThrotUs = 64 := rfl
@[simp] theorem Fld.width_pwrTrips : Fld.width .pwrTrips = 64 := rfl
@[simp] theorem Fld.width_pwrSeq : Fld.width .pwrSeq = 64 := rfl
@[simp] theorem Fld.width_glbIdPart : Fld.width .glbIdPart = 16 := rfl
@[simp] theorem Fld.width_glbIdRev : Fld.width .glbIdRev = 8 := rfl
@[simp] theorem Fld.width_glbReadyStatus : Fld.width .glbReadyStatus = 32 := rfl
@[simp] theorem Fld.width_glbResetCause : Fld.width .glbResetCause = 3 := rfl
@[simp] theorem Fld.width_glbResetKey : Fld.width .glbResetKey = 16 := rfl
@[simp] theorem Fld.width_glbResetModule : Fld.width .glbResetModule = 1 := rfl
@[simp] theorem Fld.width_glbTime : Fld.width .glbTime = 64 := rfl
@[simp] theorem Fld.width_secLc : Fld.width .secLc = 2 := rfl
@[simp] theorem Fld.width_secLcPending : Fld.width .secLcPending = 2 := rfl
@[simp] theorem Fld.width_secLcProvisioned : Fld.width .secLcProvisioned = 1 := rfl
@[simp] theorem Fld.width_secDbgReq : Fld.width .secDbgReq = 2 := rfl
@[simp] theorem Fld.width_secDbgApplied : Fld.width .secDbgApplied = 2 := rfl
@[simp] theorem Fld.width_secDbgGrant : Fld.width .secDbgGrant = 2 := rfl
@[simp] theorem Fld.width_secDbgJtag : Fld.width .secDbgJtag = 1 := rfl
@[simp] theorem Fld.width_secDbgTrace : Fld.width .secDbgTrace = 1 := rfl
@[simp] theorem Fld.width_secRomrev : Fld.width .secRomrev = 32 := rfl
@[simp] theorem Fld.width_secChal : Fld.width .secChal = 32 := rfl
@[simp] theorem Fld.width_secSigok : Fld.width .secSigok = 4 := rfl
@[simp] theorem Fld.width_secIdIdkey : Fld.width .secIdIdkey = 1 := rfl
@[simp] theorem Fld.width_secIdAlias : Fld.width .secIdAlias = 1 := rfl
@[simp] theorem Fld.width_secAuthfail : Fld.width .secAuthfail = 64 := rfl
@[simp] theorem Fld.width_secDbgdeny : Fld.width .secDbgdeny = 64 := rfl
@[simp] theorem Fld.width_secSigns : Fld.width .secSigns = 64 := rfl
@[simp] theorem Fld.width_secMeas : Fld.width .secMeas = 32 := rfl
@[simp] theorem Fld.width_secAper : Fld.width .secAper = 64 := rfl
@[simp] theorem Fld.width_secHaltCore : Fld.width .secHaltCore = 11 := rfl
@[simp] theorem Fld.width_secHaltThread : Fld.width .secHaltThread = 3 := rfl
@[simp] theorem Fld.width_secHalt : Fld.width .secHalt = 1 := rfl
@[simp] theorem Fld.width_secHaltResume : Fld.width .secHaltResume = 1 := rfl
@[simp] theorem Fld.width_secTraceHead : Fld.width .secTraceHead = 64 := rfl
@[simp] theorem Fld.width_bistStatusRunning : Fld.width .bistStatusRunning = 1 := rfl
@[simp] theorem Fld.width_bistStatusScope : Fld.width .bistStatusScope = 3 := rfl
@[simp] theorem Fld.width_bistStatusKind : Fld.width .bistStatusKind = 2 := rfl
@[simp] theorem Fld.width_bistStatusPass : Fld.width .bistStatusPass = 1 := rfl
@[simp] theorem Fld.width_bistStatusAbandoned : Fld.width .bistStatusAbandoned = 1 := rfl
@[simp] theorem Fld.width_bistStatusRepairs : Fld.width .bistStatusRepairs = 16 := rfl
@[simp] theorem Fld.width_bistMask : Fld.width .bistMask = 64 := rfl
@[simp] theorem Fld.width_bistFail : Fld.width .bistFail = 64 := rfl
@[simp] theorem Fld.width_bistResSfail : Fld.width .bistResSfail = 8 := rfl
@[simp] theorem Fld.width_bistResNfail : Fld.width .bistResNfail = 1 := rfl
@[simp] theorem Fld.width_bistResSdfail : Fld.width .bistResSdfail = 1 := rfl
@[simp] theorem Fld.width_bistSigLo : Fld.width .bistSigLo = 64 := rfl
@[simp] theorem Fld.width_bistSigHi : Fld.width .bistSigHi = 64 := rfl
@[simp] theorem Fld.width_bistRuns : Fld.width .bistRuns = 64 := rfl
@[simp] theorem Fld.width_bistFails : Fld.width .bistFails = 64 := rfl
@[simp] theorem Fld.width_bistRepairsAll : Fld.width .bistRepairsAll = 64 := rfl
@[simp] theorem Fld.width_bistUsigLo : Fld.width .bistUsigLo = 64 := rfl
@[simp] theorem Fld.width_bistUsigHi : Fld.width .bistUsigHi = 64 := rfl
@[simp] theorem Fld.width_bistPhysFailpos : Fld.width .bistPhysFailpos = 17 := rfl
@[simp] theorem Fld.width_bistPhysSpare : Fld.width .bistPhysSpare = 5 := rfl
@[simp] theorem Fld.width_pciLinkSpeed : Fld.width .pciLinkSpeed = 3 := rfl
@[simp] theorem Fld.width_pciLinkWidth : Fld.width .pciLinkWidth = 5 := rfl
@[simp] theorem Fld.width_pciLinkFlit : Fld.width .pciLinkFlit = 1 := rfl
@[simp] theorem Fld.width_pciLinkSris : Fld.width .pciLinkSris = 1 := rfl
@[simp] theorem Fld.width_pciLinkLstate : Fld.width .pciLinkLstate = 3 := rfl
@[simp] theorem Fld.width_pciBoardHoldupOk : Fld.width .pciBoardHoldupOk = 1 := rfl
@[simp] theorem Fld.width_pciBoardHoldupLow : Fld.width .pciBoardHoldupLow = 1 := rfl
@[simp] theorem Fld.width_pciBoardBrake : Fld.width .pciBoardBrake = 1 := rfl
@[simp] theorem Fld.width_pciBoardAlert : Fld.width .pciBoardAlert = 1 := rfl
@[simp] theorem Fld.width_pciBoardSwopen : Fld.width .pciBoardSwopen = 1 := rfl
@[simp] theorem Fld.width_pciBoardHoldupE : Fld.width .pciBoardHoldupE = 8 := rfl
@[simp] theorem Fld.width_pciCtl : Fld.width .pciCtl = 1 := rfl
@[simp] theorem Fld.width_pciBadsize : Fld.width .pciBadsize = 64 := rfl
@[simp] theorem Fld.width_pciUnmapped : Fld.width .pciUnmapped = 64 := rfl
@[simp] theorem Fld.width_pciCto : Fld.width .pciCto = 64 := rfl
@[simp] theorem Fld.width_pciUrca : Fld.width .pciUrca = 64 := rfl
@[simp] theorem Fld.width_pciPoison : Fld.width .pciPoison = 64 := rfl
@[simp] theorem Fld.width_pciWrej : Fld.width .pciWrej = 64 := rfl
@[simp] theorem Fld.width_pciPriFail : Fld.width .pciPriFail = 64 := rfl
@[simp] theorem Fld.width_pciPriLate : Fld.width .pciPriLate = 64 := rfl
@[simp] theorem Fld.width_pciCorr : Fld.width .pciCorr = 64 := rfl
@[simp] theorem Fld.width_pciPriReq : Fld.width .pciPriReq = 64 := rfl
@[simp] theorem Fld.width_pciAtsInv : Fld.width .pciAtsInv = 64 := rfl
@[simp] theorem Fld.width_pciFlr : Fld.width .pciFlr = 64 := rfl

end Sys2Proof.Machine
end

