-- ==== Sys2Proof/Laws/SMap.lean ====
section
/-! SUPPORT. The laws of the sparse map: a read after a write, and that every write keeps the canonical form. -/

namespace Sys2Proof.Machine

variable {α : Type}

theorem SMap.get_of_wfFrom_lt [DecidableEq α] {d : Nat → α} {m : SMap α} {lo q : Nat} (e : α)
    (h : SMap.wfFrom d lo m = true) (hq : q < lo) : SMap.get e m q = e := by
  cases m with
  | nil => rfl
  | cons p m =>
    simp only [SMap.wfFrom, Bool.and_eq_true, decide_eq_true_eq] at h
    simp only [SMap.get]
    rw [if_pos (by omega)]

@[simp] theorem SMap.get_nil (d : α) (q : Nat) : SMap.get d [] q = d := rfl

theorem SMap.get_put_same (d x : α) (m : SMap α) (q : Nat) : SMap.get d (SMap.put m q x) q = x := by
  induction m with
  | nil => simp [SMap.put, SMap.get]
  | cons p m ih =>
    simp only [SMap.put]
    split
    · simp [SMap.get]
    · split
      · simp [SMap.get]
      · simp [SMap.get, *]

theorem SMap.get_put_ne (d x : α) (m : SMap α) {q r : Nat} (h : r ≠ q) :
    SMap.get d (SMap.put m q x) r = SMap.get d m r := by
  induction m with
  | nil => simp [SMap.put, SMap.get, h]
  | cons p m ih =>
    obtain ⟨k, v⟩ := p
    simp only [SMap.put]
    by_cases h1 : q < k
    · rw [if_pos h1]
      simp only [SMap.get, if_neg h]
      by_cases h2 : r < q
      · rw [if_pos h2, if_pos (by omega)]
      · rw [if_neg h2]
    · rw [if_neg h1]
      by_cases h3 : q = k
      · subst h3
        rw [if_pos rfl]
        simp [SMap.get, h]
      · rw [if_neg h3]
        simp only [SMap.get, ih]

theorem SMap.get_dropWhile_le (e : α) (m : SMap α) (q r : Nat) :
    SMap.get e (m.dropWhile fun p => decide (p.1 ≤ q)) r =
      if r ≤ q then e else SMap.get e m r := by
  induction m with
  | nil => simp
  | cons p m ih =>
    obtain ⟨k, v⟩ := p
    by_cases hk : k ≤ q
    · rw [List.dropWhile_cons_of_pos (by simpa using hk), ih]
      by_cases hr : r ≤ q
      · rw [if_pos hr, if_pos hr]
      · rw [if_neg hr, if_neg hr]
        simp only [SMap.get]
        rw [if_neg (by omega), if_neg (by omega)]
    · rw [List.dropWhile_cons_of_neg (by simpa using hk)]
      by_cases hr : r ≤ q
      · rw [if_pos hr]
        simp only [SMap.get]
        rw [if_pos (by omega)]
      · rw [if_neg hr]

theorem SMap.get_erase (e : α) (m : SMap α) (q r : Nat) :
    SMap.get e (SMap.erase m q) r = if r = q then e else SMap.get e m r := by
  induction m with
  | nil => simp [SMap.erase]
  | cons p m ih =>
    obtain ⟨k, v⟩ := p
    simp only [SMap.erase]
    by_cases h1 : q < k
    · rw [if_pos h1]
      by_cases hr : r = q
      · subst hr; simp [SMap.get, h1]
      · rw [if_neg hr]
    · rw [if_neg h1]
      by_cases h3 : q = k
      · subst h3
        rw [if_pos rfl, SMap.get_dropWhile_le]
        by_cases hr : r = q
        · subst hr; simp
        · rw [if_neg hr]
          simp only [SMap.get, if_neg hr]
          by_cases h4 : r < q
          · rw [if_pos (by omega), if_pos h4]
          · rw [if_neg (by omega), if_neg h4]
      · rw [if_neg h3]
        simp only [SMap.get, ih]
        by_cases hr : r = q
        · subst hr; simp [h1, h3]
        · simp [hr]

/-- A read after a write: the written key gives the value, every other key what it gave. -/
@[simp] theorem SMap.get_set [DecidableEq α] (d x : α) (m : SMap α) (q r : Nat) :
    SMap.get d (SMap.set d m q x) r = if r = q then x else SMap.get d m r := by
  unfold SMap.set
  by_cases hx : x = d
  · subst hx
    rw [if_pos rfl, SMap.get_erase]
  · rw [if_neg hx]
    by_cases hr : r = q
    · subst hr
      rw [if_pos rfl]
      exact SMap.get_put_same d x m r
    · rw [if_neg hr]
      exact SMap.get_put_ne d x m hr

theorem SMap.wfFrom_mono [DecidableEq α] {d : Nat → α} {m : SMap α} {lo lo' : Nat}
    (h : SMap.wfFrom d lo m = true) (hl : lo' ≤ lo) : SMap.wfFrom d lo' m = true := by
  cases m with
  | nil => rfl
  | cons p m =>
    simp only [SMap.wfFrom, Bool.and_eq_true, decide_eq_true_eq] at h ⊢
    exact ⟨⟨by omega, h.1.2⟩, h.2⟩

theorem SMap.dropWhile_of_wfFrom [DecidableEq α] {d : Nat → α} {m : SMap α} {lo q : Nat}
    (h : SMap.wfFrom d lo m = true) (hq : q < lo) : (m.dropWhile fun p => decide (p.1 ≤ q)) = m := by
  cases m with
  | nil => rfl
  | cons p m =>
    simp only [SMap.wfFrom, Bool.and_eq_true, decide_eq_true_eq] at h
    rw [List.dropWhile_cons_of_neg]
    simp only [decide_eq_true_eq]
    omega

theorem SMap.wfFrom_erase [DecidableEq α] {d : Nat → α} {m : SMap α} {lo : Nat}
    (h : SMap.wfFrom d lo m = true) (q : Nat) : SMap.wfFrom d lo (SMap.erase m q) = true := by
  induction m generalizing lo with
  | nil => rfl
  | cons p m ih =>
    obtain ⟨k, v⟩ := p
    have h0 := h
    simp only [SMap.wfFrom, Bool.and_eq_true, decide_eq_true_eq] at h
    simp only [SMap.erase]
    split
    · exact h0
    · split
      · rw [SMap.dropWhile_of_wfFrom h.2 (by omega)]
        exact SMap.wfFrom_mono h.2 (by omega)
      · simp only [SMap.wfFrom, Bool.and_eq_true, decide_eq_true_eq]
        exact ⟨h.1, ih h.2⟩

theorem SMap.wfFrom_put [DecidableEq α] {d : Nat → α} {m : SMap α} {lo q : Nat} {x : α}
    (h : SMap.wfFrom d lo m = true) (hq : lo ≤ q) (hx : x ≠ d q) : SMap.wfFrom d lo (SMap.put m q x) = true := by
  induction m generalizing lo with
  | nil => simp [SMap.put, SMap.wfFrom, hq, hx]
  | cons p m ih =>
    obtain ⟨k, v⟩ := p
    simp only [SMap.wfFrom, Bool.and_eq_true, decide_eq_true_eq] at h
    simp only [SMap.put]
    split
    · simp only [SMap.wfFrom, Bool.and_eq_true, decide_eq_true_eq]
      exact ⟨⟨hq, hx⟩, ⟨by omega, h.1.2⟩, h.2⟩
    · split
      · rename_i h1 h2
        subst h2
        simp only [SMap.wfFrom, Bool.and_eq_true, decide_eq_true_eq]
        exact ⟨⟨hq, hx⟩, h.2⟩
      · simp only [SMap.wfFrom, Bool.and_eq_true, decide_eq_true_eq]
        exact ⟨h.1, ih h.2 (by omega)⟩

/-- A write keeps the canonical form. -/
theorem SMap.wf_set [DecidableEq α] {d : Nat → α} {m : SMap α} (h : SMap.wf d m = true) (q : Nat) (x : α) :
    SMap.wf d (SMap.set (d q) m q x) = true := by
  unfold SMap.set
  split
  · exact SMap.wfFrom_erase h q
  · exact SMap.wfFrom_put h (Nat.zero_le q) (by assumption)

/-- Canonical maps with equal reads are equal lists. -/
theorem SMap.ext_of_wf [DecidableEq α] {d : Nat → α} {m n : SMap α} {lo : Nat}
    (hm : SMap.wfFrom d lo m = true) (hn : SMap.wfFrom d lo n = true)
    (h : ∀ q, SMap.get (d q) m q = SMap.get (d q) n q) : m = n := by
  induction m generalizing n lo with
  | nil =>
    cases n with
    | nil => rfl
    | cons p n =>
      obtain ⟨k, v⟩ := p
      simp only [SMap.wfFrom, Bool.and_eq_true, decide_eq_true_eq] at hn
      have := h k
      simp [SMap.get] at this
      exact absurd this.symm hn.1.2
  | cons p m ih =>
    obtain ⟨k, v⟩ := p
    cases n with
    | nil =>
      simp only [SMap.wfFrom, Bool.and_eq_true, decide_eq_true_eq] at hm
      have := h k
      simp [SMap.get] at this
      exact absurd this hm.1.2
    | cons p' n =>
      obtain ⟨k', v'⟩ := p'
      have hm' := hm
      have hn' := hn
      simp only [SMap.wfFrom, Bool.and_eq_true, decide_eq_true_eq] at hm' hn'
      have hk : k = k' := by
        rcases Nat.lt_trichotomy k k' with hlt | heq | hgt
        · have := h k
          simp [SMap.get, hlt] at this
          exact absurd this hm'.1.2
        · exact heq
        · have := h k'
          simp [SMap.get, hgt] at this
          exact absurd this.symm hn'.1.2
      subst hk
      have hv : v = v' := by have := h k; simpa [SMap.get] using this
      subst hv
      congr 1
      refine ih hm'.2 hn'.2 ?_
      intro q
      by_cases hq : q ≤ k
      · rw [SMap.get_of_wfFrom_lt _ hm'.2 (by omega), SMap.get_of_wfFrom_lt _ hn'.2 (by omega)]
      · have := h q
        simpa [SMap.get, show ¬ q < k by omega, show ¬ q = k by omega] using this

end Sys2Proof.Machine
end

