-- ==== Sys2Proof/Laws/State.lean ====
section
/-! SUPPORT. Small laws of the state: register fields after a write, and what the named updates leave alone. -/

namespace Sys2Proof.Machine

/-! ## Keys of the register file -/

theorem Fld.ctorIdx_inj {f g : Fld} (h : f.ctorIdx = g.ctorIdx) : f = g := by
  rw [← Fld.ofNat_ctorIdx f, ← Fld.ofNat_ctorIdx g, h]

theorem Fld.key_div (f : Fld) (i : Nat) : f.key i / 2 ^ 20 = f.ctorIdx := by
  have h : i % 2 ^ 20 < 2 ^ 20 := Nat.mod_lt _ (by decide)
  unfold Fld.key
  omega

theorem Fld.key_mod (f : Fld) (i : Nat) : f.key i % 2 ^ 20 = i % 2 ^ 20 := by
  unfold Fld.key
  omega

theorem Fld.key_ne_of_fld {f g : Fld} (h : f ≠ g) (i j : Nat) : f.key i ≠ g.key j := by
  intro hk
  apply h
  apply Fld.ctorIdx_inj
  rw [← Fld.key_div f i, hk, Fld.key_div]

theorem Fld.key_ne_of_idx (f : Fld) {i j : Nat} (hi : i < 2 ^ 20) (hj : j < 2 ^ 20) (h : i ≠ j) : f.key i ≠ f.key j := by
  intro hk
  have h1 := Fld.key_mod f i
  rw [hk, Fld.key_mod] at h1
  rw [Nat.mod_eq_of_lt hi, Nat.mod_eq_of_lt hj] at h1
  exact h h1.symm

theorem regDefault_key (f : Fld) (i : Nat) : regDefault (f.key i) = f.reset (i % 2 ^ 20) := by
  unfold regDefault
  rw [Fld.key_div, Fld.key_mod, Fld.ofNat_ctorIdx]

/-! ## Sparse maps: a read of another key -/

theorem SMap.get_erase_ne {α : Type} (d : α) (m : SMap α) {q r : Nat} (h : r ≠ q) :
    SMap.get d (SMap.erase m q) r = SMap.get d m r := by rw [SMap.get_erase, if_neg h]

theorem SMap.get_set_ne {α : Type} [DecidableEq α] (e d x : α) (m : SMap α) {q r : Nat} (h : r ≠ q) :
    SMap.get e (SMap.set d m q x) r = SMap.get e m r := by
  unfold SMap.set
  split
  · exact SMap.get_erase_ne e m h
  · exact SMap.get_put_ne e x m h

/-! ## Register fields -/

@[simp] theorem State.fget_fset_same (s : State) (f : Fld) (i v : Nat) : (s.fset f i v).fget f i = v % 2 ^ f.width := by
  simp [State.fget, State.fset]

theorem State.fget_fset_key (s : State) {f g : Fld} {i j : Nat} (v : Nat) (h : g.key j ≠ f.key i) :
    (s.fset f i v).fget g j = s.fget g j := by
  simp [State.fget, State.fset, SMap.get_set_ne _ _ _ _ h]

@[simp] theorem State.fget_fset_fld (s : State) {f g : Fld} (i j v : Nat) (h : g ≠ f) : (s.fset f i v).fget g j = s.fget g j :=
  s.fget_fset_key v (Fld.key_ne_of_fld h j i)

theorem State.fget_fset_idx (s : State) (f : Fld) {i j : Nat} (v : Nat) (hi : i < 2 ^ 20) (hj : j < 2 ^ 20) (h : j ≠ i) :
    (s.fset f i v).fget f j = s.fget f j := s.fget_fset_key v (Fld.key_ne_of_idx f hj hi h)

@[simp] theorem State.fget_fclear_same (s : State) (f : Fld) (i : Nat) : (s.fclear f i).fget f i = f.reset (i % 2 ^ 20) := by
  simp [State.fget, State.fclear, SMap.get_erase]

@[simp] theorem State.fget_fclear_fld (s : State) {f g : Fld} (i j : Nat) (h : g ≠ f) : (s.fclear f i).fget g j = s.fget g j := by
  simp [State.fget, State.fclear, SMap.get_erase_ne _ _ (Fld.key_ne_of_fld h j i)]

@[simp] theorem State.fget_fadd_same (s : State) (f : Fld) (i n : Nat) : (s.fadd f i n).fget f i = (s.fget f i + n) % 2 ^ f.width := by
  simp [State.fadd]

@[simp] theorem State.fget_fadd_fld (s : State) {f g : Fld} (i j n : Nat) (h : g ≠ f) : (s.fadd f i n).fget g j = s.fget g j := by
  simp [State.fadd, h]

theorem State.fget_reset (f : Fld) (i : Nat) : State.reset.fget f i = f.reset (i % 2 ^ 20) := rfl

/-! ## A register field of a state that is written out -/

/-- A field in a register file. -/
def rget (m : SMap Nat) (f : Fld) (i : Nat) : Nat := SMap.get (f.reset (i % 2 ^ 20)) m (f.key i)

@[simp] theorem rget_regs (s : State) (f : Fld) (i : Nat) : rget s.regs f i = s.fget f i := rfl

@[simp] theorem State.fget_mk {a0 a1 a2 a3 a4 a5 a6 a7 a8 a9 a10 a11 a12 a13 a14 a15 a16 a17 a18 a19 a20 a21 a22 a23 a24 a25 a26 a27 a28
      a29 a30 a31 a32 a33 a34 a35 a36 a37 a38 a39 a40 a41 a42 a43 a44 a45 a46 a47 a48 a49 a50 a51 a52 a53 a54 a55 a56 a57 a58 a59 a60 a61
      a62 a63 a64 a65 a66 a67 a68 a69 a70 a71 a72 a73 a74 a75 a76 a77 a78 a79 a80 a81 a82 a83 a84 a85 a86 a87 a88 a89 a90 a91 a92 a93 a94
      a95 a96 a97 a98 a99 a100 a101 a102 a103 a104 a105 a106 a107 a108 a109 a110 a111 a112 a113 a114 a115 a116 a117 a118 a119 a120 a121
      a122 a123 a124 : _} (f : Fld) (i : Nat) :
    (State.mk a0 a1 a2 a3 a4 a5 a6 a7 a8 a9 a10 a11 a12 a13 a14 a15 a16 a17 a18 a19 a20 a21 a22 a23 a24 a25 a26 a27 a28 a29 a30 a31 a32
      a33 a34 a35 a36 a37 a38 a39 a40 a41 a42 a43 a44 a45 a46 a47 a48 a49 a50 a51 a52 a53 a54 a55 a56 a57 a58 a59 a60 a61 a62 a63 a64 a65
      a66 a67 a68 a69 a70 a71 a72 a73 a74 a75 a76 a77 a78 a79 a80 a81 a82 a83 a84 a85 a86 a87 a88 a89 a90 a91 a92 a93 a94 a95 a96 a97 a98
      a99 a100 a101 a102 a103 a104 a105 a106 a107 a108 a109 a110 a111 a112 a113 a114 a115 a116 a117 a118 a119 a120 a121 a122 a123 a124).fget f i = rget a1 f i := rfl

end Sys2Proof.Machine
end

