-- ==== Sys2Proof/Laws/Canon.lean ====
section
/-! SUPPORT. Operations over the register file and over memory keep the canonical form, and values stay inside their fields. -/

namespace Sys2Proof.Machine

/-! ## Members of a map after an update -/

theorem SMap.mem_erase {α : Type} {m : SMap α} {q : Nat} {e : Nat × α} (h : e ∈ SMap.erase m q) : e ∈ m := by
  induction m with
  | nil => exact h
  | cons p m ih =>
    obtain ⟨k, v⟩ := p
    simp only [SMap.erase] at h
    split at h
    · exact h
    · split at h
      · exact List.mem_cons_of_mem _ ((List.dropWhile_sublist _).subset h)
      · rcases List.mem_cons.mp h with h | h
        · exact h ▸ List.mem_cons_self
        · exact List.mem_cons_of_mem _ (ih h)

theorem SMap.mem_put {α : Type} {m : SMap α} {q : Nat} {x : α} {e : Nat × α} (h : e ∈ SMap.put m q x) : e = (q, x) ∨ e ∈ m := by
  induction m with
  | nil => exact .inl (List.mem_singleton.mp h)
  | cons p m ih =>
    obtain ⟨k, v⟩ := p
    simp only [SMap.put] at h
    split at h
    · exact List.mem_cons.mp h
    · split at h
      · rcases List.mem_cons.mp h with h | h
        · exact .inl h
        · exact .inr (List.mem_cons_of_mem _ h)
      · rcases List.mem_cons.mp h with h | h
        · exact .inr (h ▸ List.mem_cons_self)
        · exact (ih h).imp_right (List.mem_cons_of_mem _)

theorem SMap.mem_set {α : Type} [DecidableEq α] {d : α} {m : SMap α} {q : Nat} {x : α} {e : Nat × α} (h : e ∈ SMap.set d m q x) :
    e = (q, x) ∨ e ∈ m := by
  unfold SMap.set at h
  split at h
  · exact .inr (SMap.mem_erase h)
  · exact SMap.mem_put h

/-! ## The register file -/

theorem State.regsFit_iff {s : State} :
    s.regsFit = true ↔ SMap.wf regDefault s.regs = true ∧ ∀ e ∈ s.regs, e.2 < 2 ^ (Fld.ofNat (e.1 / 2 ^ 20)).width := by
  simp [State.regsFit, State.regsWf]

theorem State.regsFit_of_regs {s t : State} (h : s.regsFit = true) (e : t.regs = s.regs) : t.regsFit = true := by
  simp only [State.regsFit, State.regsWf, e] at h ⊢
  exact h

/-- A field write keeps the register file canonical, whatever the instance and the value. -/
theorem State.regsFit_fset {s : State} (h : s.regsFit = true) (f : Fld) (i v : Nat) : (s.fset f i v).regsFit = true := by
  rw [State.regsFit_iff] at h ⊢
  refine ⟨?_, fun e he => ?_⟩
  · have := SMap.wf_set h.1 (f.key i) (v % 2 ^ f.width)
    rwa [regDefault_key] at this
  · rcases SMap.mem_set he with he | he
    · subst he
      simp only [Fld.key_div, Fld.ofNat_ctorIdx]
      exact Nat.mod_lt _ (Nat.pow_pos (by decide))
    · exact h.2 e he

theorem State.regsFit_fadd {s : State} (h : s.regsFit = true) (f : Fld) (i n : Nat) : (s.fadd f i n).regsFit = true :=
  State.regsFit_fset h f i _

theorem State.regsFit_fclear {s : State} (h : s.regsFit = true) (f : Fld) (i : Nat) : (s.fclear f i).regsFit = true := by
  rw [State.regsFit_iff] at h ⊢
  exact ⟨SMap.wfFrom_erase h.1 _, fun e he => h.2 e (SMap.mem_erase he)⟩

/-! ## Memory -/

theorem cellsSet_wf {m : List Host.Cell} (h : SMap.wf (fun _ => (0 : Byte)) m = true) (a : Nat) (bs : List Byte) :
    SMap.wf (fun _ => (0 : Byte)) (cellsSet m a bs) = true := by
  induction bs generalizing m a with
  | nil => exact h
  | cons b bs ih => exact ih (SMap.wf_set (d := fun _ => (0 : Byte)) h a b) _

theorem cellsSet_get_lt (m : List Host.Cell) {a q : Nat} (bs : List Byte) (h : q < a) :
    SMap.get 0 (cellsSet m a bs) q = SMap.get 0 m q := by
  induction bs generalizing m a with
  | nil => rfl
  | cons b bs ih =>
    rw [cellsSet, ih _ (by omega), SMap.get_set, if_neg (by omega)]

theorem cellsSet_get_ge (m : List Host.Cell) {a q : Nat} (bs : List Byte) (h : a + bs.length ≤ q) :
    SMap.get 0 (cellsSet m a bs) q = SMap.get 0 m q := by
  induction bs generalizing m a with
  | nil => rfl
  | cons b bs ih =>
    rw [List.length_cons] at h
    rw [cellsSet, ih _ (by omega), SMap.get_set, if_neg (by omega)]

/-- A store keeps the canonical form. -/
theorem State.memWf_st {s : State} (h : s.memWf = true) (a : Nat) (bs : List Byte) : (s.st a bs).memWf = true := by
  simp only [State.memWf, Bool.and_eq_true] at h ⊢
  exact ⟨cellsSet_wf h.1 a bs, h.2⟩

/-- Clearing a range keeps the canonical form. -/
theorem SMap.wfFrom_filter {α : Type} [DecidableEq α] {d : Nat → α} {m : SMap α} {lo : Nat} (p : Nat × α → Bool)
    (h : SMap.wfFrom d lo m = true) : SMap.wfFrom d lo (m.filter p) = true := by
  induction m generalizing lo with
  | nil => rfl
  | cons e m ih =>
    obtain ⟨k, v⟩ := e
    simp only [SMap.wfFrom, Bool.and_eq_true, decide_eq_true_eq] at h
    rw [List.filter_cons]
    split
    · simp only [SMap.wfFrom, Bool.and_eq_true, decide_eq_true_eq]
      exact ⟨h.1, ih h.2⟩
    · exact SMap.wfFrom_mono (ih h.2) (by omega)

theorem cellsZero_wf {m : List Host.Cell} (h : SMap.wf (fun _ => (0 : Byte)) m = true) (a n : Nat) :
    SMap.wf (fun _ => (0 : Byte)) (cellsZero m a n) = true := SMap.wfFrom_filter _ h

theorem SMap.wfFrom_append {α : Type} [DecidableEq α] {d : Nat → α} {m n : SMap α} {lo b : Nat} (h : SMap.wfFrom d lo m = true)
    (hb : ∀ e ∈ m, e.1 < b) (hn : SMap.wfFrom d b n = true) (hl : lo ≤ b) : SMap.wfFrom d lo (m ++ n) = true := by
  induction m generalizing lo with
  | nil => exact SMap.wfFrom_mono hn hl
  | cons e m ih =>
    obtain ⟨k, v⟩ := e
    simp only [SMap.wfFrom, Bool.and_eq_true, decide_eq_true_eq, List.cons_append] at h ⊢
    have hk : k < b := hb (k, v) List.mem_cons_self
    exact ⟨h.1, ih h.2 (fun e he => hb e (List.mem_cons_of_mem _ he)) hk⟩

theorem cellsSlice_wf {m : List Host.Cell} {lo : Nat} (h : SMap.wfFrom (fun _ => (0 : Byte)) lo m = true) (a n b : Nat) :
    SMap.wfFrom (fun _ => (0 : Byte)) (lo - a + b) (cellsSlice m a n b) = true := by
  induction m generalizing lo with
  | nil => rfl
  | cons e m ih =>
    obtain ⟨k, v⟩ := e
    simp only [SMap.wfFrom, Bool.and_eq_true, decide_eq_true_eq] at h
    have := ih h.2
    by_cases hk : a ≤ k ∧ k < a + n
    · simp only [cellsSlice, List.filter_cons, hk, decide_true, Bool.and_self, if_true, List.map_cons]
      simp only [SMap.wfFrom, Bool.and_eq_true, decide_eq_true_eq]
      refine ⟨⟨by omega, h.1.2⟩, ?_⟩
      have e : k + 1 - a + b = k - a + b + 1 := by omega
      rw [← e]
      exact this
    · have hf : (decide (a ≤ k) && decide (k < a + n)) = false := by
        simp only [Bool.and_eq_false_iff, decide_eq_false_iff_not]
        omega
      simp only [cellsSlice, List.filter_cons, hf, Bool.false_eq_true, if_false]
      exact SMap.wfFrom_mono this (by omega)

theorem cellsSlice_lt {m : List Host.Cell} {a n b : Nat} {e : Host.Cell} (h : e ∈ cellsSlice m a n b) : e.1 < b + n := by
  simp only [cellsSlice, List.mem_map, List.mem_filter, Bool.and_eq_true, decide_eq_true_eq] at h
  obtain ⟨c, ⟨_, h1, h2⟩, rfl⟩ := h
  simp only
  omega

/-- Copying a range keeps the canonical form. -/
theorem cellsCopy_wf {src dst : List Host.Cell} (hs : SMap.wf (fun _ => (0 : Byte)) src = true)
    (hd : SMap.wf (fun _ => (0 : Byte)) dst = true) (a n b : Nat) : SMap.wf (fun _ => (0 : Byte)) (cellsCopy src dst a n b) = true := by
  have h1 : SMap.wfFrom (fun _ => (0 : Byte)) b (cellsSlice src a n b) = true := by
    have := cellsSlice_wf hs a n b
    rwa [Nat.zero_sub, Nat.zero_add] at this
  have h3 : SMap.wfFrom (fun _ => (0 : Byte)) (b + n) (dst.filter fun c => decide (b + n ≤ c.1)) = true := by
    unfold SMap.wf at hd
    generalize 0 = lo at hd
    induction dst generalizing lo with
    | nil => rfl
    | cons e m ih =>
      obtain ⟨k, v⟩ := e
      simp only [SMap.wfFrom, Bool.and_eq_true, decide_eq_true_eq] at hd
      rw [List.filter_cons]
      split
      · rename_i hk
        simp only [decide_eq_true_eq] at hk
        simp only [SMap.wfFrom, Bool.and_eq_true, decide_eq_true_eq]
        exact ⟨⟨hk, hd.1.2⟩, SMap.wfFrom_filter _ hd.2⟩
      · exact ih _ hd.2
  have h2 := SMap.wfFrom_append h1 (fun e he => cellsSlice_lt he) h3 (Nat.le_add_right b n)
  unfold cellsCopy SMap.wf
  rw [List.append_assoc]
  refine SMap.wfFrom_append (SMap.wfFrom_filter _ hd) (fun e he => ?_) h2 (Nat.zero_le b)
  have := (List.mem_filter.mp he).2
  simpa using this

/-- Whatever the cells, their canonical form is canonical. -/
theorem cellsCanon_wf (m : List Host.Cell) : SMap.wf (fun _ => (0 : Byte)) (cellsCanon m) = true := by
  suffices ∀ a : List Host.Cell, SMap.wf (fun _ => (0 : Byte)) a = true →
      SMap.wf (fun _ => (0 : Byte)) (m.foldl (fun a c => SMap.set 0 a c.1 c.2) a) = true from this [] rfl
  induction m with
  | nil => exact fun a h => h
  | cons c m ih => exact fun a h => ih _ (SMap.wf_set (d := fun _ => (0 : Byte)) h c.1 c.2)

end Sys2Proof.Machine
end

