-- ==== Sys2Proof/Laws/Records.lean ====
section
/-! SUPPORT. What the updates of one record of a table leave alone, and what the record reads after one. -/

namespace Sys2Proof.Machine

/-! ## setJob -/

@[simp] theorem State.setJob_pending (s : State) (k : Nat) (g : Job → Job) : (s.setJob k g).pending = s.pending := rfl
@[simp] theorem State.setJob_regs (s : State) (k : Nat) (g : Job → Job) : (s.setJob k g).regs = s.regs := rfl
@[simp] theorem State.setJob_mem (s : State) (k : Nat) (g : Job → Job) : (s.setJob k g).mem = s.mem := rfl
@[simp] theorem State.setJob_flash (s : State) (k : Nat) (g : Job → Job) : (s.setJob k g).flash = s.flash := rfl
@[simp] theorem State.setJob_slots (s : State) (k : Nat) (g : Job → Job) : (s.setJob k g).slots = s.slots := rfl
@[simp] theorem State.setJob_out (s : State) (k : Nat) (g : Job → Job) : (s.setJob k g).out = s.out := rfl
@[simp] theorem State.setJob_fresh (s : State) (k : Nat) (g : Job → Job) : (s.setJob k g).fresh = s.fresh := rfl
@[simp] theorem State.setJob_stamp (s : State) (k : Nat) (g : Job → Job) : (s.setJob k g).stamp = s.stamp := rfl
@[simp] theorem State.setJob_parts (s : State) (k : Nat) (g : Job → Job) : (s.setJob k g).parts = s.parts := rfl
@[simp] theorem State.setJob_rings (s : State) (k : Nat) (g : Job → Job) : (s.setJob k g).rings = s.rings := rfl
@[simp] theorem State.setJob_graphs (s : State) (k : Nat) (g : Job → Job) : (s.setJob k g).graphs = s.graphs := rfl
@[simp] theorem State.setJob_mbxs (s : State) (k : Nat) (g : Job → Job) : (s.setJob k g).mbxs = s.mbxs := rfl
@[simp] theorem State.setJob_objs (s : State) (k : Nat) (g : Job → Job) : (s.setJob k g).objs = s.objs := rfl
@[simp] theorem State.setJob_placements (s : State) (k : Nat) (g : Job → Job) : (s.setJob k g).placements = s.placements := rfl
@[simp] theorem State.setJob_changeLog (s : State) (k : Nat) (g : Job → Job) : (s.setJob k g).changeLog = s.changeLog := rfl
@[simp] theorem State.setJob_faultLog (s : State) (k : Nat) (g : Job → Job) : (s.setJob k g).faultLog = s.faultLog := rfl
@[simp] theorem State.setJob_mtasks (s : State) (k : Nat) (g : Job → Job) : (s.setJob k g).mtasks = s.mtasks := rfl
@[simp] theorem State.setJob_ctasks (s : State) (k : Nat) (g : Job → Job) : (s.setJob k g).ctasks = s.ctasks := rfl
@[simp] theorem State.setJob_mcores (s : State) (k : Nat) (g : Job → Job) : (s.setJob k g).mcores = s.mcores := rfl
@[simp] theorem State.setJob_threads (s : State) (k : Nat) (g : Job → Job) : (s.setJob k g).threads = s.threads := rfl
@[simp] theorem State.setJob_ctxs (s : State) (k : Nat) (g : Job → Job) : (s.setJob k g).ctxs = s.ctxs := rfl
@[simp] theorem State.setJob_images (s : State) (k : Nat) (g : Job → Job) : (s.setJob k g).images = s.images := rfl
@[simp] theorem State.setJob_vsess (s : State) (k : Nat) (g : Job → Job) : (s.setJob k g).vsess = s.vsess := rfl
@[simp] theorem State.setJob_mirrors (s : State) (k : Nat) (g : Job → Job) : (s.setJob k g).mirrors = s.mirrors := rfl
@[simp] theorem State.setJob_ports (s : State) (k : Nat) (g : Job → Job) : (s.setJob k g).ports = s.ports := rfl
@[simp] theorem State.setJob_fabReqs (s : State) (k : Nat) (g : Job → Job) : (s.setJob k g).fabReqs = s.fabReqs := rfl
@[simp] theorem State.setJob_rxSrcs (s : State) (k : Nat) (g : Job → Job) : (s.setJob k g).rxSrcs = s.rxSrcs := rfl
@[simp] theorem State.setJob_pwrSeq (s : State) (k : Nat) (g : Job → Job) : (s.setJob k g).pwrSeq = s.pwrSeq := rfl
@[simp] theorem State.setJob_pwr (s : State) (k : Nat) (g : Job → Job) : (s.setJob k g).pwr = s.pwr := rfl
@[simp] theorem State.setJob_bist (s : State) (k : Nat) (g : Job → Job) : (s.setJob k g).bist = s.bist := rfl
@[simp] theorem State.setJob_waits (s : State) (k : Nat) (g : Job → Job) : (s.setJob k g).waits = s.waits := rfl
@[simp] theorem State.setJob_started (s : State) (k : Nat) (g : Job → Job) : (s.setJob k g).started = s.started := rfl
@[simp] theorem State.setJob_fget (s : State) (k : Nat) (g : Job → Job) (f : Fld) (j : Nat) : (s.setJob k g).fget f j = s.fget f j := rfl
@[simp] theorem State.job_fset (s : State) (f : Fld) (j v k : Nat) : (s.fset f j v).job k = s.job k := rfl

@[simp] theorem State.job_setJob_same (s : State) (k : Nat) (g : Job → Job) : (s.setJob k g).job k = g (s.job k) := by
  simp [State.job, State.setJob]

theorem State.job_setJob_ne (s : State) {q k : Nat} (g : Job → Job) (h : q ≠ k) : (s.setJob k g).job q = s.job q := by
  simp [State.job, State.setJob, h]

/-! ## setCtx -/

@[simp] theorem State.setCtx_pending (s : State) (x : Nat) (g : Ctx → Ctx) : (s.setCtx x g).pending = s.pending := rfl
@[simp] theorem State.setCtx_regs (s : State) (x : Nat) (g : Ctx → Ctx) : (s.setCtx x g).regs = s.regs := rfl
@[simp] theorem State.setCtx_mem (s : State) (x : Nat) (g : Ctx → Ctx) : (s.setCtx x g).mem = s.mem := rfl
@[simp] theorem State.setCtx_flash (s : State) (x : Nat) (g : Ctx → Ctx) : (s.setCtx x g).flash = s.flash := rfl
@[simp] theorem State.setCtx_slots (s : State) (x : Nat) (g : Ctx → Ctx) : (s.setCtx x g).slots = s.slots := rfl
@[simp] theorem State.setCtx_out (s : State) (x : Nat) (g : Ctx → Ctx) : (s.setCtx x g).out = s.out := rfl
@[simp] theorem State.setCtx_fresh (s : State) (x : Nat) (g : Ctx → Ctx) : (s.setCtx x g).fresh = s.fresh := rfl
@[simp] theorem State.setCtx_stamp (s : State) (x : Nat) (g : Ctx → Ctx) : (s.setCtx x g).stamp = s.stamp := rfl
@[simp] theorem State.setCtx_parts (s : State) (x : Nat) (g : Ctx → Ctx) : (s.setCtx x g).parts = s.parts := rfl
@[simp] theorem State.setCtx_jobs (s : State) (x : Nat) (g : Ctx → Ctx) : (s.setCtx x g).jobs = s.jobs := rfl
@[simp] theorem State.setCtx_rings (s : State) (x : Nat) (g : Ctx → Ctx) : (s.setCtx x g).rings = s.rings := rfl
@[simp] theorem State.setCtx_graphs (s : State) (x : Nat) (g : Ctx → Ctx) : (s.setCtx x g).graphs = s.graphs := rfl
@[simp] theorem State.setCtx_mbxs (s : State) (x : Nat) (g : Ctx → Ctx) : (s.setCtx x g).mbxs = s.mbxs := rfl
@[simp] theorem State.setCtx_objs (s : State) (x : Nat) (g : Ctx → Ctx) : (s.setCtx x g).objs = s.objs := rfl
@[simp] theorem State.setCtx_placements (s : State) (x : Nat) (g : Ctx → Ctx) : (s.setCtx x g).placements = s.placements := rfl
@[simp] theorem State.setCtx_changeLog (s : State) (x : Nat) (g : Ctx → Ctx) : (s.setCtx x g).changeLog = s.changeLog := rfl
@[simp] theorem State.setCtx_faultLog (s : State) (x : Nat) (g : Ctx → Ctx) : (s.setCtx x g).faultLog = s.faultLog := rfl
@[simp] theorem State.setCtx_mtasks (s : State) (x : Nat) (g : Ctx → Ctx) : (s.setCtx x g).mtasks = s.mtasks := rfl
@[simp] theorem State.setCtx_ctasks (s : State) (x : Nat) (g : Ctx → Ctx) : (s.setCtx x g).ctasks = s.ctasks := rfl
@[simp] theorem State.setCtx_mcores (s : State) (x : Nat) (g : Ctx → Ctx) : (s.setCtx x g).mcores = s.mcores := rfl
@[simp] theorem State.setCtx_threads (s : State) (x : Nat) (g : Ctx → Ctx) : (s.setCtx x g).threads = s.threads := rfl
@[simp] theorem State.setCtx_images (s : State) (x : Nat) (g : Ctx → Ctx) : (s.setCtx x g).images = s.images := rfl
@[simp] theorem State.setCtx_vsess (s : State) (x : Nat) (g : Ctx → Ctx) : (s.setCtx x g).vsess = s.vsess := rfl
@[simp] theorem State.setCtx_mirrors (s : State) (x : Nat) (g : Ctx → Ctx) : (s.setCtx x g).mirrors = s.mirrors := rfl
@[simp] theorem State.setCtx_ports (s : State) (x : Nat) (g : Ctx → Ctx) : (s.setCtx x g).ports = s.ports := rfl
@[simp] theorem State.setCtx_fabReqs (s : State) (x : Nat) (g : Ctx → Ctx) : (s.setCtx x g).fabReqs = s.fabReqs := rfl
@[simp] theorem State.setCtx_rxSrcs (s : State) (x : Nat) (g : Ctx → Ctx) : (s.setCtx x g).rxSrcs = s.rxSrcs := rfl
@[simp] theorem State.setCtx_pwrSeq (s : State) (x : Nat) (g : Ctx → Ctx) : (s.setCtx x g).pwrSeq = s.pwrSeq := rfl
@[simp] theorem State.setCtx_pwr (s : State) (x : Nat) (g : Ctx → Ctx) : (s.setCtx x g).pwr = s.pwr := rfl
@[simp] theorem State.setCtx_bist (s : State) (x : Nat) (g : Ctx → Ctx) : (s.setCtx x g).bist = s.bist := rfl
@[simp] theorem State.setCtx_waits (s : State) (x : Nat) (g : Ctx → Ctx) : (s.setCtx x g).waits = s.waits := rfl
@[simp] theorem State.setCtx_started (s : State) (x : Nat) (g : Ctx → Ctx) : (s.setCtx x g).started = s.started := rfl
@[simp] theorem State.setCtx_fget (s : State) (x : Nat) (g : Ctx → Ctx) (f : Fld) (j : Nat) : (s.setCtx x g).fget f j = s.fget f j := rfl
@[simp] theorem State.ctx_fset (s : State) (f : Fld) (j v x : Nat) : (s.fset f j v).ctx x = s.ctx x := rfl

@[simp] theorem State.ctx_setCtx_same (s : State) (x : Nat) (g : Ctx → Ctx) : (s.setCtx x g).ctx x = g (s.ctx x) := by
  simp [State.ctx, State.setCtx]

theorem State.ctx_setCtx_ne (s : State) {q x : Nat} (g : Ctx → Ctx) (h : q ≠ x) : (s.setCtx x g).ctx q = s.ctx q := by
  simp [State.ctx, State.setCtx, h]

/-! ## setObj -/

@[simp] theorem State.setObj_pending (s : State) (i : Nat) (g : Obj → Obj) : (s.setObj i g).pending = s.pending := rfl
@[simp] theorem State.setObj_regs (s : State) (i : Nat) (g : Obj → Obj) : (s.setObj i g).regs = s.regs := rfl
@[simp] theorem State.setObj_mem (s : State) (i : Nat) (g : Obj → Obj) : (s.setObj i g).mem = s.mem := rfl
@[simp] theorem State.setObj_flash (s : State) (i : Nat) (g : Obj → Obj) : (s.setObj i g).flash = s.flash := rfl
@[simp] theorem State.setObj_slots (s : State) (i : Nat) (g : Obj → Obj) : (s.setObj i g).slots = s.slots := rfl
@[simp] theorem State.setObj_out (s : State) (i : Nat) (g : Obj → Obj) : (s.setObj i g).out = s.out := rfl
@[simp] theorem State.setObj_fresh (s : State) (i : Nat) (g : Obj → Obj) : (s.setObj i g).fresh = s.fresh := rfl
@[simp] theorem State.setObj_stamp (s : State) (i : Nat) (g : Obj → Obj) : (s.setObj i g).stamp = s.stamp := rfl
@[simp] theorem State.setObj_parts (s : State) (i : Nat) (g : Obj → Obj) : (s.setObj i g).parts = s.parts := rfl
@[simp] theorem State.setObj_jobs (s : State) (i : Nat) (g : Obj → Obj) : (s.setObj i g).jobs = s.jobs := rfl
@[simp] theorem State.setObj_rings (s : State) (i : Nat) (g : Obj → Obj) : (s.setObj i g).rings = s.rings := rfl
@[simp] theorem State.setObj_graphs (s : State) (i : Nat) (g : Obj → Obj) : (s.setObj i g).graphs = s.graphs := rfl
@[simp] theorem State.setObj_mbxs (s : State) (i : Nat) (g : Obj → Obj) : (s.setObj i g).mbxs = s.mbxs := rfl
@[simp] theorem State.setObj_placements (s : State) (i : Nat) (g : Obj → Obj) : (s.setObj i g).placements = s.placements := rfl
@[simp] theorem State.setObj_changeLog (s : State) (i : Nat) (g : Obj → Obj) : (s.setObj i g).changeLog = s.changeLog := rfl
@[simp] theorem State.setObj_faultLog (s : State) (i : Nat) (g : Obj → Obj) : (s.setObj i g).faultLog = s.faultLog := rfl
@[simp] theorem State.setObj_mtasks (s : State) (i : Nat) (g : Obj → Obj) : (s.setObj i g).mtasks = s.mtasks := rfl
@[simp] theorem State.setObj_ctasks (s : State) (i : Nat) (g : Obj → Obj) : (s.setObj i g).ctasks = s.ctasks := rfl
@[simp] theorem State.setObj_mcores (s : State) (i : Nat) (g : Obj → Obj) : (s.setObj i g).mcores = s.mcores := rfl
@[simp] theorem State.setObj_threads (s : State) (i : Nat) (g : Obj → Obj) : (s.setObj i g).threads = s.threads := rfl
@[simp] theorem State.setObj_ctxs (s : State) (i : Nat) (g : Obj → Obj) : (s.setObj i g).ctxs = s.ctxs := rfl
@[simp] theorem State.setObj_images (s : State) (i : Nat) (g : Obj → Obj) : (s.setObj i g).images = s.images := rfl
@[simp] theorem State.setObj_vsess (s : State) (i : Nat) (g : Obj → Obj) : (s.setObj i g).vsess = s.vsess := rfl
@[simp] theorem State.setObj_mirrors (s : State) (i : Nat) (g : Obj → Obj) : (s.setObj i g).mirrors = s.mirrors := rfl
@[simp] theorem State.setObj_ports (s : State) (i : Nat) (g : Obj → Obj) : (s.setObj i g).ports = s.ports := rfl
@[simp] theorem State.setObj_fabReqs (s : State) (i : Nat) (g : Obj → Obj) : (s.setObj i g).fabReqs = s.fabReqs := rfl
@[simp] theorem State.setObj_rxSrcs (s : State) (i : Nat) (g : Obj → Obj) : (s.setObj i g).rxSrcs = s.rxSrcs := rfl
@[simp] theorem State.setObj_pwrSeq (s : State) (i : Nat) (g : Obj → Obj) : (s.setObj i g).pwrSeq = s.pwrSeq := rfl
@[simp] theorem State.setObj_pwr (s : State) (i : Nat) (g : Obj → Obj) : (s.setObj i g).pwr = s.pwr := rfl
@[simp] theorem State.setObj_bist (s : State) (i : Nat) (g : Obj → Obj) : (s.setObj i g).bist = s.bist := rfl
@[simp] theorem State.setObj_waits (s : State) (i : Nat) (g : Obj → Obj) : (s.setObj i g).waits = s.waits := rfl
@[simp] theorem State.setObj_started (s : State) (i : Nat) (g : Obj → Obj) : (s.setObj i g).started = s.started := rfl
@[simp] theorem State.setObj_fget (s : State) (i : Nat) (g : Obj → Obj) (f : Fld) (j : Nat) : (s.setObj i g).fget f j = s.fget f j := rfl
@[simp] theorem State.obj_fset (s : State) (f : Fld) (j v i : Nat) : (s.fset f j v).obj i = s.obj i := rfl

@[simp] theorem State.obj_setObj_same (s : State) (i : Nat) (g : Obj → Obj) : (s.setObj i g).obj i = g (s.obj i) := by
  simp [State.obj, State.setObj]

theorem State.obj_setObj_ne (s : State) {q i : Nat} (g : Obj → Obj) (h : q ≠ i) : (s.setObj i g).obj q = s.obj q := by
  simp [State.obj, State.setObj, h]

/-! ## setVs -/

@[simp] theorem State.setVs_pending (s : State) (i : Nat) (g : VSess → VSess) : (s.setVs i g).pending = s.pending := rfl
@[simp] theorem State.setVs_regs (s : State) (i : Nat) (g : VSess → VSess) : (s.setVs i g).regs = s.regs := rfl
@[simp] theorem State.setVs_mem (s : State) (i : Nat) (g : VSess → VSess) : (s.setVs i g).mem = s.mem := rfl
@[simp] theorem State.setVs_flash (s : State) (i : Nat) (g : VSess → VSess) : (s.setVs i g).flash = s.flash := rfl
@[simp] theorem State.setVs_slots (s : State) (i : Nat) (g : VSess → VSess) : (s.setVs i g).slots = s.slots := rfl
@[simp] theorem State.setVs_out (s : State) (i : Nat) (g : VSess → VSess) : (s.setVs i g).out = s.out := rfl
@[simp] theorem State.setVs_fresh (s : State) (i : Nat) (g : VSess → VSess) : (s.setVs i g).fresh = s.fresh := rfl
@[simp] theorem State.setVs_stamp (s : State) (i : Nat) (g : VSess → VSess) : (s.setVs i g).stamp = s.stamp := rfl
@[simp] theorem State.setVs_parts (s : State) (i : Nat) (g : VSess → VSess) : (s.setVs i g).parts = s.parts := rfl
@[simp] theorem State.setVs_jobs (s : State) (i : Nat) (g : VSess → VSess) : (s.setVs i g).jobs = s.jobs := rfl
@[simp] theorem State.setVs_rings (s : State) (i : Nat) (g : VSess → VSess) : (s.setVs i g).rings = s.rings := rfl
@[simp] theorem State.setVs_graphs (s : State) (i : Nat) (g : VSess → VSess) : (s.setVs i g).graphs = s.graphs := rfl
@[simp] theorem State.setVs_mbxs (s : State) (i : Nat) (g : VSess → VSess) : (s.setVs i g).mbxs = s.mbxs := rfl
@[simp] theorem State.setVs_objs (s : State) (i : Nat) (g : VSess → VSess) : (s.setVs i g).objs = s.objs := rfl
@[simp] theorem State.setVs_placements (s : State) (i : Nat) (g : VSess → VSess) : (s.setVs i g).placements = s.placements := rfl
@[simp] theorem State.setVs_changeLog (s : State) (i : Nat) (g : VSess → VSess) : (s.setVs i g).changeLog = s.changeLog := rfl
@[simp] theorem State.setVs_faultLog (s : State) (i : Nat) (g : VSess → VSess) : (s.setVs i g).faultLog = s.faultLog := rfl
@[simp] theorem State.setVs_mtasks (s : State) (i : Nat) (g : VSess → VSess) : (s.setVs i g).mtasks = s.mtasks := rfl
@[simp] theorem State.setVs_ctasks (s : State) (i : Nat) (g : VSess → VSess) : (s.setVs i g).ctasks = s.ctasks := rfl
@[simp] theorem State.setVs_mcores (s : State) (i : Nat) (g : VSess → VSess) : (s.setVs i g).mcores = s.mcores := rfl
@[simp] theorem State.setVs_threads (s : State) (i : Nat) (g : VSess → VSess) : (s.setVs i g).threads = s.threads := rfl
@[simp] theorem State.setVs_ctxs (s : State) (i : Nat) (g : VSess → VSess) : (s.setVs i g).ctxs = s.ctxs := rfl
@[simp] theorem State.setVs_images (s : State) (i : Nat) (g : VSess → VSess) : (s.setVs i g).images = s.images := rfl
@[simp] theorem State.setVs_mirrors (s : State) (i : Nat) (g : VSess → VSess) : (s.setVs i g).mirrors = s.mirrors := rfl
@[simp] theorem State.setVs_ports (s : State) (i : Nat) (g : VSess → VSess) : (s.setVs i g).ports = s.ports := rfl
@[simp] theorem State.setVs_fabReqs (s : State) (i : Nat) (g : VSess → VSess) : (s.setVs i g).fabReqs = s.fabReqs := rfl
@[simp] theorem State.setVs_rxSrcs (s : State) (i : Nat) (g : VSess → VSess) : (s.setVs i g).rxSrcs = s.rxSrcs := rfl
@[simp] theorem State.setVs_pwrSeq (s : State) (i : Nat) (g : VSess → VSess) : (s.setVs i g).pwrSeq = s.pwrSeq := rfl
@[simp] theorem State.setVs_pwr (s : State) (i : Nat) (g : VSess → VSess) : (s.setVs i g).pwr = s.pwr := rfl
@[simp] theorem State.setVs_bist (s : State) (i : Nat) (g : VSess → VSess) : (s.setVs i g).bist = s.bist := rfl
@[simp] theorem State.setVs_waits (s : State) (i : Nat) (g : VSess → VSess) : (s.setVs i g).waits = s.waits := rfl
@[simp] theorem State.setVs_started (s : State) (i : Nat) (g : VSess → VSess) : (s.setVs i g).started = s.started := rfl
@[simp] theorem State.setVs_fget (s : State) (i : Nat) (g : VSess → VSess) (f : Fld) (j : Nat) : (s.setVs i g).fget f j = s.fget f j := rfl
@[simp] theorem State.vs_fset (s : State) (f : Fld) (j v i : Nat) : (s.fset f j v).vs i = s.vs i := rfl

@[simp] theorem State.vs_setVs_same (s : State) (i : Nat) (g : VSess → VSess) : (s.setVs i g).vs i = g (s.vs i) := by
  simp [State.vs, State.setVs]

theorem State.vs_setVs_ne (s : State) {q i : Nat} (g : VSess → VSess) (h : q ≠ i) : (s.setVs i g).vs q = s.vs q := by
  simp [State.vs, State.setVs, h]

/-! ## setImage -/

@[simp] theorem State.setImage_pending (s : State) (i : Nat) (g : Image → Image) : (s.setImage i g).pending = s.pending := rfl
@[simp] theorem State.setImage_regs (s : State) (i : Nat) (g : Image → Image) : (s.setImage i g).regs = s.regs := rfl
@[simp] theorem State.setImage_mem (s : State) (i : Nat) (g : Image → Image) : (s.setImage i g).mem = s.mem := rfl
@[simp] theorem State.setImage_flash (s : State) (i : Nat) (g : Image → Image) : (s.setImage i g).flash = s.flash := rfl
@[simp] theorem State.setImage_slots (s : State) (i : Nat) (g : Image → Image) : (s.setImage i g).slots = s.slots := rfl
@[simp] theorem State.setImage_out (s : State) (i : Nat) (g : Image → Image) : (s.setImage i g).out = s.out := rfl
@[simp] theorem State.setImage_fresh (s : State) (i : Nat) (g : Image → Image) : (s.setImage i g).fresh = s.fresh := rfl
@[simp] theorem State.setImage_stamp (s : State) (i : Nat) (g : Image → Image) : (s.setImage i g).stamp = s.stamp := rfl
@[simp] theorem State.setImage_parts (s : State) (i : Nat) (g : Image → Image) : (s.setImage i g).parts = s.parts := rfl
@[simp] theorem State.setImage_jobs (s : State) (i : Nat) (g : Image → Image) : (s.setImage i g).jobs = s.jobs := rfl
@[simp] theorem State.setImage_rings (s : State) (i : Nat) (g : Image → Image) : (s.setImage i g).rings = s.rings := rfl
@[simp] theorem State.setImage_graphs (s : State) (i : Nat) (g : Image → Image) : (s.setImage i g).graphs = s.graphs := rfl
@[simp] theorem State.setImage_mbxs (s : State) (i : Nat) (g : Image → Image) : (s.setImage i g).mbxs = s.mbxs := rfl
@[simp] theorem State.setImage_objs (s : State) (i : Nat) (g : Image → Image) : (s.setImage i g).objs = s.objs := rfl
@[simp] theorem State.setImage_placements (s : State) (i : Nat) (g : Image → Image) : (s.setImage i g).placements = s.placements := rfl
@[simp] theorem State.setImage_changeLog (s : State) (i : Nat) (g : Image → Image) : (s.setImage i g).changeLog = s.changeLog := rfl
@[simp] theorem State.setImage_faultLog (s : State) (i : Nat) (g : Image → Image) : (s.setImage i g).faultLog = s.faultLog := rfl
@[simp] theorem State.setImage_mtasks (s : State) (i : Nat) (g : Image → Image) : (s.setImage i g).mtasks = s.mtasks := rfl
@[simp] theorem State.setImage_ctasks (s : State) (i : Nat) (g : Image → Image) : (s.setImage i g).ctasks = s.ctasks := rfl
@[simp] theorem State.setImage_mcores (s : State) (i : Nat) (g : Image → Image) : (s.setImage i g).mcores = s.mcores := rfl
@[simp] theorem State.setImage_threads (s : State) (i : Nat) (g : Image → Image) : (s.setImage i g).threads = s.threads := rfl
@[simp] theorem State.setImage_ctxs (s : State) (i : Nat) (g : Image → Image) : (s.setImage i g).ctxs = s.ctxs := rfl
@[simp] theorem State.setImage_vsess (s : State) (i : Nat) (g : Image → Image) : (s.setImage i g).vsess = s.vsess := rfl
@[simp] theorem State.setImage_mirrors (s : State) (i : Nat) (g : Image → Image) : (s.setImage i g).mirrors = s.mirrors := rfl
@[simp] theorem State.setImage_ports (s : State) (i : Nat) (g : Image → Image) : (s.setImage i g).ports = s.ports := rfl
@[simp] theorem State.setImage_fabReqs (s : State) (i : Nat) (g : Image → Image) : (s.setImage i g).fabReqs = s.fabReqs := rfl
@[simp] theorem State.setImage_rxSrcs (s : State) (i : Nat) (g : Image → Image) : (s.setImage i g).rxSrcs = s.rxSrcs := rfl
@[simp] theorem State.setImage_pwrSeq (s : State) (i : Nat) (g : Image → Image) : (s.setImage i g).pwrSeq = s.pwrSeq := rfl
@[simp] theorem State.setImage_pwr (s : State) (i : Nat) (g : Image → Image) : (s.setImage i g).pwr = s.pwr := rfl
@[simp] theorem State.setImage_bist (s : State) (i : Nat) (g : Image → Image) : (s.setImage i g).bist = s.bist := rfl
@[simp] theorem State.setImage_waits (s : State) (i : Nat) (g : Image → Image) : (s.setImage i g).waits = s.waits := rfl
@[simp] theorem State.setImage_started (s : State) (i : Nat) (g : Image → Image) : (s.setImage i g).started = s.started := rfl
@[simp] theorem State.setImage_fget (s : State) (i : Nat) (g : Image → Image) (f : Fld) (j : Nat) : (s.setImage i g).fget f j = s.fget f j := rfl
@[simp] theorem State.image_fset (s : State) (f : Fld) (j v i : Nat) : (s.fset f j v).image i = s.image i := rfl

@[simp] theorem State.image_setImage_same (s : State) (i : Nat) (g : Image → Image) : (s.setImage i g).image i = g (s.image i) := by
  simp [State.image, State.setImage]

theorem State.image_setImage_ne (s : State) {q i : Nat} (g : Image → Image) (h : q ≠ i) : (s.setImage i g).image q = s.image q := by
  simp [State.image, State.setImage, h]

/-! ## setCtask -/

@[simp] theorem State.setCtask_pending (s : State) (t : Nat) (g : Task → Task) : (s.setCtask t g).pending = s.pending := rfl
@[simp] theorem State.setCtask_regs (s : State) (t : Nat) (g : Task → Task) : (s.setCtask t g).regs = s.regs := rfl
@[simp] theorem State.setCtask_mem (s : State) (t : Nat) (g : Task → Task) : (s.setCtask t g).mem = s.mem := rfl
@[simp] theorem State.setCtask_flash (s : State) (t : Nat) (g : Task → Task) : (s.setCtask t g).flash = s.flash := rfl
@[simp] theorem State.setCtask_slots (s : State) (t : Nat) (g : Task → Task) : (s.setCtask t g).slots = s.slots := rfl
@[simp] theorem State.setCtask_out (s : State) (t : Nat) (g : Task → Task) : (s.setCtask t g).out = s.out := rfl
@[simp] theorem State.setCtask_fresh (s : State) (t : Nat) (g : Task → Task) : (s.setCtask t g).fresh = s.fresh := rfl
@[simp] theorem State.setCtask_stamp (s : State) (t : Nat) (g : Task → Task) : (s.setCtask t g).stamp = s.stamp := rfl
@[simp] theorem State.setCtask_parts (s : State) (t : Nat) (g : Task → Task) : (s.setCtask t g).parts = s.parts := rfl
@[simp] theorem State.setCtask_jobs (s : State) (t : Nat) (g : Task → Task) : (s.setCtask t g).jobs = s.jobs := rfl
@[simp] theorem State.setCtask_rings (s : State) (t : Nat) (g : Task → Task) : (s.setCtask t g).rings = s.rings := rfl
@[simp] theorem State.setCtask_graphs (s : State) (t : Nat) (g : Task → Task) : (s.setCtask t g).graphs = s.graphs := rfl
@[simp] theorem State.setCtask_mbxs (s : State) (t : Nat) (g : Task → Task) : (s.setCtask t g).mbxs = s.mbxs := rfl
@[simp] theorem State.setCtask_objs (s : State) (t : Nat) (g : Task → Task) : (s.setCtask t g).objs = s.objs := rfl
@[simp] theorem State.setCtask_placements (s : State) (t : Nat) (g : Task → Task) : (s.setCtask t g).placements = s.placements := rfl
@[simp] theorem State.setCtask_changeLog (s : State) (t : Nat) (g : Task → Task) : (s.setCtask t g).changeLog = s.changeLog := rfl
@[simp] theorem State.setCtask_faultLog (s : State) (t : Nat) (g : Task → Task) : (s.setCtask t g).faultLog = s.faultLog := rfl
@[simp] theorem State.setCtask_mtasks (s : State) (t : Nat) (g : Task → Task) : (s.setCtask t g).mtasks = s.mtasks := rfl
@[simp] theorem State.setCtask_mcores (s : State) (t : Nat) (g : Task → Task) : (s.setCtask t g).mcores = s.mcores := rfl
@[simp] theorem State.setCtask_threads (s : State) (t : Nat) (g : Task → Task) : (s.setCtask t g).threads = s.threads := rfl
@[simp] theorem State.setCtask_ctxs (s : State) (t : Nat) (g : Task → Task) : (s.setCtask t g).ctxs = s.ctxs := rfl
@[simp] theorem State.setCtask_images (s : State) (t : Nat) (g : Task → Task) : (s.setCtask t g).images = s.images := rfl
@[simp] theorem State.setCtask_vsess (s : State) (t : Nat) (g : Task → Task) : (s.setCtask t g).vsess = s.vsess := rfl
@[simp] theorem State.setCtask_mirrors (s : State) (t : Nat) (g : Task → Task) : (s.setCtask t g).mirrors = s.mirrors := rfl
@[simp] theorem State.setCtask_ports (s : State) (t : Nat) (g : Task → Task) : (s.setCtask t g).ports = s.ports := rfl
@[simp] theorem State.setCtask_fabReqs (s : State) (t : Nat) (g : Task → Task) : (s.setCtask t g).fabReqs = s.fabReqs := rfl
@[simp] theorem State.setCtask_rxSrcs (s : State) (t : Nat) (g : Task → Task) : (s.setCtask t g).rxSrcs = s.rxSrcs := rfl
@[simp] theorem State.setCtask_pwrSeq (s : State) (t : Nat) (g : Task → Task) : (s.setCtask t g).pwrSeq = s.pwrSeq := rfl
@[simp] theorem State.setCtask_pwr (s : State) (t : Nat) (g : Task → Task) : (s.setCtask t g).pwr = s.pwr := rfl
@[simp] theorem State.setCtask_bist (s : State) (t : Nat) (g : Task → Task) : (s.setCtask t g).bist = s.bist := rfl
@[simp] theorem State.setCtask_waits (s : State) (t : Nat) (g : Task → Task) : (s.setCtask t g).waits = s.waits := rfl
@[simp] theorem State.setCtask_started (s : State) (t : Nat) (g : Task → Task) : (s.setCtask t g).started = s.started := rfl
@[simp] theorem State.setCtask_fget (s : State) (t : Nat) (g : Task → Task) (f : Fld) (j : Nat) : (s.setCtask t g).fget f j = s.fget f j := rfl
@[simp] theorem State.ctask_fset (s : State) (f : Fld) (j v t : Nat) : (s.fset f j v).ctask t = s.ctask t := rfl

@[simp] theorem State.ctask_setCtask_same (s : State) (t : Nat) (g : Task → Task) : (s.setCtask t g).ctask t = g (s.ctask t) := by
  simp [State.ctask, State.setCtask]

theorem State.ctask_setCtask_ne (s : State) {q t : Nat} (g : Task → Task) (h : q ≠ t) : (s.setCtask t g).ctask q = s.ctask q := by
  simp [State.ctask, State.setCtask, h]

/-! ## setMirror -/

@[simp] theorem State.setMirror_pending (s : State) (p : Nat) (g : Mirror → Mirror) : (s.setMirror p g).pending = s.pending := rfl
@[simp] theorem State.setMirror_regs (s : State) (p : Nat) (g : Mirror → Mirror) : (s.setMirror p g).regs = s.regs := rfl
@[simp] theorem State.setMirror_mem (s : State) (p : Nat) (g : Mirror → Mirror) : (s.setMirror p g).mem = s.mem := rfl
@[simp] theorem State.setMirror_flash (s : State) (p : Nat) (g : Mirror → Mirror) : (s.setMirror p g).flash = s.flash := rfl
@[simp] theorem State.setMirror_slots (s : State) (p : Nat) (g : Mirror → Mirror) : (s.setMirror p g).slots = s.slots := rfl
@[simp] theorem State.setMirror_out (s : State) (p : Nat) (g : Mirror → Mirror) : (s.setMirror p g).out = s.out := rfl
@[simp] theorem State.setMirror_fresh (s : State) (p : Nat) (g : Mirror → Mirror) : (s.setMirror p g).fresh = s.fresh := rfl
@[simp] theorem State.setMirror_stamp (s : State) (p : Nat) (g : Mirror → Mirror) : (s.setMirror p g).stamp = s.stamp := rfl
@[simp] theorem State.setMirror_parts (s : State) (p : Nat) (g : Mirror → Mirror) : (s.setMirror p g).parts = s.parts := rfl
@[simp] theorem State.setMirror_jobs (s : State) (p : Nat) (g : Mirror → Mirror) : (s.setMirror p g).jobs = s.jobs := rfl
@[simp] theorem State.setMirror_rings (s : State) (p : Nat) (g : Mirror → Mirror) : (s.setMirror p g).rings = s.rings := rfl
@[simp] theorem State.setMirror_graphs (s : State) (p : Nat) (g : Mirror → Mirror) : (s.setMirror p g).graphs = s.graphs := rfl
@[simp] theorem State.setMirror_mbxs (s : State) (p : Nat) (g : Mirror → Mirror) : (s.setMirror p g).mbxs = s.mbxs := rfl
@[simp] theorem State.setMirror_objs (s : State) (p : Nat) (g : Mirror → Mirror) : (s.setMirror p g).objs = s.objs := rfl
@[simp] theorem State.setMirror_placements (s : State) (p : Nat) (g : Mirror → Mirror) : (s.setMirror p g).placements = s.placements := rfl
@[simp] theorem State.setMirror_changeLog (s : State) (p : Nat) (g : Mirror → Mirror) : (s.setMirror p g).changeLog = s.changeLog := rfl
@[simp] theorem State.setMirror_faultLog (s : State) (p : Nat) (g : Mirror → Mirror) : (s.setMirror p g).faultLog = s.faultLog := rfl
@[simp] theorem State.setMirror_mtasks (s : State) (p : Nat) (g : Mirror → Mirror) : (s.setMirror p g).mtasks = s.mtasks := rfl
@[simp] theorem State.setMirror_ctasks (s : State) (p : Nat) (g : Mirror → Mirror) : (s.setMirror p g).ctasks = s.ctasks := rfl
@[simp] theorem State.setMirror_mcores (s : State) (p : Nat) (g : Mirror → Mirror) : (s.setMirror p g).mcores = s.mcores := rfl
@[simp] theorem State.setMirror_threads (s : State) (p : Nat) (g : Mirror → Mirror) : (s.setMirror p g).threads = s.threads := rfl
@[simp] theorem State.setMirror_ctxs (s : State) (p : Nat) (g : Mirror → Mirror) : (s.setMirror p g).ctxs = s.ctxs := rfl
@[simp] theorem State.setMirror_images (s : State) (p : Nat) (g : Mirror → Mirror) : (s.setMirror p g).images = s.images := rfl
@[simp] theorem State.setMirror_vsess (s : State) (p : Nat) (g : Mirror → Mirror) : (s.setMirror p g).vsess = s.vsess := rfl
@[simp] theorem State.setMirror_ports (s : State) (p : Nat) (g : Mirror → Mirror) : (s.setMirror p g).ports = s.ports := rfl
@[simp] theorem State.setMirror_fabReqs (s : State) (p : Nat) (g : Mirror → Mirror) : (s.setMirror p g).fabReqs = s.fabReqs := rfl
@[simp] theorem State.setMirror_rxSrcs (s : State) (p : Nat) (g : Mirror → Mirror) : (s.setMirror p g).rxSrcs = s.rxSrcs := rfl
@[simp] theorem State.setMirror_pwrSeq (s : State) (p : Nat) (g : Mirror → Mirror) : (s.setMirror p g).pwrSeq = s.pwrSeq := rfl
@[simp] theorem State.setMirror_pwr (s : State) (p : Nat) (g : Mirror → Mirror) : (s.setMirror p g).pwr = s.pwr := rfl
@[simp] theorem State.setMirror_bist (s : State) (p : Nat) (g : Mirror → Mirror) : (s.setMirror p g).bist = s.bist := rfl
@[simp] theorem State.setMirror_waits (s : State) (p : Nat) (g : Mirror → Mirror) : (s.setMirror p g).waits = s.waits := rfl
@[simp] theorem State.setMirror_started (s : State) (p : Nat) (g : Mirror → Mirror) : (s.setMirror p g).started = s.started := rfl
@[simp] theorem State.setMirror_fget (s : State) (p : Nat) (g : Mirror → Mirror) (f : Fld) (j : Nat) : (s.setMirror p g).fget f j = s.fget f j := rfl
@[simp] theorem State.mirror_fset (s : State) (f : Fld) (j v p : Nat) : (s.fset f j v).mirror p = s.mirror p := rfl

@[simp] theorem State.mirror_setMirror_same (s : State) (p : Nat) (g : Mirror → Mirror) : (s.setMirror p g).mirror p = g (s.mirror p) := by
  simp [State.mirror, State.setMirror]

theorem State.mirror_setMirror_ne (s : State) {q p : Nat} (g : Mirror → Mirror) (h : q ≠ p) : (s.setMirror p g).mirror q = s.mirror q := by
  simp [State.mirror, State.setMirror, h]

/-! ## setRxSrc -/

@[simp] theorem State.setRxSrc_pending (s : State) (d : Nat) (g : RxSrc → RxSrc) : (s.setRxSrc d g).pending = s.pending := rfl
@[simp] theorem State.setRxSrc_regs (s : State) (d : Nat) (g : RxSrc → RxSrc) : (s.setRxSrc d g).regs = s.regs := rfl
@[simp] theorem State.setRxSrc_mem (s : State) (d : Nat) (g : RxSrc → RxSrc) : (s.setRxSrc d g).mem = s.mem := rfl
@[simp] theorem State.setRxSrc_flash (s : State) (d : Nat) (g : RxSrc → RxSrc) : (s.setRxSrc d g).flash = s.flash := rfl
@[simp] theorem State.setRxSrc_slots (s : State) (d : Nat) (g : RxSrc → RxSrc) : (s.setRxSrc d g).slots = s.slots := rfl
@[simp] theorem State.setRxSrc_out (s : State) (d : Nat) (g : RxSrc → RxSrc) : (s.setRxSrc d g).out = s.out := rfl
@[simp] theorem State.setRxSrc_fresh (s : State) (d : Nat) (g : RxSrc → RxSrc) : (s.setRxSrc d g).fresh = s.fresh := rfl
@[simp] theorem State.setRxSrc_stamp (s : State) (d : Nat) (g : RxSrc → RxSrc) : (s.setRxSrc d g).stamp = s.stamp := rfl
@[simp] theorem State.setRxSrc_parts (s : State) (d : Nat) (g : RxSrc → RxSrc) : (s.setRxSrc d g).parts = s.parts := rfl
@[simp] theorem State.setRxSrc_jobs (s : State) (d : Nat) (g : RxSrc → RxSrc) : (s.setRxSrc d g).jobs = s.jobs := rfl
@[simp] theorem State.setRxSrc_rings (s : State) (d : Nat) (g : RxSrc → RxSrc) : (s.setRxSrc d g).rings = s.rings := rfl
@[simp] theorem State.setRxSrc_graphs (s : State) (d : Nat) (g : RxSrc → RxSrc) : (s.setRxSrc d g).graphs = s.graphs := rfl
@[simp] theorem State.setRxSrc_mbxs (s : State) (d : Nat) (g : RxSrc → RxSrc) : (s.setRxSrc d g).mbxs = s.mbxs := rfl
@[simp] theorem State.setRxSrc_objs (s : State) (d : Nat) (g : RxSrc → RxSrc) : (s.setRxSrc d g).objs = s.objs := rfl
@[simp] theorem State.setRxSrc_placements (s : State) (d : Nat) (g : RxSrc → RxSrc) : (s.setRxSrc d g).placements = s.placements := rfl
@[simp] theorem State.setRxSrc_changeLog (s : State) (d : Nat) (g : RxSrc → RxSrc) : (s.setRxSrc d g).changeLog = s.changeLog := rfl
@[simp] theorem State.setRxSrc_faultLog (s : State) (d : Nat) (g : RxSrc → RxSrc) : (s.setRxSrc d g).faultLog = s.faultLog := rfl
@[simp] theorem State.setRxSrc_mtasks (s : State) (d : Nat) (g : RxSrc → RxSrc) : (s.setRxSrc d g).mtasks = s.mtasks := rfl
@[simp] theorem State.setRxSrc_ctasks (s : State) (d : Nat) (g : RxSrc → RxSrc) : (s.setRxSrc d g).ctasks = s.ctasks := rfl
@[simp] theorem State.setRxSrc_mcores (s : State) (d : Nat) (g : RxSrc → RxSrc) : (s.setRxSrc d g).mcores = s.mcores := rfl
@[simp] theorem State.setRxSrc_threads (s : State) (d : Nat) (g : RxSrc → RxSrc) : (s.setRxSrc d g).threads = s.threads := rfl
@[simp] theorem State.setRxSrc_ctxs (s : State) (d : Nat) (g : RxSrc → RxSrc) : (s.setRxSrc d g).ctxs = s.ctxs := rfl
@[simp] theorem State.setRxSrc_images (s : State) (d : Nat) (g : RxSrc → RxSrc) : (s.setRxSrc d g).images = s.images := rfl
@[simp] theorem State.setRxSrc_vsess (s : State) (d : Nat) (g : RxSrc → RxSrc) : (s.setRxSrc d g).vsess = s.vsess := rfl
@[simp] theorem State.setRxSrc_mirrors (s : State) (d : Nat) (g : RxSrc → RxSrc) : (s.setRxSrc d g).mirrors = s.mirrors := rfl
@[simp] theorem State.setRxSrc_ports (s : State) (d : Nat) (g : RxSrc → RxSrc) : (s.setRxSrc d g).ports = s.ports := rfl
@[simp] theorem State.setRxSrc_fabReqs (s : State) (d : Nat) (g : RxSrc → RxSrc) : (s.setRxSrc d g).fabReqs = s.fabReqs := rfl
@[simp] theorem State.setRxSrc_pwrSeq (s : State) (d : Nat) (g : RxSrc → RxSrc) : (s.setRxSrc d g).pwrSeq = s.pwrSeq := rfl
@[simp] theorem State.setRxSrc_pwr (s : State) (d : Nat) (g : RxSrc → RxSrc) : (s.setRxSrc d g).pwr = s.pwr := rfl
@[simp] theorem State.setRxSrc_bist (s : State) (d : Nat) (g : RxSrc → RxSrc) : (s.setRxSrc d g).bist = s.bist := rfl
@[simp] theorem State.setRxSrc_waits (s : State) (d : Nat) (g : RxSrc → RxSrc) : (s.setRxSrc d g).waits = s.waits := rfl
@[simp] theorem State.setRxSrc_started (s : State) (d : Nat) (g : RxSrc → RxSrc) : (s.setRxSrc d g).started = s.started := rfl
@[simp] theorem State.setRxSrc_fget (s : State) (d : Nat) (g : RxSrc → RxSrc) (f : Fld) (j : Nat) : (s.setRxSrc d g).fget f j = s.fget f j := rfl
@[simp] theorem State.rxSrc_fset (s : State) (f : Fld) (j v d : Nat) : (s.fset f j v).rxSrc d = s.rxSrc d := rfl

@[simp] theorem State.rxSrc_setRxSrc_same (s : State) (d : Nat) (g : RxSrc → RxSrc) : (s.setRxSrc d g).rxSrc d = g (s.rxSrc d) := by
  simp [State.rxSrc, State.setRxSrc]

theorem State.rxSrc_setRxSrc_ne (s : State) {q d : Nat} (g : RxSrc → RxSrc) (h : q ≠ d) : (s.setRxSrc d g).rxSrc q = s.rxSrc q := by
  simp [State.rxSrc, State.setRxSrc, h]

end Sys2Proof.Machine
end

