-- ==== Sys2Proof/Laws/Turns.lean ====
section
/-! SUPPORT. What the shared operations of the queues do once the turn of a command has come: one lemma for each kind of turn. -/

namespace Sys2Proof.Machine

/-- A mailbox command whose turn has come is applied and answered. -/
theorem State.runCommand_of_turn {s : State} {m : Mbx} {op : Nat} {r : MbxReq} (h : s.cmdTurn m op r)
    (f : State → Nat → MbxReq → State × Ans) : s.runCommand m op f = s.commanded m r f := by
  obtain ⟨serves, next, formed, ready⟩ := h
  unfold State.runCommand State.commanded
  simp only [serves, next, ready, Bool.not_true, Bool.false_eq_true, if_false]
  rcases formed with h | ⟨own, about⟩
  · simp [h]
  · have closed : (mbxNum m < 64 && !s.formed (mbxNum m) && !servedUnformed op) = false := by
      by_cases hm : mbxNum m < 64
      · rcases own hm with h | h <;> simp [h]
      · simp [hm]
    have named : (actsOnPart op r.data && !s.formed (byteAt r.data 5)) = false := by
      cases hp : actsOnPart op r.data
      · rfl
      · simp [about hp]
    simp [closed, named]

/-- A record whose turn has come starts. -/
theorem State.startRec_of_turn {s : State} {p r ty : Nat} {x : Rec} (h : s.recTurn (16 * p + r) ty x) (f : State → Nat → Rec → State) :
    s.startRec p r ty f = f s (16 * p + r) x := by
  obtain ⟨next, type, free, kept⟩ := h
  simp [State.startRec, next, type, free, kept]

/-- A tile instruction at the PC takes place in the row of its kind, and in no other. -/
theorem State.tileRow_of_at {s : State} {c pc : Nat} {t : Tile} (h : s.atTile c pc t) (sel : Tile → Bool) (f : State → Nat → Tile → State) :
    s.tileRow c sel f = if sel t then f (s.pump c) pc t else s.pump c := by
  obtain ⟨live, idle, at', word⟩ := h
  subst at'
  obtain ⟨w, found, decoded⟩ := Option.bind_eq_some_iff.mp word
  simp [State.tileRow, live, idle, found, decoded]

/-- A carding instruction at the pc takes place in its own row. -/
theorem State.cardRow_of_at {s u : State} {t pc len w : Nat} {row : CRow} (h : s.atCard t row u pc len w)
    (f : State → Nat → Nat → Nat → State) : s.cardRow t row f = f u pc len w := by
  obtain ⟨live, at', fetched, found⟩ := h
  subst at'
  simp [State.cardRow, live, fetched, found]

/-- A frame in order and well formed has its TYPE's effect. -/
theorem State.rxFrame_of_in {s : State} {p ty : Nat} {fr : Frame} (h : s.frameIn p ty (framed fr)) (k : State → FabFrame → State) :
    s.rxFrame p ty fr k = (k (s.gotFrame p (framed fr)) (framed fr)).afterFrame p (framed fr) := by
  obtain ⟨len, type, up, inOrder, good, carried⟩ := h
  simp only [framed] at len type inOrder good carried
  simp [State.rxFrame, State.gotFrame, framed, len, type, Nat.not_lt.mpr up, inOrder, good, carried]

end Sys2Proof.Machine
end

