-- ==== Sys2Proof/Laws/Updates.lean ====
section
/-! SUPPORT. What each named update leaves alone, one rewriting rule for each field of the state that statements look at. -/

namespace Sys2Proof.Machine

/-! ## fset -/

@[simp] theorem State.fset_pending (s : State) (f : Fld) (i v : Nat) : (s.fset f i v).pending = s.pending := rfl
@[simp] theorem State.fset_mem (s : State) (f : Fld) (i v : Nat) : (s.fset f i v).mem = s.mem := rfl
@[simp] theorem State.fset_flash (s : State) (f : Fld) (i v : Nat) : (s.fset f i v).flash = s.flash := rfl
@[simp] theorem State.fset_slots (s : State) (f : Fld) (i v : Nat) : (s.fset f i v).slots = s.slots := rfl
@[simp] theorem State.fset_out (s : State) (f : Fld) (i v : Nat) : (s.fset f i v).out = s.out := rfl
@[simp] theorem State.fset_fresh (s : State) (f : Fld) (i v : Nat) : (s.fset f i v).fresh = s.fresh := rfl
@[simp] theorem State.fset_stamp (s : State) (f : Fld) (i v : Nat) : (s.fset f i v).stamp = s.stamp := rfl
@[simp] theorem State.fset_parts (s : State) (f : Fld) (i v : Nat) : (s.fset f i v).parts = s.parts := rfl
@[simp] theorem State.fset_jobs (s : State) (f : Fld) (i v : Nat) : (s.fset f i v).jobs = s.jobs := rfl
@[simp] theorem State.fset_rings (s : State) (f : Fld) (i v : Nat) : (s.fset f i v).rings = s.rings := rfl
@[simp] theorem State.fset_graphs (s : State) (f : Fld) (i v : Nat) : (s.fset f i v).graphs = s.graphs := rfl
@[simp] theorem State.fset_mbxs (s : State) (f : Fld) (i v : Nat) : (s.fset f i v).mbxs = s.mbxs := rfl
@[simp] theorem State.fset_objs (s : State) (f : Fld) (i v : Nat) : (s.fset f i v).objs = s.objs := rfl
@[simp] theorem State.fset_placements (s : State) (f : Fld) (i v : Nat) : (s.fset f i v).placements = s.placements := rfl
@[simp] theorem State.fset_changeLog (s : State) (f : Fld) (i v : Nat) : (s.fset f i v).changeLog = s.changeLog := rfl
@[simp] theorem State.fset_faultLog (s : State) (f : Fld) (i v : Nat) : (s.fset f i v).faultLog = s.faultLog := rfl
@[simp] theorem State.fset_mtasks (s : State) (f : Fld) (i v : Nat) : (s.fset f i v).mtasks = s.mtasks := rfl
@[simp] theorem State.fset_ctasks (s : State) (f : Fld) (i v : Nat) : (s.fset f i v).ctasks = s.ctasks := rfl
@[simp] theorem State.fset_mcores (s : State) (f : Fld) (i v : Nat) : (s.fset f i v).mcores = s.mcores := rfl
@[simp] theorem State.fset_threads (s : State) (f : Fld) (i v : Nat) : (s.fset f i v).threads = s.threads := rfl
@[simp] theorem State.fset_ctxs (s : State) (f : Fld) (i v : Nat) : (s.fset f i v).ctxs = s.ctxs := rfl
@[simp] theorem State.fset_ports (s : State) (f : Fld) (i v : Nat) : (s.fset f i v).ports = s.ports := rfl
@[simp] theorem State.fset_fabReqs (s : State) (f : Fld) (i v : Nat) : (s.fset f i v).fabReqs = s.fabReqs := rfl
@[simp] theorem State.fset_pwrSeq (s : State) (f : Fld) (i v : Nat) : (s.fset f i v).pwrSeq = s.pwrSeq := rfl
@[simp] theorem State.fset_pwr (s : State) (f : Fld) (i v : Nat) : (s.fset f i v).pwr = s.pwr := rfl
@[simp] theorem State.fset_bist (s : State) (f : Fld) (i v : Nat) : (s.fset f i v).bist = s.bist := rfl
@[simp] theorem State.fset_msixMask (s : State) (f : Fld) (i v : Nat) : (s.fset f i v).msixMask = s.msixMask := rfl
@[simp] theorem State.fset_started (s : State) (f : Fld) (i v : Nat) : (s.fset f i v).started = s.started := rfl

/-! ## fadd -/

@[simp] theorem State.fadd_pending (s : State) (f : Fld) (i n : Nat) : (s.fadd f i n).pending = s.pending := rfl
@[simp] theorem State.fadd_mem (s : State) (f : Fld) (i n : Nat) : (s.fadd f i n).mem = s.mem := rfl
@[simp] theorem State.fadd_flash (s : State) (f : Fld) (i n : Nat) : (s.fadd f i n).flash = s.flash := rfl
@[simp] theorem State.fadd_slots (s : State) (f : Fld) (i n : Nat) : (s.fadd f i n).slots = s.slots := rfl
@[simp] theorem State.fadd_out (s : State) (f : Fld) (i n : Nat) : (s.fadd f i n).out = s.out := rfl
@[simp] theorem State.fadd_fresh (s : State) (f : Fld) (i n : Nat) : (s.fadd f i n).fresh = s.fresh := rfl
@[simp] theorem State.fadd_stamp (s : State) (f : Fld) (i n : Nat) : (s.fadd f i n).stamp = s.stamp := rfl
@[simp] theorem State.fadd_parts (s : State) (f : Fld) (i n : Nat) : (s.fadd f i n).parts = s.parts := rfl
@[simp] theorem State.fadd_jobs (s : State) (f : Fld) (i n : Nat) : (s.fadd f i n).jobs = s.jobs := rfl
@[simp] theorem State.fadd_rings (s : State) (f : Fld) (i n : Nat) : (s.fadd f i n).rings = s.rings := rfl
@[simp] theorem State.fadd_graphs (s : State) (f : Fld) (i n : Nat) : (s.fadd f i n).graphs = s.graphs := rfl
@[simp] theorem State.fadd_mbxs (s : State) (f : Fld) (i n : Nat) : (s.fadd f i n).mbxs = s.mbxs := rfl
@[simp] theorem State.fadd_objs (s : State) (f : Fld) (i n : Nat) : (s.fadd f i n).objs = s.objs := rfl
@[simp] theorem State.fadd_placements (s : State) (f : Fld) (i n : Nat) : (s.fadd f i n).placements = s.placements := rfl
@[simp] theorem State.fadd_changeLog (s : State) (f : Fld) (i n : Nat) : (s.fadd f i n).changeLog = s.changeLog := rfl
@[simp] theorem State.fadd_faultLog (s : State) (f : Fld) (i n : Nat) : (s.fadd f i n).faultLog = s.faultLog := rfl
@[simp] theorem State.fadd_mtasks (s : State) (f : Fld) (i n : Nat) : (s.fadd f i n).mtasks = s.mtasks := rfl
@[simp] theorem State.fadd_ctasks (s : State) (f : Fld) (i n : Nat) : (s.fadd f i n).ctasks = s.ctasks := rfl
@[simp] theorem State.fadd_mcores (s : State) (f : Fld) (i n : Nat) : (s.fadd f i n).mcores = s.mcores := rfl
@[simp] theorem State.fadd_threads (s : State) (f : Fld) (i n : Nat) : (s.fadd f i n).threads = s.threads := rfl
@[simp] theorem State.fadd_ctxs (s : State) (f : Fld) (i n : Nat) : (s.fadd f i n).ctxs = s.ctxs := rfl
@[simp] theorem State.fadd_ports (s : State) (f : Fld) (i n : Nat) : (s.fadd f i n).ports = s.ports := rfl
@[simp] theorem State.fadd_fabReqs (s : State) (f : Fld) (i n : Nat) : (s.fadd f i n).fabReqs = s.fabReqs := rfl
@[simp] theorem State.fadd_pwrSeq (s : State) (f : Fld) (i n : Nat) : (s.fadd f i n).pwrSeq = s.pwrSeq := rfl
@[simp] theorem State.fadd_pwr (s : State) (f : Fld) (i n : Nat) : (s.fadd f i n).pwr = s.pwr := rfl
@[simp] theorem State.fadd_bist (s : State) (f : Fld) (i n : Nat) : (s.fadd f i n).bist = s.bist := rfl
@[simp] theorem State.fadd_msixMask (s : State) (f : Fld) (i n : Nat) : (s.fadd f i n).msixMask = s.msixMask := rfl
@[simp] theorem State.fadd_started (s : State) (f : Fld) (i n : Nat) : (s.fadd f i n).started = s.started := rfl

/-! ## fclear -/

@[simp] theorem State.fclear_pending (s : State) (f : Fld) (i : Nat) : (s.fclear f i).pending = s.pending := rfl
@[simp] theorem State.fclear_mem (s : State) (f : Fld) (i : Nat) : (s.fclear f i).mem = s.mem := rfl
@[simp] theorem State.fclear_flash (s : State) (f : Fld) (i : Nat) : (s.fclear f i).flash = s.flash := rfl
@[simp] theorem State.fclear_slots (s : State) (f : Fld) (i : Nat) : (s.fclear f i).slots = s.slots := rfl
@[simp] theorem State.fclear_out (s : State) (f : Fld) (i : Nat) : (s.fclear f i).out = s.out := rfl
@[simp] theorem State.fclear_fresh (s : State) (f : Fld) (i : Nat) : (s.fclear f i).fresh = s.fresh := rfl
@[simp] theorem State.fclear_stamp (s : State) (f : Fld) (i : Nat) : (s.fclear f i).stamp = s.stamp := rfl
@[simp] theorem State.fclear_parts (s : State) (f : Fld) (i : Nat) : (s.fclear f i).parts = s.parts := rfl
@[simp] theorem State.fclear_jobs (s : State) (f : Fld) (i : Nat) : (s.fclear f i).jobs = s.jobs := rfl
@[simp] theorem State.fclear_rings (s : State) (f : Fld) (i : Nat) : (s.fclear f i).rings = s.rings := rfl
@[simp] theorem State.fclear_graphs (s : State) (f : Fld) (i : Nat) : (s.fclear f i).graphs = s.graphs := rfl
@[simp] theorem State.fclear_mbxs (s : State) (f : Fld) (i : Nat) : (s.fclear f i).mbxs = s.mbxs := rfl
@[simp] theorem State.fclear_objs (s : State) (f : Fld) (i : Nat) : (s.fclear f i).objs = s.objs := rfl
@[simp] theorem State.fclear_placements (s : State) (f : Fld) (i : Nat) : (s.fclear f i).placements = s.placements := rfl
@[simp] theorem State.fclear_changeLog (s : State) (f : Fld) (i : Nat) : (s.fclear f i).changeLog = s.changeLog := rfl
@[simp] theorem State.fclear_faultLog (s : State) (f : Fld) (i : Nat) : (s.fclear f i).faultLog = s.faultLog := rfl
@[simp] theorem State.fclear_mtasks (s : State) (f : Fld) (i : Nat) : (s.fclear f i).mtasks = s.mtasks := rfl
@[simp] theorem State.fclear_ctasks (s : State) (f : Fld) (i : Nat) : (s.fclear f i).ctasks = s.ctasks := rfl
@[simp] theorem State.fclear_mcores (s : State) (f : Fld) (i : Nat) : (s.fclear f i).mcores = s.mcores := rfl
@[simp] theorem State.fclear_threads (s : State) (f : Fld) (i : Nat) : (s.fclear f i).threads = s.threads := rfl
@[simp] theorem State.fclear_ctxs (s : State) (f : Fld) (i : Nat) : (s.fclear f i).ctxs = s.ctxs := rfl
@[simp] theorem State.fclear_ports (s : State) (f : Fld) (i : Nat) : (s.fclear f i).ports = s.ports := rfl
@[simp] theorem State.fclear_fabReqs (s : State) (f : Fld) (i : Nat) : (s.fclear f i).fabReqs = s.fabReqs := rfl
@[simp] theorem State.fclear_pwrSeq (s : State) (f : Fld) (i : Nat) : (s.fclear f i).pwrSeq = s.pwrSeq := rfl
@[simp] theorem State.fclear_pwr (s : State) (f : Fld) (i : Nat) : (s.fclear f i).pwr = s.pwr := rfl
@[simp] theorem State.fclear_bist (s : State) (f : Fld) (i : Nat) : (s.fclear f i).bist = s.bist := rfl
@[simp] theorem State.fclear_msixMask (s : State) (f : Fld) (i : Nat) : (s.fclear f i).msixMask = s.msixMask := rfl
@[simp] theorem State.fclear_started (s : State) (f : Fld) (i : Nat) : (s.fclear f i).started = s.started := rfl

/-! ## emit -/

@[simp] theorem State.emit_pending (s : State) (o : Out) : (s.emit o).pending = s.pending := rfl
@[simp] theorem State.emit_regs (s : State) (o : Out) : (s.emit o).regs = s.regs := rfl
@[simp] theorem State.emit_mem (s : State) (o : Out) : (s.emit o).mem = s.mem := rfl
@[simp] theorem State.emit_flash (s : State) (o : Out) : (s.emit o).flash = s.flash := rfl
@[simp] theorem State.emit_slots (s : State) (o : Out) : (s.emit o).slots = s.slots := rfl
@[simp] theorem State.emit_fresh (s : State) (o : Out) : (s.emit o).fresh = s.fresh := rfl
@[simp] theorem State.emit_stamp (s : State) (o : Out) : (s.emit o).stamp = s.stamp := rfl
@[simp] theorem State.emit_parts (s : State) (o : Out) : (s.emit o).parts = s.parts := rfl
@[simp] theorem State.emit_jobs (s : State) (o : Out) : (s.emit o).jobs = s.jobs := rfl
@[simp] theorem State.emit_rings (s : State) (o : Out) : (s.emit o).rings = s.rings := rfl
@[simp] theorem State.emit_graphs (s : State) (o : Out) : (s.emit o).graphs = s.graphs := rfl
@[simp] theorem State.emit_mbxs (s : State) (o : Out) : (s.emit o).mbxs = s.mbxs := rfl
@[simp] theorem State.emit_objs (s : State) (o : Out) : (s.emit o).objs = s.objs := rfl
@[simp] theorem State.emit_placements (s : State) (o : Out) : (s.emit o).placements = s.placements := rfl
@[simp] theorem State.emit_changeLog (s : State) (o : Out) : (s.emit o).changeLog = s.changeLog := rfl
@[simp] theorem State.emit_faultLog (s : State) (o : Out) : (s.emit o).faultLog = s.faultLog := rfl
@[simp] theorem State.emit_mtasks (s : State) (o : Out) : (s.emit o).mtasks = s.mtasks := rfl
@[simp] theorem State.emit_ctasks (s : State) (o : Out) : (s.emit o).ctasks = s.ctasks := rfl
@[simp] theorem State.emit_mcores (s : State) (o : Out) : (s.emit o).mcores = s.mcores := rfl
@[simp] theorem State.emit_threads (s : State) (o : Out) : (s.emit o).threads = s.threads := rfl
@[simp] theorem State.emit_ctxs (s : State) (o : Out) : (s.emit o).ctxs = s.ctxs := rfl
@[simp] theorem State.emit_ports (s : State) (o : Out) : (s.emit o).ports = s.ports := rfl
@[simp] theorem State.emit_fabReqs (s : State) (o : Out) : (s.emit o).fabReqs = s.fabReqs := rfl
@[simp] theorem State.emit_pwrSeq (s : State) (o : Out) : (s.emit o).pwrSeq = s.pwrSeq := rfl
@[simp] theorem State.emit_pwr (s : State) (o : Out) : (s.emit o).pwr = s.pwr := rfl
@[simp] theorem State.emit_bist (s : State) (o : Out) : (s.emit o).bist = s.bist := rfl
@[simp] theorem State.emit_msixMask (s : State) (o : Out) : (s.emit o).msixMask = s.msixMask := rfl
@[simp] theorem State.emit_started (s : State) (o : Out) : (s.emit o).started = s.started := rfl
@[simp] theorem State.emit_fget (s : State) (o : Out) (k : Fld) (j : Nat) : (s.emit o).fget k j = s.fget k j := rfl

/-! ## draw -/

@[simp] theorem State.draw_pending (s : State)  : (s.draw).pending = s.pending := rfl
@[simp] theorem State.draw_regs (s : State)  : (s.draw).regs = s.regs := rfl
@[simp] theorem State.draw_mem (s : State)  : (s.draw).mem = s.mem := rfl
@[simp] theorem State.draw_flash (s : State)  : (s.draw).flash = s.flash := rfl
@[simp] theorem State.draw_slots (s : State)  : (s.draw).slots = s.slots := rfl
@[simp] theorem State.draw_out (s : State)  : (s.draw).out = s.out := rfl
@[simp] theorem State.draw_stamp (s : State)  : (s.draw).stamp = s.stamp := rfl
@[simp] theorem State.draw_parts (s : State)  : (s.draw).parts = s.parts := rfl
@[simp] theorem State.draw_jobs (s : State)  : (s.draw).jobs = s.jobs := rfl
@[simp] theorem State.draw_rings (s : State)  : (s.draw).rings = s.rings := rfl
@[simp] theorem State.draw_graphs (s : State)  : (s.draw).graphs = s.graphs := rfl
@[simp] theorem State.draw_mbxs (s : State)  : (s.draw).mbxs = s.mbxs := rfl
@[simp] theorem State.draw_objs (s : State)  : (s.draw).objs = s.objs := rfl
@[simp] theorem State.draw_placements (s : State)  : (s.draw).placements = s.placements := rfl
@[simp] theorem State.draw_changeLog (s : State)  : (s.draw).changeLog = s.changeLog := rfl
@[simp] theorem State.draw_faultLog (s : State)  : (s.draw).faultLog = s.faultLog := rfl
@[simp] theorem State.draw_mtasks (s : State)  : (s.draw).mtasks = s.mtasks := rfl
@[simp] theorem State.draw_ctasks (s : State)  : (s.draw).ctasks = s.ctasks := rfl
@[simp] theorem State.draw_mcores (s : State)  : (s.draw).mcores = s.mcores := rfl
@[simp] theorem State.draw_threads (s : State)  : (s.draw).threads = s.threads := rfl
@[simp] theorem State.draw_ctxs (s : State)  : (s.draw).ctxs = s.ctxs := rfl
@[simp] theorem State.draw_ports (s : State)  : (s.draw).ports = s.ports := rfl
@[simp] theorem State.draw_fabReqs (s : State)  : (s.draw).fabReqs = s.fabReqs := rfl
@[simp] theorem State.draw_pwrSeq (s : State)  : (s.draw).pwrSeq = s.pwrSeq := rfl
@[simp] theorem State.draw_pwr (s : State)  : (s.draw).pwr = s.pwr := rfl
@[simp] theorem State.draw_bist (s : State)  : (s.draw).bist = s.bist := rfl
@[simp] theorem State.draw_msixMask (s : State)  : (s.draw).msixMask = s.msixMask := rfl
@[simp] theorem State.draw_started (s : State)  : (s.draw).started = s.started := rfl
@[simp] theorem State.draw_fget (s : State)  (k : Fld) (j : Nat) : (s.draw).fget k j = s.fget k j := rfl

/-! ## tick -/

@[simp] theorem State.tick_pending (s : State)  : (s.tick).pending = s.pending := rfl
@[simp] theorem State.tick_regs (s : State)  : (s.tick).regs = s.regs := rfl
@[simp] theorem State.tick_mem (s : State)  : (s.tick).mem = s.mem := rfl
@[simp] theorem State.tick_flash (s : State)  : (s.tick).flash = s.flash := rfl
@[simp] theorem State.tick_slots (s : State)  : (s.tick).slots = s.slots := rfl
@[simp] theorem State.tick_out (s : State)  : (s.tick).out = s.out := rfl
@[simp] theorem State.tick_fresh (s : State)  : (s.tick).fresh = s.fresh := rfl
@[simp] theorem State.tick_parts (s : State)  : (s.tick).parts = s.parts := rfl
@[simp] theorem State.tick_jobs (s : State)  : (s.tick).jobs = s.jobs := rfl
@[simp] theorem State.tick_rings (s : State)  : (s.tick).rings = s.rings := rfl
@[simp] theorem State.tick_graphs (s : State)  : (s.tick).graphs = s.graphs := rfl
@[simp] theorem State.tick_mbxs (s : State)  : (s.tick).mbxs = s.mbxs := rfl
@[simp] theorem State.tick_objs (s : State)  : (s.tick).objs = s.objs := rfl
@[simp] theorem State.tick_placements (s : State)  : (s.tick).placements = s.placements := rfl
@[simp] theorem State.tick_changeLog (s : State)  : (s.tick).changeLog = s.changeLog := rfl
@[simp] theorem State.tick_faultLog (s : State)  : (s.tick).faultLog = s.faultLog := rfl
@[simp] theorem State.tick_mtasks (s : State)  : (s.tick).mtasks = s.mtasks := rfl
@[simp] theorem State.tick_ctasks (s : State)  : (s.tick).ctasks = s.ctasks := rfl
@[simp] theorem State.tick_mcores (s : State)  : (s.tick).mcores = s.mcores := rfl
@[simp] theorem State.tick_threads (s : State)  : (s.tick).threads = s.threads := rfl
@[simp] theorem State.tick_ctxs (s : State)  : (s.tick).ctxs = s.ctxs := rfl
@[simp] theorem State.tick_ports (s : State)  : (s.tick).ports = s.ports := rfl
@[simp] theorem State.tick_fabReqs (s : State)  : (s.tick).fabReqs = s.fabReqs := rfl
@[simp] theorem State.tick_pwrSeq (s : State)  : (s.tick).pwrSeq = s.pwrSeq := rfl
@[simp] theorem State.tick_pwr (s : State)  : (s.tick).pwr = s.pwr := rfl
@[simp] theorem State.tick_bist (s : State)  : (s.tick).bist = s.bist := rfl
@[simp] theorem State.tick_msixMask (s : State)  : (s.tick).msixMask = s.msixMask := rfl
@[simp] theorem State.tick_started (s : State)  : (s.tick).started = s.started := rfl
@[simp] theorem State.tick_fget (s : State)  (k : Fld) (j : Nat) : (s.tick).fget k j = s.fget k j := rfl

/-! ## st -/

@[simp] theorem State.st_pending (s : State) (a : Nat) (l : List Byte) : (s.st a l).pending = s.pending := rfl
@[simp] theorem State.st_regs (s : State) (a : Nat) (l : List Byte) : (s.st a l).regs = s.regs := rfl
@[simp] theorem State.st_flash (s : State) (a : Nat) (l : List Byte) : (s.st a l).flash = s.flash := rfl
@[simp] theorem State.st_slots (s : State) (a : Nat) (l : List Byte) : (s.st a l).slots = s.slots := rfl
@[simp] theorem State.st_out (s : State) (a : Nat) (l : List Byte) : (s.st a l).out = s.out := rfl
@[simp] theorem State.st_fresh (s : State) (a : Nat) (l : List Byte) : (s.st a l).fresh = s.fresh := rfl
@[simp] theorem State.st_stamp (s : State) (a : Nat) (l : List Byte) : (s.st a l).stamp = s.stamp := rfl
@[simp] theorem State.st_parts (s : State) (a : Nat) (l : List Byte) : (s.st a l).parts = s.parts := rfl
@[simp] theorem State.st_jobs (s : State) (a : Nat) (l : List Byte) : (s.st a l).jobs = s.jobs := rfl
@[simp] theorem State.st_rings (s : State) (a : Nat) (l : List Byte) : (s.st a l).rings = s.rings := rfl
@[simp] theorem State.st_graphs (s : State) (a : Nat) (l : List Byte) : (s.st a l).graphs = s.graphs := rfl
@[simp] theorem State.st_mbxs (s : State) (a : Nat) (l : List Byte) : (s.st a l).mbxs = s.mbxs := rfl
@[simp] theorem State.st_objs (s : State) (a : Nat) (l : List Byte) : (s.st a l).objs = s.objs := rfl
@[simp] theorem State.st_placements (s : State) (a : Nat) (l : List Byte) : (s.st a l).placements = s.placements := rfl
@[simp] theorem State.st_changeLog (s : State) (a : Nat) (l : List Byte) : (s.st a l).changeLog = s.changeLog := rfl
@[simp] theorem State.st_faultLog (s : State) (a : Nat) (l : List Byte) : (s.st a l).faultLog = s.faultLog := rfl
@[simp] theorem State.st_mtasks (s : State) (a : Nat) (l : List Byte) : (s.st a l).mtasks = s.mtasks := rfl
@[simp] theorem State.st_ctasks (s : State) (a : Nat) (l : List Byte) : (s.st a l).ctasks = s.ctasks := rfl
@[simp] theorem State.st_mcores (s : State) (a : Nat) (l : List Byte) : (s.st a l).mcores = s.mcores := rfl
@[simp] theorem State.st_threads (s : State) (a : Nat) (l : List Byte) : (s.st a l).threads = s.threads := rfl
@[simp] theorem State.st_ctxs (s : State) (a : Nat) (l : List Byte) : (s.st a l).ctxs = s.ctxs := rfl
@[simp] theorem State.st_ports (s : State) (a : Nat) (l : List Byte) : (s.st a l).ports = s.ports := rfl
@[simp] theorem State.st_fabReqs (s : State) (a : Nat) (l : List Byte) : (s.st a l).fabReqs = s.fabReqs := rfl
@[simp] theorem State.st_pwrSeq (s : State) (a : Nat) (l : List Byte) : (s.st a l).pwrSeq = s.pwrSeq := rfl
@[simp] theorem State.st_pwr (s : State) (a : Nat) (l : List Byte) : (s.st a l).pwr = s.pwr := rfl
@[simp] theorem State.st_bist (s : State) (a : Nat) (l : List Byte) : (s.st a l).bist = s.bist := rfl
@[simp] theorem State.st_msixMask (s : State) (a : Nat) (l : List Byte) : (s.st a l).msixMask = s.msixMask := rfl
@[simp] theorem State.st_started (s : State) (a : Nat) (l : List Byte) : (s.st a l).started = s.started := rfl
@[simp] theorem State.st_fget (s : State) (a : Nat) (l : List Byte) (k : Fld) (j : Nat) : (s.st a l).fget k j = s.fget k j := rfl

/-! ## setPart -/

@[simp] theorem State.setPart_pending (s : State) (p : Nat) (g : Partition → Partition) : (s.setPart p g).pending = s.pending := rfl
@[simp] theorem State.setPart_regs (s : State) (p : Nat) (g : Partition → Partition) : (s.setPart p g).regs = s.regs := rfl
@[simp] theorem State.setPart_mem (s : State) (p : Nat) (g : Partition → Partition) : (s.setPart p g).mem = s.mem := rfl
@[simp] theorem State.setPart_flash (s : State) (p : Nat) (g : Partition → Partition) : (s.setPart p g).flash = s.flash := rfl
@[simp] theorem State.setPart_slots (s : State) (p : Nat) (g : Partition → Partition) : (s.setPart p g).slots = s.slots := rfl
@[simp] theorem State.setPart_out (s : State) (p : Nat) (g : Partition → Partition) : (s.setPart p g).out = s.out := rfl
@[simp] theorem State.setPart_fresh (s : State) (p : Nat) (g : Partition → Partition) : (s.setPart p g).fresh = s.fresh := rfl
@[simp] theorem State.setPart_stamp (s : State) (p : Nat) (g : Partition → Partition) : (s.setPart p g).stamp = s.stamp := rfl
@[simp] theorem State.setPart_jobs (s : State) (p : Nat) (g : Partition → Partition) : (s.setPart p g).jobs = s.jobs := rfl
@[simp] theorem State.setPart_rings (s : State) (p : Nat) (g : Partition → Partition) : (s.setPart p g).rings = s.rings := rfl
@[simp] theorem State.setPart_graphs (s : State) (p : Nat) (g : Partition → Partition) : (s.setPart p g).graphs = s.graphs := rfl
@[simp] theorem State.setPart_mbxs (s : State) (p : Nat) (g : Partition → Partition) : (s.setPart p g).mbxs = s.mbxs := rfl
@[simp] theorem State.setPart_objs (s : State) (p : Nat) (g : Partition → Partition) : (s.setPart p g).objs = s.objs := rfl
@[simp] theorem State.setPart_placements (s : State) (p : Nat) (g : Partition → Partition) : (s.setPart p g).placements = s.placements := rfl
@[simp] theorem State.setPart_changeLog (s : State) (p : Nat) (g : Partition → Partition) : (s.setPart p g).changeLog = s.changeLog := rfl
@[simp] theorem State.setPart_faultLog (s : State) (p : Nat) (g : Partition → Partition) : (s.setPart p g).faultLog = s.faultLog := rfl
@[simp] theorem State.setPart_mtasks (s : State) (p : Nat) (g : Partition → Partition) : (s.setPart p g).mtasks = s.mtasks := rfl
@[simp] theorem State.setPart_ctasks (s : State) (p : Nat) (g : Partition → Partition) : (s.setPart p g).ctasks = s.ctasks := rfl
@[simp] theorem State.setPart_mcores (s : State) (p : Nat) (g : Partition → Partition) : (s.setPart p g).mcores = s.mcores := rfl
@[simp] theorem State.setPart_threads (s : State) (p : Nat) (g : Partition → Partition) : (s.setPart p g).threads = s.threads := rfl
@[simp] theorem State.setPart_ctxs (s : State) (p : Nat) (g : Partition → Partition) : (s.setPart p g).ctxs = s.ctxs := rfl
@[simp] theorem State.setPart_ports (s : State) (p : Nat) (g : Partition → Partition) : (s.setPart p g).ports = s.ports := rfl
@[simp] theorem State.setPart_fabReqs (s : State) (p : Nat) (g : Partition → Partition) : (s.setPart p g).fabReqs = s.fabReqs := rfl
@[simp] theorem State.setPart_pwrSeq (s : State) (p : Nat) (g : Partition → Partition) : (s.setPart p g).pwrSeq = s.pwrSeq := rfl
@[simp] theorem State.setPart_pwr (s : State) (p : Nat) (g : Partition → Partition) : (s.setPart p g).pwr = s.pwr := rfl
@[simp] theorem State.setPart_bist (s : State) (p : Nat) (g : Partition → Partition) : (s.setPart p g).bist = s.bist := rfl
@[simp] theorem State.setPart_msixMask (s : State) (p : Nat) (g : Partition → Partition) : (s.setPart p g).msixMask = s.msixMask := rfl
@[simp] theorem State.setPart_started (s : State) (p : Nat) (g : Partition → Partition) : (s.setPart p g).started = s.started := rfl
@[simp] theorem State.setPart_fget (s : State) (p : Nat) (g : Partition → Partition) (k : Fld) (j : Nat) : (s.setPart p g).fget k j = s.fget k j := rfl

/-! ## setMbx -/

@[simp] theorem State.setMbx_pending (s : State) (m : Nat) (g : Mailbox → Mailbox) : (s.setMbx m g).pending = s.pending := rfl
@[simp] theorem State.setMbx_regs (s : State) (m : Nat) (g : Mailbox → Mailbox) : (s.setMbx m g).regs = s.regs := rfl
@[simp] theorem State.setMbx_mem (s : State) (m : Nat) (g : Mailbox → Mailbox) : (s.setMbx m g).mem = s.mem := rfl
@[simp] theorem State.setMbx_flash (s : State) (m : Nat) (g : Mailbox → Mailbox) : (s.setMbx m g).flash = s.flash := rfl
@[simp] theorem State.setMbx_slots (s : State) (m : Nat) (g : Mailbox → Mailbox) : (s.setMbx m g).slots = s.slots := rfl
@[simp] theorem State.setMbx_out (s : State) (m : Nat) (g : Mailbox → Mailbox) : (s.setMbx m g).out = s.out := rfl
@[simp] theorem State.setMbx_fresh (s : State) (m : Nat) (g : Mailbox → Mailbox) : (s.setMbx m g).fresh = s.fresh := rfl
@[simp] theorem State.setMbx_stamp (s : State) (m : Nat) (g : Mailbox → Mailbox) : (s.setMbx m g).stamp = s.stamp := rfl
@[simp] theorem State.setMbx_parts (s : State) (m : Nat) (g : Mailbox → Mailbox) : (s.setMbx m g).parts = s.parts := rfl
@[simp] theorem State.setMbx_jobs (s : State) (m : Nat) (g : Mailbox → Mailbox) : (s.setMbx m g).jobs = s.jobs := rfl
@[simp] theorem State.setMbx_rings (s : State) (m : Nat) (g : Mailbox → Mailbox) : (s.setMbx m g).rings = s.rings := rfl
@[simp] theorem State.setMbx_graphs (s : State) (m : Nat) (g : Mailbox → Mailbox) : (s.setMbx m g).graphs = s.graphs := rfl
@[simp] theorem State.setMbx_objs (s : State) (m : Nat) (g : Mailbox → Mailbox) : (s.setMbx m g).objs = s.objs := rfl
@[simp] theorem State.setMbx_placements (s : State) (m : Nat) (g : Mailbox → Mailbox) : (s.setMbx m g).placements = s.placements := rfl
@[simp] theorem State.setMbx_changeLog (s : State) (m : Nat) (g : Mailbox → Mailbox) : (s.setMbx m g).changeLog = s.changeLog := rfl
@[simp] theorem State.setMbx_faultLog (s : State) (m : Nat) (g : Mailbox → Mailbox) : (s.setMbx m g).faultLog = s.faultLog := rfl
@[simp] theorem State.setMbx_mtasks (s : State) (m : Nat) (g : Mailbox → Mailbox) : (s.setMbx m g).mtasks = s.mtasks := rfl
@[simp] theorem State.setMbx_ctasks (s : State) (m : Nat) (g : Mailbox → Mailbox) : (s.setMbx m g).ctasks = s.ctasks := rfl
@[simp] theorem State.setMbx_mcores (s : State) (m : Nat) (g : Mailbox → Mailbox) : (s.setMbx m g).mcores = s.mcores := rfl
@[simp] theorem State.setMbx_threads (s : State) (m : Nat) (g : Mailbox → Mailbox) : (s.setMbx m g).threads = s.threads := rfl
@[simp] theorem State.setMbx_ctxs (s : State) (m : Nat) (g : Mailbox → Mailbox) : (s.setMbx m g).ctxs = s.ctxs := rfl
@[simp] theorem State.setMbx_ports (s : State) (m : Nat) (g : Mailbox → Mailbox) : (s.setMbx m g).ports = s.ports := rfl
@[simp] theorem State.setMbx_fabReqs (s : State) (m : Nat) (g : Mailbox → Mailbox) : (s.setMbx m g).fabReqs = s.fabReqs := rfl
@[simp] theorem State.setMbx_pwrSeq (s : State) (m : Nat) (g : Mailbox → Mailbox) : (s.setMbx m g).pwrSeq = s.pwrSeq := rfl
@[simp] theorem State.setMbx_pwr (s : State) (m : Nat) (g : Mailbox → Mailbox) : (s.setMbx m g).pwr = s.pwr := rfl
@[simp] theorem State.setMbx_bist (s : State) (m : Nat) (g : Mailbox → Mailbox) : (s.setMbx m g).bist = s.bist := rfl
@[simp] theorem State.setMbx_msixMask (s : State) (m : Nat) (g : Mailbox → Mailbox) : (s.setMbx m g).msixMask = s.msixMask := rfl
@[simp] theorem State.setMbx_started (s : State) (m : Nat) (g : Mailbox → Mailbox) : (s.setMbx m g).started = s.started := rfl
@[simp] theorem State.setMbx_fget (s : State) (m : Nat) (g : Mailbox → Mailbox) (k : Fld) (j : Nat) : (s.setMbx m g).fget k j = s.fget k j := rfl

/-! ## setRing -/

@[simp] theorem State.setRing_pending (s : State) (r : Nat) (g : Ring → Ring) : (s.setRing r g).pending = s.pending := rfl
@[simp] theorem State.setRing_regs (s : State) (r : Nat) (g : Ring → Ring) : (s.setRing r g).regs = s.regs := rfl
@[simp] theorem State.setRing_mem (s : State) (r : Nat) (g : Ring → Ring) : (s.setRing r g).mem = s.mem := rfl
@[simp] theorem State.setRing_flash (s : State) (r : Nat) (g : Ring → Ring) : (s.setRing r g).flash = s.flash := rfl
@[simp] theorem State.setRing_slots (s : State) (r : Nat) (g : Ring → Ring) : (s.setRing r g).slots = s.slots := rfl
@[simp] theorem State.setRing_out (s : State) (r : Nat) (g : Ring → Ring) : (s.setRing r g).out = s.out := rfl
@[simp] theorem State.setRing_fresh (s : State) (r : Nat) (g : Ring → Ring) : (s.setRing r g).fresh = s.fresh := rfl
@[simp] theorem State.setRing_stamp (s : State) (r : Nat) (g : Ring → Ring) : (s.setRing r g).stamp = s.stamp := rfl
@[simp] theorem State.setRing_parts (s : State) (r : Nat) (g : Ring → Ring) : (s.setRing r g).parts = s.parts := rfl
@[simp] theorem State.setRing_jobs (s : State) (r : Nat) (g : Ring → Ring) : (s.setRing r g).jobs = s.jobs := rfl
@[simp] theorem State.setRing_graphs (s : State) (r : Nat) (g : Ring → Ring) : (s.setRing r g).graphs = s.graphs := rfl
@[simp] theorem State.setRing_mbxs (s : State) (r : Nat) (g : Ring → Ring) : (s.setRing r g).mbxs = s.mbxs := rfl
@[simp] theorem State.setRing_objs (s : State) (r : Nat) (g : Ring → Ring) : (s.setRing r g).objs = s.objs := rfl
@[simp] theorem State.setRing_placements (s : State) (r : Nat) (g : Ring → Ring) : (s.setRing r g).placements = s.placements := rfl
@[simp] theorem State.setRing_changeLog (s : State) (r : Nat) (g : Ring → Ring) : (s.setRing r g).changeLog = s.changeLog := rfl
@[simp] theorem State.setRing_faultLog (s : State) (r : Nat) (g : Ring → Ring) : (s.setRing r g).faultLog = s.faultLog := rfl
@[simp] theorem State.setRing_mtasks (s : State) (r : Nat) (g : Ring → Ring) : (s.setRing r g).mtasks = s.mtasks := rfl
@[simp] theorem State.setRing_ctasks (s : State) (r : Nat) (g : Ring → Ring) : (s.setRing r g).ctasks = s.ctasks := rfl
@[simp] theorem State.setRing_mcores (s : State) (r : Nat) (g : Ring → Ring) : (s.setRing r g).mcores = s.mcores := rfl
@[simp] theorem State.setRing_threads (s : State) (r : Nat) (g : Ring → Ring) : (s.setRing r g).threads = s.threads := rfl
@[simp] theorem State.setRing_ctxs (s : State) (r : Nat) (g : Ring → Ring) : (s.setRing r g).ctxs = s.ctxs := rfl
@[simp] theorem State.setRing_ports (s : State) (r : Nat) (g : Ring → Ring) : (s.setRing r g).ports = s.ports := rfl
@[simp] theorem State.setRing_fabReqs (s : State) (r : Nat) (g : Ring → Ring) : (s.setRing r g).fabReqs = s.fabReqs := rfl
@[simp] theorem State.setRing_pwrSeq (s : State) (r : Nat) (g : Ring → Ring) : (s.setRing r g).pwrSeq = s.pwrSeq := rfl
@[simp] theorem State.setRing_pwr (s : State) (r : Nat) (g : Ring → Ring) : (s.setRing r g).pwr = s.pwr := rfl
@[simp] theorem State.setRing_bist (s : State) (r : Nat) (g : Ring → Ring) : (s.setRing r g).bist = s.bist := rfl
@[simp] theorem State.setRing_msixMask (s : State) (r : Nat) (g : Ring → Ring) : (s.setRing r g).msixMask = s.msixMask := rfl
@[simp] theorem State.setRing_started (s : State) (r : Nat) (g : Ring → Ring) : (s.setRing r g).started = s.started := rfl
@[simp] theorem State.setRing_fget (s : State) (r : Nat) (g : Ring → Ring) (k : Fld) (j : Nat) : (s.setRing r g).fget k j = s.fget k j := rfl

/-! ## setMcore -/

@[simp] theorem State.setMcore_pending (s : State) (c : Nat) (g : MCore → MCore) : (s.setMcore c g).pending = s.pending := rfl
@[simp] theorem State.setMcore_regs (s : State) (c : Nat) (g : MCore → MCore) : (s.setMcore c g).regs = s.regs := rfl
@[simp] theorem State.setMcore_mem (s : State) (c : Nat) (g : MCore → MCore) : (s.setMcore c g).mem = s.mem := rfl
@[simp] theorem State.setMcore_flash (s : State) (c : Nat) (g : MCore → MCore) : (s.setMcore c g).flash = s.flash := rfl
@[simp] theorem State.setMcore_slots (s : State) (c : Nat) (g : MCore → MCore) : (s.setMcore c g).slots = s.slots := rfl
@[simp] theorem State.setMcore_out (s : State) (c : Nat) (g : MCore → MCore) : (s.setMcore c g).out = s.out := rfl
@[simp] theorem State.setMcore_fresh (s : State) (c : Nat) (g : MCore → MCore) : (s.setMcore c g).fresh = s.fresh := rfl
@[simp] theorem State.setMcore_stamp (s : State) (c : Nat) (g : MCore → MCore) : (s.setMcore c g).stamp = s.stamp := rfl
@[simp] theorem State.setMcore_parts (s : State) (c : Nat) (g : MCore → MCore) : (s.setMcore c g).parts = s.parts := rfl
@[simp] theorem State.setMcore_jobs (s : State) (c : Nat) (g : MCore → MCore) : (s.setMcore c g).jobs = s.jobs := rfl
@[simp] theorem State.setMcore_rings (s : State) (c : Nat) (g : MCore → MCore) : (s.setMcore c g).rings = s.rings := rfl
@[simp] theorem State.setMcore_graphs (s : State) (c : Nat) (g : MCore → MCore) : (s.setMcore c g).graphs = s.graphs := rfl
@[simp] theorem State.setMcore_mbxs (s : State) (c : Nat) (g : MCore → MCore) : (s.setMcore c g).mbxs = s.mbxs := rfl
@[simp] theorem State.setMcore_objs (s : State) (c : Nat) (g : MCore → MCore) : (s.setMcore c g).objs = s.objs := rfl
@[simp] theorem State.setMcore_placements (s : State) (c : Nat) (g : MCore → MCore) : (s.setMcore c g).placements = s.placements := rfl
@[simp] theorem State.setMcore_changeLog (s : State) (c : Nat) (g : MCore → MCore) : (s.setMcore c g).changeLog = s.changeLog := rfl
@[simp] theorem State.setMcore_faultLog (s : State) (c : Nat) (g : MCore → MCore) : (s.setMcore c g).faultLog = s.faultLog := rfl
@[simp] theorem State.setMcore_mtasks (s : State) (c : Nat) (g : MCore → MCore) : (s.setMcore c g).mtasks = s.mtasks := rfl
@[simp] theorem State.setMcore_ctasks (s : State) (c : Nat) (g : MCore → MCore) : (s.setMcore c g).ctasks = s.ctasks := rfl
@[simp] theorem State.setMcore_threads (s : State) (c : Nat) (g : MCore → MCore) : (s.setMcore c g).threads = s.threads := rfl
@[simp] theorem State.setMcore_ctxs (s : State) (c : Nat) (g : MCore → MCore) : (s.setMcore c g).ctxs = s.ctxs := rfl
@[simp] theorem State.setMcore_ports (s : State) (c : Nat) (g : MCore → MCore) : (s.setMcore c g).ports = s.ports := rfl
@[simp] theorem State.setMcore_fabReqs (s : State) (c : Nat) (g : MCore → MCore) : (s.setMcore c g).fabReqs = s.fabReqs := rfl
@[simp] theorem State.setMcore_pwrSeq (s : State) (c : Nat) (g : MCore → MCore) : (s.setMcore c g).pwrSeq = s.pwrSeq := rfl
@[simp] theorem State.setMcore_pwr (s : State) (c : Nat) (g : MCore → MCore) : (s.setMcore c g).pwr = s.pwr := rfl
@[simp] theorem State.setMcore_bist (s : State) (c : Nat) (g : MCore → MCore) : (s.setMcore c g).bist = s.bist := rfl
@[simp] theorem State.setMcore_msixMask (s : State) (c : Nat) (g : MCore → MCore) : (s.setMcore c g).msixMask = s.msixMask := rfl
@[simp] theorem State.setMcore_started (s : State) (c : Nat) (g : MCore → MCore) : (s.setMcore c g).started = s.started := rfl
@[simp] theorem State.setMcore_fget (s : State) (c : Nat) (g : MCore → MCore) (k : Fld) (j : Nat) : (s.setMcore c g).fget k j = s.fget k j := rfl

/-! ## setMtask -/

@[simp] theorem State.setMtask_pending (s : State) (c : Nat) (g : Task → Task) : (s.setMtask c g).pending = s.pending := rfl
@[simp] theorem State.setMtask_regs (s : State) (c : Nat) (g : Task → Task) : (s.setMtask c g).regs = s.regs := rfl
@[simp] theorem State.setMtask_mem (s : State) (c : Nat) (g : Task → Task) : (s.setMtask c g).mem = s.mem := rfl
@[simp] theorem State.setMtask_flash (s : State) (c : Nat) (g : Task → Task) : (s.setMtask c g).flash = s.flash := rfl
@[simp] theorem State.setMtask_slots (s : State) (c : Nat) (g : Task → Task) : (s.setMtask c g).slots = s.slots := rfl
@[simp] theorem State.setMtask_out (s : State) (c : Nat) (g : Task → Task) : (s.setMtask c g).out = s.out := rfl
@[simp] theorem State.setMtask_fresh (s : State) (c : Nat) (g : Task → Task) : (s.setMtask c g).fresh = s.fresh := rfl
@[simp] theorem State.setMtask_stamp (s : State) (c : Nat) (g : Task → Task) : (s.setMtask c g).stamp = s.stamp := rfl
@[simp] theorem State.setMtask_parts (s : State) (c : Nat) (g : Task → Task) : (s.setMtask c g).parts = s.parts := rfl
@[simp] theorem State.setMtask_jobs (s : State) (c : Nat) (g : Task → Task) : (s.setMtask c g).jobs = s.jobs := rfl
@[simp] theorem State.setMtask_rings (s : State) (c : Nat) (g : Task → Task) : (s.setMtask c g).rings = s.rings := rfl
@[simp] theorem State.setMtask_graphs (s : State) (c : Nat) (g : Task → Task) : (s.setMtask c g).graphs = s.graphs := rfl
@[simp] theorem State.setMtask_mbxs (s : State) (c : Nat) (g : Task → Task) : (s.setMtask c g).mbxs = s.mbxs := rfl
@[simp] theorem State.setMtask_objs (s : State) (c : Nat) (g : Task → Task) : (s.setMtask c g).objs = s.objs := rfl
@[simp] theorem State.setMtask_placements (s : State) (c : Nat) (g : Task → Task) : (s.setMtask c g).placements = s.placements := rfl
@[simp] theorem State.setMtask_changeLog (s : State) (c : Nat) (g : Task → Task) : (s.setMtask c g).changeLog = s.changeLog := rfl
@[simp] theorem State.setMtask_faultLog (s : State) (c : Nat) (g : Task → Task) : (s.setMtask c g).faultLog = s.faultLog := rfl
@[simp] theorem State.setMtask_ctasks (s : State) (c : Nat) (g : Task → Task) : (s.setMtask c g).ctasks = s.ctasks := rfl
@[simp] theorem State.setMtask_mcores (s : State) (c : Nat) (g : Task → Task) : (s.setMtask c g).mcores = s.mcores := rfl
@[simp] theorem State.setMtask_threads (s : State) (c : Nat) (g : Task → Task) : (s.setMtask c g).threads = s.threads := rfl
@[simp] theorem State.setMtask_ctxs (s : State) (c : Nat) (g : Task → Task) : (s.setMtask c g).ctxs = s.ctxs := rfl
@[simp] theorem State.setMtask_ports (s : State) (c : Nat) (g : Task → Task) : (s.setMtask c g).ports = s.ports := rfl
@[simp] theorem State.setMtask_fabReqs (s : State) (c : Nat) (g : Task → Task) : (s.setMtask c g).fabReqs = s.fabReqs := rfl
@[simp] theorem State.setMtask_pwrSeq (s : State) (c : Nat) (g : Task → Task) : (s.setMtask c g).pwrSeq = s.pwrSeq := rfl
@[simp] theorem State.setMtask_pwr (s : State) (c : Nat) (g : Task → Task) : (s.setMtask c g).pwr = s.pwr := rfl
@[simp] theorem State.setMtask_bist (s : State) (c : Nat) (g : Task → Task) : (s.setMtask c g).bist = s.bist := rfl
@[simp] theorem State.setMtask_msixMask (s : State) (c : Nat) (g : Task → Task) : (s.setMtask c g).msixMask = s.msixMask := rfl
@[simp] theorem State.setMtask_started (s : State) (c : Nat) (g : Task → Task) : (s.setMtask c g).started = s.started := rfl
@[simp] theorem State.setMtask_fget (s : State) (c : Nat) (g : Task → Task) (k : Fld) (j : Nat) : (s.setMtask c g).fget k j = s.fget k j := rfl

/-! ## setThread -/

@[simp] theorem State.setThread_pending (s : State) (t : Nat) (g : Thread → Thread) : (s.setThread t g).pending = s.pending := rfl
@[simp] theorem State.setThread_regs (s : State) (t : Nat) (g : Thread → Thread) : (s.setThread t g).regs = s.regs := rfl
@[simp] theorem State.setThread_mem (s : State) (t : Nat) (g : Thread → Thread) : (s.setThread t g).mem = s.mem := rfl
@[simp] theorem State.setThread_flash (s : State) (t : Nat) (g : Thread → Thread) : (s.setThread t g).flash = s.flash := rfl
@[simp] theorem State.setThread_slots (s : State) (t : Nat) (g : Thread → Thread) : (s.setThread t g).slots = s.slots := rfl
@[simp] theorem State.setThread_out (s : State) (t : Nat) (g : Thread → Thread) : (s.setThread t g).out = s.out := rfl
@[simp] theorem State.setThread_fresh (s : State) (t : Nat) (g : Thread → Thread) : (s.setThread t g).fresh = s.fresh := rfl
@[simp] theorem State.setThread_stamp (s : State) (t : Nat) (g : Thread → Thread) : (s.setThread t g).stamp = s.stamp := rfl
@[simp] theorem State.setThread_parts (s : State) (t : Nat) (g : Thread → Thread) : (s.setThread t g).parts = s.parts := rfl
@[simp] theorem State.setThread_jobs (s : State) (t : Nat) (g : Thread → Thread) : (s.setThread t g).jobs = s.jobs := rfl
@[simp] theorem State.setThread_rings (s : State) (t : Nat) (g : Thread → Thread) : (s.setThread t g).rings = s.rings := rfl
@[simp] theorem State.setThread_graphs (s : State) (t : Nat) (g : Thread → Thread) : (s.setThread t g).graphs = s.graphs := rfl
@[simp] theorem State.setThread_mbxs (s : State) (t : Nat) (g : Thread → Thread) : (s.setThread t g).mbxs = s.mbxs := rfl
@[simp] theorem State.setThread_objs (s : State) (t : Nat) (g : Thread → Thread) : (s.setThread t g).objs = s.objs := rfl
@[simp] theorem State.setThread_placements (s : State) (t : Nat) (g : Thread → Thread) : (s.setThread t g).placements = s.placements := rfl
@[simp] theorem State.setThread_changeLog (s : State) (t : Nat) (g : Thread → Thread) : (s.setThread t g).changeLog = s.changeLog := rfl
@[simp] theorem State.setThread_faultLog (s : State) (t : Nat) (g : Thread → Thread) : (s.setThread t g).faultLog = s.faultLog := rfl
@[simp] theorem State.setThread_mtasks (s : State) (t : Nat) (g : Thread → Thread) : (s.setThread t g).mtasks = s.mtasks := rfl
@[simp] theorem State.setThread_ctasks (s : State) (t : Nat) (g : Thread → Thread) : (s.setThread t g).ctasks = s.ctasks := rfl
@[simp] theorem State.setThread_mcores (s : State) (t : Nat) (g : Thread → Thread) : (s.setThread t g).mcores = s.mcores := rfl
@[simp] theorem State.setThread_ctxs (s : State) (t : Nat) (g : Thread → Thread) : (s.setThread t g).ctxs = s.ctxs := rfl
@[simp] theorem State.setThread_ports (s : State) (t : Nat) (g : Thread → Thread) : (s.setThread t g).ports = s.ports := rfl
@[simp] theorem State.setThread_fabReqs (s : State) (t : Nat) (g : Thread → Thread) : (s.setThread t g).fabReqs = s.fabReqs := rfl
@[simp] theorem State.setThread_pwrSeq (s : State) (t : Nat) (g : Thread → Thread) : (s.setThread t g).pwrSeq = s.pwrSeq := rfl
@[simp] theorem State.setThread_pwr (s : State) (t : Nat) (g : Thread → Thread) : (s.setThread t g).pwr = s.pwr := rfl
@[simp] theorem State.setThread_bist (s : State) (t : Nat) (g : Thread → Thread) : (s.setThread t g).bist = s.bist := rfl
@[simp] theorem State.setThread_msixMask (s : State) (t : Nat) (g : Thread → Thread) : (s.setThread t g).msixMask = s.msixMask := rfl
@[simp] theorem State.setThread_started (s : State) (t : Nat) (g : Thread → Thread) : (s.setThread t g).started = s.started := rfl
@[simp] theorem State.setThread_fget (s : State) (t : Nat) (g : Thread → Thread) (k : Fld) (j : Nat) : (s.setThread t g).fget k j = s.fget k j := rfl

/-! ## setPort -/

@[simp] theorem State.setPort_pending (s : State) (p : Nat) (g : Port → Port) : (s.setPort p g).pending = s.pending := rfl
@[simp] theorem State.setPort_regs (s : State) (p : Nat) (g : Port → Port) : (s.setPort p g).regs = s.regs := rfl
@[simp] theorem State.setPort_mem (s : State) (p : Nat) (g : Port → Port) : (s.setPort p g).mem = s.mem := rfl
@[simp] theorem State.setPort_flash (s : State) (p : Nat) (g : Port → Port) : (s.setPort p g).flash = s.flash := rfl
@[simp] theorem State.setPort_slots (s : State) (p : Nat) (g : Port → Port) : (s.setPort p g).slots = s.slots := rfl
@[simp] theorem State.setPort_out (s : State) (p : Nat) (g : Port → Port) : (s.setPort p g).out = s.out := rfl
@[simp] theorem State.setPort_fresh (s : State) (p : Nat) (g : Port → Port) : (s.setPort p g).fresh = s.fresh := rfl
@[simp] theorem State.setPort_stamp (s : State) (p : Nat) (g : Port → Port) : (s.setPort p g).stamp = s.stamp := rfl
@[simp] theorem State.setPort_parts (s : State) (p : Nat) (g : Port → Port) : (s.setPort p g).parts = s.parts := rfl
@[simp] theorem State.setPort_jobs (s : State) (p : Nat) (g : Port → Port) : (s.setPort p g).jobs = s.jobs := rfl
@[simp] theorem State.setPort_rings (s : State) (p : Nat) (g : Port → Port) : (s.setPort p g).rings = s.rings := rfl
@[simp] theorem State.setPort_graphs (s : State) (p : Nat) (g : Port → Port) : (s.setPort p g).graphs = s.graphs := rfl
@[simp] theorem State.setPort_mbxs (s : State) (p : Nat) (g : Port → Port) : (s.setPort p g).mbxs = s.mbxs := rfl
@[simp] theorem State.setPort_objs (s : State) (p : Nat) (g : Port → Port) : (s.setPort p g).objs = s.objs := rfl
@[simp] theorem State.setPort_placements (s : State) (p : Nat) (g : Port → Port) : (s.setPort p g).placements = s.placements := rfl
@[simp] theorem State.setPort_changeLog (s : State) (p : Nat) (g : Port → Port) : (s.setPort p g).changeLog = s.changeLog := rfl
@[simp] theorem State.setPort_faultLog (s : State) (p : Nat) (g : Port → Port) : (s.setPort p g).faultLog = s.faultLog := rfl
@[simp] theorem State.setPort_mtasks (s : State) (p : Nat) (g : Port → Port) : (s.setPort p g).mtasks = s.mtasks := rfl
@[simp] theorem State.setPort_ctasks (s : State) (p : Nat) (g : Port → Port) : (s.setPort p g).ctasks = s.ctasks := rfl
@[simp] theorem State.setPort_mcores (s : State) (p : Nat) (g : Port → Port) : (s.setPort p g).mcores = s.mcores := rfl
@[simp] theorem State.setPort_threads (s : State) (p : Nat) (g : Port → Port) : (s.setPort p g).threads = s.threads := rfl
@[simp] theorem State.setPort_ctxs (s : State) (p : Nat) (g : Port → Port) : (s.setPort p g).ctxs = s.ctxs := rfl
@[simp] theorem State.setPort_fabReqs (s : State) (p : Nat) (g : Port → Port) : (s.setPort p g).fabReqs = s.fabReqs := rfl
@[simp] theorem State.setPort_pwrSeq (s : State) (p : Nat) (g : Port → Port) : (s.setPort p g).pwrSeq = s.pwrSeq := rfl
@[simp] theorem State.setPort_pwr (s : State) (p : Nat) (g : Port → Port) : (s.setPort p g).pwr = s.pwr := rfl
@[simp] theorem State.setPort_bist (s : State) (p : Nat) (g : Port → Port) : (s.setPort p g).bist = s.bist := rfl
@[simp] theorem State.setPort_msixMask (s : State) (p : Nat) (g : Port → Port) : (s.setPort p g).msixMask = s.msixMask := rfl
@[simp] theorem State.setPort_started (s : State) (p : Nat) (g : Port → Port) : (s.setPort p g).started = s.started := rfl
@[simp] theorem State.setPort_fget (s : State) (p : Nat) (g : Port → Port) (k : Fld) (j : Nat) : (s.setPort p g).fget k j = s.fget k j := rfl

/-! ## setPwr -/

@[simp] theorem State.setPwr_pending (s : State) (g : PwrCtl → PwrCtl) : (s.setPwr g).pending = s.pending := rfl
@[simp] theorem State.setPwr_regs (s : State) (g : PwrCtl → PwrCtl) : (s.setPwr g).regs = s.regs := rfl
@[simp] theorem State.setPwr_mem (s : State) (g : PwrCtl → PwrCtl) : (s.setPwr g).mem = s.mem := rfl
@[simp] theorem State.setPwr_flash (s : State) (g : PwrCtl → PwrCtl) : (s.setPwr g).flash = s.flash := rfl
@[simp] theorem State.setPwr_slots (s : State) (g : PwrCtl → PwrCtl) : (s.setPwr g).slots = s.slots := rfl
@[simp] theorem State.setPwr_out (s : State) (g : PwrCtl → PwrCtl) : (s.setPwr g).out = s.out := rfl
@[simp] theorem State.setPwr_fresh (s : State) (g : PwrCtl → PwrCtl) : (s.setPwr g).fresh = s.fresh := rfl
@[simp] theorem State.setPwr_stamp (s : State) (g : PwrCtl → PwrCtl) : (s.setPwr g).stamp = s.stamp := rfl
@[simp] theorem State.setPwr_parts (s : State) (g : PwrCtl → PwrCtl) : (s.setPwr g).parts = s.parts := rfl
@[simp] theorem State.setPwr_jobs (s : State) (g : PwrCtl → PwrCtl) : (s.setPwr g).jobs = s.jobs := rfl
@[simp] theorem State.setPwr_rings (s : State) (g : PwrCtl → PwrCtl) : (s.setPwr g).rings = s.rings := rfl
@[simp] theorem State.setPwr_graphs (s : State) (g : PwrCtl → PwrCtl) : (s.setPwr g).graphs = s.graphs := rfl
@[simp] theorem State.setPwr_mbxs (s : State) (g : PwrCtl → PwrCtl) : (s.setPwr g).mbxs = s.mbxs := rfl
@[simp] theorem State.setPwr_objs (s : State) (g : PwrCtl → PwrCtl) : (s.setPwr g).objs = s.objs := rfl
@[simp] theorem State.setPwr_placements (s : State) (g : PwrCtl → PwrCtl) : (s.setPwr g).placements = s.placements := rfl
@[simp] theorem State.setPwr_changeLog (s : State) (g : PwrCtl → PwrCtl) : (s.setPwr g).changeLog = s.changeLog := rfl
@[simp] theorem State.setPwr_faultLog (s : State) (g : PwrCtl → PwrCtl) : (s.setPwr g).faultLog = s.faultLog := rfl
@[simp] theorem State.setPwr_mtasks (s : State) (g : PwrCtl → PwrCtl) : (s.setPwr g).mtasks = s.mtasks := rfl
@[simp] theorem State.setPwr_ctasks (s : State) (g : PwrCtl → PwrCtl) : (s.setPwr g).ctasks = s.ctasks := rfl
@[simp] theorem State.setPwr_mcores (s : State) (g : PwrCtl → PwrCtl) : (s.setPwr g).mcores = s.mcores := rfl
@[simp] theorem State.setPwr_threads (s : State) (g : PwrCtl → PwrCtl) : (s.setPwr g).threads = s.threads := rfl
@[simp] theorem State.setPwr_ctxs (s : State) (g : PwrCtl → PwrCtl) : (s.setPwr g).ctxs = s.ctxs := rfl
@[simp] theorem State.setPwr_ports (s : State) (g : PwrCtl → PwrCtl) : (s.setPwr g).ports = s.ports := rfl
@[simp] theorem State.setPwr_fabReqs (s : State) (g : PwrCtl → PwrCtl) : (s.setPwr g).fabReqs = s.fabReqs := rfl
@[simp] theorem State.setPwr_pwrSeq (s : State) (g : PwrCtl → PwrCtl) : (s.setPwr g).pwrSeq = s.pwrSeq := rfl
@[simp] theorem State.setPwr_bist (s : State) (g : PwrCtl → PwrCtl) : (s.setPwr g).bist = s.bist := rfl
@[simp] theorem State.setPwr_msixMask (s : State) (g : PwrCtl → PwrCtl) : (s.setPwr g).msixMask = s.msixMask := rfl
@[simp] theorem State.setPwr_started (s : State) (g : PwrCtl → PwrCtl) : (s.setPwr g).started = s.started := rfl
@[simp] theorem State.setPwr_fget (s : State) (g : PwrCtl → PwrCtl) (k : Fld) (j : Nat) : (s.setPwr g).fget k j = s.fget k j := rfl

/-! ## Records after an update -/

@[simp] theorem State.ring_setRing_same (s : State) (r : Nat) (g : Ring → Ring) : (s.setRing r g).ring r = g (s.ring r) := by
  simp [State.ring, State.setRing]

theorem State.ring_setRing_ne (s : State) {q r : Nat} (g : Ring → Ring) (h : q ≠ r) : (s.setRing r g).ring q = s.ring q := by
  simp [State.ring, State.setRing, h]

@[simp] theorem State.ring_fset (s : State) (f : Fld) (i v q : Nat) : (s.fset f i v).ring q = s.ring q := rfl

@[simp] theorem State.part_setPart_same (s : State) (p : Nat) (g : Partition → Partition) : (s.setPart p g).part p = g (s.part p) := by
  simp [State.part, State.setPart]

@[simp] theorem State.part_fset (s : State) (f : Fld) (i v q : Nat) : (s.fset f i v).part q = s.part q := rfl

@[simp] theorem State.mbx_setMbx_same (s : State) (m : Nat) (g : Mailbox → Mailbox) : (s.setMbx m g).mbx m = g (s.mbx m) := by
  simp [State.mbx, State.setMbx]

@[simp] theorem State.mbx_fset (s : State) (f : Fld) (i v m : Nat) : (s.fset f i v).mbx m = s.mbx m := rfl

@[simp] theorem State.mcore_setMcore_same (s : State) (c : Nat) (g : MCore → MCore) : (s.setMcore c g).mcore c = g (s.mcore c) := by
  simp [State.mcore, State.setMcore]

@[simp] theorem State.thread_setThread_same (s : State) (t : Nat) (g : Thread → Thread) : (s.setThread t g).thread t = g (s.thread t) := by
  simp [State.thread, State.setThread]

@[simp] theorem State.port_setPort_same (s : State) (p : Nat) (g : Port → Port) : (s.setPort p g).port p = g (s.port p) := by
  simp [State.port, State.setPort]

theorem State.for'_eq_fset (s : State) (f : Fld) (i m : Nat) : s.for' f i m = s.fset f i (s.fget f i ||| m) := rfl

theorem State.fadd_eq_fset (s : State) (f : Fld) (i n : Nat) : s.fadd f i n = s.fset f i (s.fget f i + n) := rfl

end Sys2Proof.Machine
end

