-- ==== Sys2Proof/Tests/Slice0.lean ====
section
/-! SUPPORT. Tests: ill-formed commands, worked examples of the spec, and states that meet the hypotheses of the statements. -/

namespace Sys2Proof.Tests

open Sys2Proof Sys2Proof.Machine

set_option Elab.async false

/-! ## Commands that are not well formed -/

/-- A frame of a TYPE, its other header bytes zero. -/
def frame (ty : Byte) (payload : List Byte) : Frame := { header := ty :: List.replicate 31 0, payload := payload }

/-- A 32-bit write of a value that needs 33 bits. -/
theorem test_wf_write : (Instr.registerWrite (.pf 0) false ⟨0x100000000, 0⟩).wf = false ∧ (Instr.registerWrite (.pf 0) true ⟨0x100000000, 0⟩).wf = true := by decide

/-- An access of a size and alignment that R9 allows is no BAD_SIZE_ACCESS. -/
theorem test_wf_size : (Instr.badSizeAccess .pf0 8 4 true).wf = false ∧ (Instr.badSizeAccess .pf0 2 4 true).wf = true ∧
    (Instr.badSizeAccess .pf0 0 2 true).wf = true ∧ (Instr.badSizeAccess .pf0 4 8 false).wf = true := by decide

theorem test_wf_jump : (Instr.whorlJump (.mill 0) false 0x100000000).wf = false ∧ (Instr.whorlSeek (.mill 0) false 0x100000000).wf = false := by decide

theorem test_wf_counts : (Instr.imbalanceWindow [(0, 0, 2 ^ 32)]).wf = false ∧ (Instr.imbalanceWindow [(0, 0, 7)]).wf = true := by decide

/-- A frame has a header of 32 bytes and at most 4,096 bytes of payload. -/
theorem test_wf_frame : (Instr.write 0 { header := [], payload := [] }).wf = false ∧ (Instr.write 0 (frame 1 [])).wf = true := by decide

theorem test_wf_config : (Instr.configRequest .pf0 2 none).wf = false ∧ (Instr.configRequest .pf0 4 none).wf = true := by decide

theorem test_wf_mctp : (Instr.mctpMessage 0x80 []).wf = false ∧ (Instr.mctpMessage 0x7E []).wf = true := by decide

theorem test_wf_dpa : (Instr.t1Ue (2 ^ 48) .other).wf = false ∧ (Instr.t2Ue (2 ^ 48) .other).wf = false := by decide

/-! ## States -/

/-- Register fields set one after another. -/
def setf (s : State) (l : List (Fld × Nat × Nat)) : State := l.foldl (fun t e => t.fset e.1 e.2.1 e.2.2) s

/-- A module that has started: link and mill up, every function ready, power state P0. -/
def up : State := { State.reset.fset .glbReadyStatus 0 0x3FFFFFFF with started := true, perst := false }

/-- Partition 0 formed of skein 0. -/
def one : State := ({ up with parts := [(0, { mask := 1 })] } : State).fset .ringPstatusFormed 0 1

/-- A record of a type with the bytes that follow. -/
def rec' (ty : Byte) (rest : List Byte) : Rec := { idx := 5, gen := 0, data := (ty :: rest ++ List.replicate 64 0).take 64 }

/-- Ring 0 of the partition ACTIVE with one record in flight. -/
def ringed (x : Rec) : State := ({ one with rings := [(0, { tail := 6, recs := [x] })] } : State).fset .ringState 0 1

/-- PF offset of a register of ring 0 of partition 0. -/
def ringOff (o : Nat) : Access := .pf (0x1000000 + o)

/-! ## States that meet the hypotheses of the statements: accesses and rings -/

theorem witness_accesses :
    (one.locate (.pf 0) = .reg .glb 0 0 ∧ (up.fset .pwrState 0 4).locate (.pf 0x30000) = .blocked ∧
      up.locate (.mill t2Base) = .mem t2Base ∧ up.locate (.carding 0 mcrBase) = .refused ∧ up.locate (.pf 0x90000) = .unmapped) ∧
    (up.asleep .pf0 = false ∧ sizeBad 2 4 = true ∧ up.fget .pciCtl 0 = 0) ∧ (pfLoc 0xFFFFFF8 = .debug 0x7FFFFF8 ∧ pfLoc 0x110000 = .unmapped ∧
      0x110000 % 8 = 0) := by decide +kernel

/-- Writes of a mailbox slot, of the MSI-X table, and one that is not aligned, by the host and by the mill; a field cleared by ones and one written. -/
theorem witness_register_writes :
    (up.locate (.pf 0x41000) = .slot 64 0x1000 ∧ up.locate (.pf 0x7000C) = .msixTable 0 12 ∧
      accessAt (.pf 0x41000) % 8 = 0 ∧ accessAt (.pf 0x7000C) % 4 = 0) ∧
    (∀ a ∈ [Access.pf 4, .mill (ioBase + 4)], accessAt a % 8 ≠ 0 ∧ up.locate a ≠ .asleep) ∧ up.fget .pciCtl 0 = 0 ∧
    bitField 0xFF 0 Fld.tierStackWashot.width ≠ 0 ∧ up.taken .ftlBglimit 0 0 = some 1 := by decide +kernel

theorem witness_triggers :
    one.trigger (.mill (mcrBase + 0x14)) .mcrFlagSet = some 0 ∧ one.trigger (.carding 0 (mcrBase + 0x18)) .mcrFlagClr = some 0 ∧
    up.trigger (.pf 0xE0008) .vidCoreEn = some 0 ∧ one.trigger (.pf 0x100000) .ringDb = some 0 ∧ one.trigger (.pf 0x10FFC4) .ringCtl = some 1023 := by decide +kernel

/-- Doorbells: the largest step that publishes is the ring's size; one more is out of range. -/
theorem witness_doorbells :
    let s := ringed (rec' 0xF [])
    let held := s.fset .ringState 0 2
    let gone := s.fset .ringState 0 0
    let emptied := s.setRing 0 fun r => { r with disabling := true }
    (s.trigger (.pf 0x100000) .ringDb = some 0 ∧ s.fget .ringState 0 = 1 ∧ (s.ring 0).disabling = false ∧
      (16 + 2 ^ 32 - s.fget .ringHead 0) % 2 ^ 32 = s.ringSlots 0 ∧ 16 ≠ (s.ring 0).tail) ∧
    s.ringSlots 0 < (17 + 2 ^ 32 - s.fget .ringHead 0) % 2 ^ 32 ∧
    (held.trigger (.pf 0x100000) .ringDb = some 0 ∧ held.fget .ringState 0 = 2 ∧ (held.ring 0).disabling = false) ∧
    (gone.trigger (.pf 0x100000) .ringDb = some 0 ∧ gone.fget .ringState 0 = 0) ∧
    (emptied.trigger (.pf 0x100000) .ringDb = some 0 ∧ (emptied.ring 0).disabling = true) := by decide +kernel

theorem witness_ring_controls :
    let s := ringed (rec' 0xF [])
    let gone := one
    let bad := s.fset .ringState 0 3
    (gone.trigger (.pf 0x100004) .ringCtl = some 0 ∧ gone.inQuads 0 gone.quadStop = false ∧ gone.fget .ringState 0 = 0 ∧ gone.formed 0 = true ∧
      (gone.part 0).mask ≠ 0) ∧
    (bad.trigger (.pf 0x100004) .ringCtl = some 0 ∧ bad.inQuads 0 bad.quadStop = false ∧ bad.fget .ringState 0 = 3) ∧
    (s.trigger (.pf 0x100004) .ringCtl = some 0 ∧ s.fget .ringState 0 = 1 ∧ (s.ring 0).recs.filter (s.begun 0) = []) ∧
    (let t := ringed { rec' 0xF [] with started := true }
     t.trigger (.pf 0x100004) .ringCtl = some 0 ∧ t.fget .ringState 0 = 1 ∧ (t.ring 0).recs.filter (t.begun 0) ≠ []) := by decide +kernel

theorem witness_records : ∀ ty ∈ [1, 2, 3, 4, 5, 6, 7, 8, 0xF],
    ((ringed (rec' ty [])).recTurn 0 ty.toNat (rec' ty []) ∧ (rec' ty []).reported = false) ∧
    (let x := rec' ty [8]
     let s := (ringed x).fset .ringStateErr 0 1
     s.nextStart 0 = some x ∧ s.waitsFor (.record 0 x.idx) = false ∧ s.skips 0 x = true ∧ byteAt x.data 0 = ty.toNat) := by
  unfold State.recTurn
  decide +kernel

/-- A SIGNAL_LOCAL on a slot, of the slot's generation and of another. -/
theorem witness_signal :
    let x := rec' 3 (List.replicate 11 0 ++ [1])
    let y := rec' 3 (List.replicate 11 0 ++ [1] ++ List.replicate 18 0 ++ [7])
    ((ringed x).recTurn 0 3 x ∧ byteAt x.data 12 = 1 ∧ (ringed x).fget .ringSlotGen (byteAt x.data 14) = bitField (fld x.data 24 8) 56 8) ∧
    ((ringed y).recTurn 0 3 y ∧ byteAt y.data 12 = 1 ∧ (ringed y).fget .ringSlotGen (byteAt y.data 14) ≠ bitField (fld y.data 24 8) 56 8) := by
  unfold State.recTurn
  decide +kernel

/-- 64 KiB at virtual address 0x10000 of partition 0 lie at DPA 0x100000; the next 64 KiB are DEMAND. -/
def mapped : State := ((one.mapRange 0 0x10000 0x100000 0x10000 true).mapRange 0 0x20000 0x100000 0x10000 true).unmapRange 0 0x20000 0x10000 true

/-- How a read of memory ends: 0 bytes, 1 no translation, 2 it waits. -/
def ended (r : State × XRes) : Nat := match r.2 with
  | .ok _ => 0
  | .bad _ _ => 1
  | .wait _ _ => 2

/-- A ring whose slots start at a virtual address, with one published record not fetched. -/
def fetching (page : Nat) : State := setf ({ mapped with rings := [(0, { tail := 1 })] } : State) [(.ringState, 0, 1), (.ringBase, 0, page)]

theorem witness_fetch : ∀ e ∈ [(0x10, 0), (0x90, 1), (0x20, 2)],
    let s := fetching e.1
    leastRecent (fun p => (s.part p).fetchStamp) ((List.range 64).filter fun p => (List.range 16).any fun r => s.canFetch (16 * p + r)) = some 0 ∧
      s.bestRing (·.fetchStamp) (((List.range 16).map (16 * 0 + ·)).filter s.canFetch) = some 0 ∧ (s.ring 0).replay = [] ∧
      ended (s.vread 0 (s.fget .ringBase 0 * 4096 + 64 * (s.fget .ringHead 0 % s.ringSlots 0)) 64) = e.2 := by decide +kernel

/-- A WAIT on slot 0 that has started, and one with a timeout of 1. -/
def waitRec (timeout : Byte) : Rec := { rec' 5 (List.replicate 11 0 ++ [1] ++ List.replicate 19 0 ++ [timeout]) with started := true }

theorem witness_record_events :
    (let x := { rec' 0xF [] with outcome := some 0 }
     let s := ringed x
     (s.ring 0).recs.find? (fun y => y.idx = 5) = some x ∧ x.outcome = some 0 ∧ s.fget .ringState 0 = 1 ∧ s.waitsFor (.completion 0 5) = false ∧
       s.recovering 0 = false ∧ (s.completeRec 0 x 0).isSome = true) ∧
    (let x := waitRec 1
     let s := ringed x
     s.waiting 0 = some x ∧ s.fget .ringState 0 = 1 ∧ s.waitsFor (.record 0 x.idx) = false ∧ (s.waitCond 0 x.data).2 = .holds ∧ fld x.data 32 4 ≠ 0) ∧
    (let x := { rec' 2 [] with started := true }
     let s := ringed x
     s.watchdogRuns 0 = true ∧ (s.ring 0).recs.find? (s.begun 0) = some x) ∧
    (let s := setf { one with graphs := [{ ring := 0, idx := 5, gen := 0, nodes := [{ data := [], ready := true, ntask := 1 }] }] } [(.ringSched, 0, 5)]
     s.fget .ringSched 0 ≠ 0 ∧ s.ringWaits 0 = true) ∧ one.millUp = true := by decide +kernel

/-- A NOP of a HELD ring that has ended, and a GUILTY ring whose work has stopped. -/
theorem witness_stopped_rings :
    (let x := { rec' 0xF [] with outcome := some 0 }
     let s := (ringed x).fset .ringState 0 2
     (s.ring 0).recs.find? (fun y => y.idx = 5) = some x ∧ s.fget .ringState 0 = 2 ∧ byteAt x.data 0 ≠ 6 ∧ s.waitsFor (.completion 0 5) = false ∧
       s.recovering 0 = false ∧ (s.completeRec 0 x 0).isSome = true) ∧
    (let s := (ringed (rec' 0xF [])).fset .ringState 0 4
     s.millUp = true ∧ s.fget .ringState 0 = 4 ∧ s.ringBusy 0 = false ∧ s.recovering 0 = false) := by decide +kernel

/-- A STREAM node of one task, and a VIDEO descriptor of one picture with its session. -/
def nodeBytes : List Byte := [3, 0, 0, 0, 1] ++ List.replicate 123 0

def vidBytes : List Byte := [1, 0, 0xFF] ++ List.replicate 5 0 ++ [0, 0, 1, 0, 0, 0, 0, 0] ++ List.replicate 4 0 ++ [0x80, 0, 0, 0] ++ [0, 0, 1, 0, 0, 0, 0, 0] ++
  [1, 0] ++ List.replicate 6 0 ++ [0, 2, 1, 0, 0, 0, 0, 0] ++ List.replicate 80 0

def vidSess : VSess := { used := true, isOpen := true, block := List.replicate 16 0 ++ [64, 0, 0, 0] ++ List.replicate 8 0 ++ [16, 0, 1, 0] ++ List.replicate 32 0 }

/-- A GRAPH of one node in an open job. -/
theorem witness_graph_record :
    let x := rec' 1 (List.replicate 15 0 ++ [0, 0, 1, 0, 0, 0, 0, 0, 1])
    let s := ((({ mapped with jobs := [(0, { isOpen := true })], rings := [(0, { tail := 6, recs := [x] })] } : State).st 0x100000 nodeBytes).fset
      .ringState 0 1)
    s.recTurn 0 1 x ∧ (s.engineLoad (s.homeQuad 0)).1 < 64 ∧ (s.engineLoad (s.homeQuad 0)).2 + fld x.data 24 4 ≤ 1048576 ∧
      (s.graphJob 0 x).2 = .inl (some 0) ∧
      ((s.graphJob 0 x).1.readNodes 0 (fld x.data 16 6) (fld x.data 24 4) (fld x.data 24 4) []).2.isLeft = true := by
  unfold State.recTurn
  decide +kernel

/-- A COPY and a STREAM with work allowed, a signal that has been reported, a WAIT that holds and one that does not. -/
theorem witness_record_starts :
    (∀ ty ∈ [2, 7], (ringed (rec' ty [])).recTurn 0 ty.toNat (rec' ty []) ∧ (ringed (rec' ty [])).workAllowed 0 = true) ∧
    (let x := { rec' 3 [] with reported := true }
     (ringed x).recTurn 0 3 x ∧ x.reported = true) ∧
    (∀ e ∈ [(0, WaitRes.holds), (1, WaitRes.no)],
      let x := rec' 5 (List.replicate 11 0 ++ [1] ++ List.replicate 11 0 ++ [e.1])
      (ringed x).recTurn 0 5 x ∧ ((ringed x).waitCond 0 x.data).2 = e.2) := by
  unfold State.recTurn
  decide +kernel

/-- A SIGNAL_PEER to device 5 while no device number is set, and where the module's own is 5 or 6. -/
theorem witness_signal_peer :
    let x := rec' 4 (List.replicate 13 0 ++ [5])
    let s := ringed x
    (s.recTurn 0 4 x ∧ s.writesOpen 0 = false ∧ x.reported = false ∧ s.ownDev = none ∧ fld x.data 14 2 = 5) ∧
    (∀ n ∈ [5, 6],
      let t := setf s [(.flkIdSet, 0, 1), (.flkIdDevnum, 0, n)]
      t.recTurn 0 4 x ∧ t.writesOpen 0 = false ∧ t.ownDev = some n) := by
  unfold State.recTurn
  decide +kernel

/-- A VIDEO record for an open session. -/
theorem witness_video_record :
    let x := rec' 8 (List.replicate 15 0 ++ [0, 0, 1])
    let s := ((({ mapped with vsess := [(0, vidSess)], rings := [(0, { tail := 6, recs := [x] })] } : State).st 0x100000 vidBytes).fset .ringState 0 1)
    s.recTurn 0 8 x ∧ s.workAllowed 0 = true ∧ (s.vread 0 (fld x.data 16 6) 128).2 = .ok vidBytes ∧ (s.vs 0).block = vidSess.block ∧
      s.vidBad 0 vidBytes vidSess = false ∧ vidSess.isOpen = true ∧ vidSess.closing = false ∧ vidSess.gen = 0 ∧ vidSess.part = 0 := by
  unfold State.recTurn
  decide +kernel

/-- A STREAM task is granted, and starts. -/
theorem witness_dispatch :
    let x : Graph := { ring := 0, idx := 5, gen := 0, nodes := [{ data := nodeBytes, ready := true, ntask := 1 }] }
    let s := { one.fset .ringState 0 1 with graphs := [x] }
    let w := s.setGraph 0 5 fun y => y.setNode 0 fun k => { k with slices := [], patch := k.patch ++ [] }
    s.goNodes 0 0 = [(x, 0)] ∧ (s.decideSlices 0 (x.node 0).slices []).2 = .inl (some []) ∧ (w.target 0 nodeBytes 0) = some .stream ∧
      (w.launch 0 0 x 0 0 (x.node 0) .stream []).2 = .done := by decide +kernel

/-! ## Matrix cores -/

/-- Matrix core 0 runs a task of one program. -/
def core (prog : List Tile) : State :=
  setf { one with mtasks := [(0, { active := true })], mcores := [(0, { prog := prog.map Tile.encode })] } [(.mcrStatusBusy, 0, 1)]

/-- The same with changes of the core's own state. -/
def core' (prog : List Tile) (f : MCore → MCore) : State := (core prog).setMcore 0 f

theorem witness_data_instructions :
    ∀ t ∈ [Tile.xfer false 0 0 0 0 1 1 0, .xfer true 0 0 0 0 1 1 0, .tma 0 0 0 3 3 0 0 1 {} {} 0 0 0 0,
        .tch 0 0 1 1 3 3 3 0 0 0 1 1 0 {} 0 0 0 0 0 {}, .trw 0 0 0 0 0, .trw 1 0 0 0 0, .trw 2 0 0 0 0, .trw 3 0 0 0 0,
        .tep 0 0 0 8 0 0 0 0 1, .thx 0 0 0 0 1 1 0, .thx 1 0 0 0 1 1 0],
      let s := core' [t] fun m => { m with running := [.xfer false 0 0 0 0 1 1 0, .trw 1 0 0 0 0, .tma 0 0 0 3 3 0 0 1 {} {} 0 0 0 0].map fun o => { i := { op := o, pc := 0, ars := [] } } }
      s.atTile 0 0 t ∧ ((s.pump 0).mcore 0).illegal t = false ∧ ((s.pump 0).mcore 0).full t = false ∧
        ((s.pump 0).enqueue 0 ((s.pump 0).issuedAt 0 0 t)).coreLive 0 = true := by
  unfold State.atTile
  decide +kernel

/-- 16 transfers wait for the tag of one that runs, and the queue is full; a TCH of 128 key tiles with FP16 rows of 128 needs
more than 4 MiB, of 127 not. -/
theorem witness_full_queues :
    (let t := Tile.xfer false 0 0 0 0 1 1 0
     let i : Issued := { op := t, pc := 0, ars := [] }
     let s := core' [t] fun m => { m with running := [{ i := i }], queue := List.replicate 16 i }
     s.atTile 0 0 t ∧ ((s.pump 0).mcore 0).illegal t = false ∧ (s.pump 0).crowded 0 t = false ∧ ((s.pump 0).mcore 0).full t = true ∧
       (dataRow 0 t).isSome = true) ∧
    (let t := Tile.tch 0 0 1 1 6 6 6 0 0 0 2 128 0 {} 0 0 0 0 0 {}
     let s := core [t]
     s.atTile 0 0 t ∧ (s.pump 0).crowded 0 t = true ∧ (dataRow 0 t).isSome = true ∧
       (s.pump 0).crowded 0 (.tch 0 0 1 1 6 6 6 0 0 0 2 127 0 {} 0 0 0 0 0 {}) = false) := by
  unfold State.atTile
  decide +kernel

theorem witness_bad_tiles :
    (let t := Tile.xfer false 0 0 0 0 1 1 0
     let s := core' [t] fun m => { m with mas := [(0, 8)] }
     s.atTile 0 0 t ∧ SMap.get 0 ((s.pump 0).mcore 0).mas 0 % 64 ≠ 0) ∧
    (let s := (core []).pump 0
     s.coreLive 0 = true ∧ (s.mcore 0).wait = .none ∧ (s.mcore 0).prog[s.fget .mcrPc 0]? = none) ∧
    (let s := core' [] fun m => { m with prog := [0x99] }
     ((s.pump 0).mcore 0).prog[(s.pump 0).fget .mcrPc 0]? = some 0x99 ∧ decodeTile 0x99 = none) := by
  unfold State.atTile
  decide +kernel

theorem witness_tpr :
    (let s := core [.tpr 0 0 1]
     s.atTile 0 0 (.tpr 0 0 1) ∧ ((s.pump 0).mcore 0).queue = [] ∧ ((s.pump 0).mcore 0).running = []) ∧
    (let s := (core [.tpr 7 0 0]).st (coreMem 0) [2]
     s.atTile 0 0 (.tpr 7 0 0) ∧ (if 7 < 4 then pWordOk ((s.pump 0).ld (coreMem 0) 64) else eWordOk ((s.pump 0).ld (coreMem 0) 64)) = true) ∧
    (let s := (core [.tpr 3 0 0]).st (coreMem 0) (List.replicate 64 0xFF)
     s.atTile 0 0 (.tpr 3 0 0) ∧ (if 3 < 4 then pWordOk ((s.pump 0).ld (coreMem 0) 64) else eWordOk ((s.pump 0).ld (coreMem 0) 64)) = false) := by
  unfold State.atTile
  decide +kernel

/-- A loop of one level around a skip, the level open with a count of 3 of which `left` remain. -/
def looped (ts : List Tile) (left pc : Nat) : State :=
  setf (core' ts fun m => { m with loops := [{ lvl := 0, start := 1, count := 3 }] }) [(.mcrLc, 0, left), (.mcrPc, 0, pc)]

theorem witness_loops :
    (let t := Tile.tlp 0 0 (2 ^ 24 - 1) 0 0 0 0 0 0 0 0 0 0
     let z := Tile.tlp 0 1 0 3 7 0 0 0 0 0 0 0 0
     let s := core [t, .tle 0 0 0]
     let r := core [z, .tle 0 0 0]
     s.atTile 0 0 t ∧ 0 = ((s.pump 0).mcore 0).loops.length ∧ r.atTile 0 0 z ∧ ceilDiv ((r.pump 0).fget .mcrLen 3) (64 * 2 ^ 7) = 0 ∧
       closers ((r.pump 0).mcore 0).prog 1 = [1]) ∧
    (∀ left ∈ [2, 1],
      let s := looped [.tlp 0 0 3 0 0 0 0 0 0 0 0 0 0, .tle 0 0 0] left 1
      s.atTile 0 1 (.tle 0 0 0) ∧ ((s.pump 0).mcore 0).loops = [{ lvl := 0, start := 1, count := 3 }] ∧ (s.pump 0).fget .mcrLc 0 - 1 = left - 1) ∧
    (∀ act ∈ [0, 1, 2],
      let t := Tile.tsk 0 0 act 1 0 0
      let s := looped [.tlp 0 0 3 0 0 0 0 0 0 0 0 0 0, t, .tle 0 0 0] 1 1
      let go := s.fset .mcrLen 0 3
      s.atTile 0 1 t ∧ ((s.pump 0).mcore 0).loops.find? (fun x => x.lvl = 0) = some { lvl := 0, start := 1, count := 3 } ∧
        (s.pump 0).fget .mcrLen 0 ≤ 0 + (3 - (s.pump 0).fget .mcrLc 0) * 1 ∧ (closers ((s.pump 0).mcore 0).prog 1)[0]? = some 2 ∧
        go.atTile 0 1 t ∧ 0 + (3 - (go.pump 0).fget .mcrLc 0) * 1 < (go.pump 0).fget .mcrLen 0) := by
  unfold State.atTile
  decide +kernel

theorem witness_waits :
    (let t := Tile.twt 0 0 0 0 0 0
     let f := Tile.twt 0 1 1 0 0 0
     let s := core [t]
     let r := core [f]
     let w := (core' [f] fun m => { m with wait := .twt }).fset .mcrFlags 0 1
     s.atTile 0 0 t ∧ (s.pump 0).twtHolds 0 0 0 0 0 0 = true ∧ r.atTile 0 0 f ∧ (r.pump 0).twtHolds 0 0 1 0 0 0 = false ∧
       (w.pump 0).coreLive 0 = true ∧ ((w.pump 0).mcore 0).wait = .twt ∧ (w.pump 0).fget .mcrPc 0 = 0 ∧
       decodeTile (((w.pump 0).mcore 0).prog.getD 0 0) = some f ∧ (w.pump 0).twtHolds 0 0 1 0 0 0 = true) ∧
    (∀ t ∈ [Tile.tsg 1 1 0 0, .tdf 0 0, .tdf 255 1, .tend],
      let s := core [t]
      s.atTile 0 0 t ∧ ((s.pump 0).mcore 0).settled = true ∧ ((s.pump 0).mcore 0).queue = [] ∧ ((s.pump 0).mcore 0).running = []) := by
  unfold State.atTile
  decide +kernel

/-- A started instruction of core 0. -/
def going (t : Tile) (halo : Nat) : State := core' [t] fun m => { m with running := [{ i := { op := t, pc := 0, ars := [] }, halo := halo }] }

theorem witness_retire :
    (let s := going (.xfer false 15 0 0 0 1 1 0) 0
     s.coreLive 0 = true ∧ (((s.mcore 0).running.find? fun x => x.i.op.tag? = some 15).any fun r => !r.paused && r.halo = 0) = true) ∧
    (∀ arr ∈ [0, 1], ((((going (.tma arr 0 0 3 3 0 0 1 {} {} 0 0 0 0) 0).mcore 0).running.find? fun x => x.i.op.units.contains arr).isSome) = true) ∧
    ((((going (.tep 0 0 0 8 0 0 0 0 1) 0).mcore 0).running.find? fun x => x.i.op.units.contains 2).isSome) = true ∧
    (∀ d ∈ [0, 1], let s := going (.thx d 0 0 0 1 1 0) 1
      s.coreLive 0 = true ∧ ((s.mcore 0).running.map fun r => (r.halo, r.i.op)) = [(1, .thx d 0 0 0 1 1 0)]) := by decide +kernel

/-! ## Tasks, carding threads, lanes -/

/-- Thread 0 of carding core 0 runs the instruction of a word at 0x10000; x11 to x13 hold the values given. -/
def thread (w : Nat) (x11 x12 x13 : Nat) : State :=
  setf ((({ mapped with ctasks := [(0, { active := true })], threads := [(0, { x := [(11, x11), (12, x12), (13, x13)] })] } : State).st 0x100000
    (toBytes 4 w))) [(.crdPc, 0, 0x10000)]

/-- The state after the fetch of that instruction. -/
def fetched (s : State) : State := (s.cfetch 0 0x10000).1

/-- The turn of a row's instruction has come. -/
def cardTurn (s : State) (row : CRow) (w : Nat) : Bool :=
  s.threadLive 0 && decide (s.fget .crdPc 0 = 0x10000 ∧ (s.cfetch 0 0x10000).2 = .inr (some w, 4) ∧ rowOf w = some row)

theorem cardTurn_at {s : State} {row : CRow} {w : Nat} (h : cardTurn s row w = true) : s.atCard 0 row (fetched s) 0x10000 4 w := by
  simp only [cardTurn, Bool.and_eq_true, decide_eq_true_eq] at h
  obtain ⟨h1, h2, h3, h4⟩ := h
  exact ⟨h1, h2, Prod.ext rfl h3, h4⟩

theorem witness_tasks :
    (let x : Graph := { ring := 0, idx := 5, gen := 0, nodes := [{ data := 1 :: List.replicate 63 0, ready := true, resolved := true, ntask := 1 }] }
     let s := { one.fset .ringState 0 1 with graphs := [x] }
     let rings (p : Nat) : List Nat := ((List.range 16).map (16 * p + ·)).filter fun g => s.mayDispatch p g && !(s.goNodes p g).isEmpty
     leastRecent (fun p => (s.part p).dispStamp) ((List.range 64).filter fun p => s.formed p && s.homeQuad p = 0 && !(rings p).isEmpty) = some 0 ∧
       s.bestRing (·.dispStamp) (rings 0) = some 0 ∧ s.goNodes 0 0 = [(x, 0)]) ∧
    (let s := { one with mtasks := [(511, { active := true, outcome := some 3 })], ctasks := [(16383, { active := true, outcome := some 0 })] }
     (s.mtask 511).active = true ∧ (s.mtask 511).outcome = some 3 ∧ (s.ctask 16383).active = true ∧ (s.ctask 16383).outcome = some 0) ∧
    (let s := setf { ringed (rec' 1 []) with jobs := [(0, { isOpen := true })] } [(.strmPModeClass, 0, 1)]
     s.serving 0 = true ∧ s.frozen 0 = false ∧ s.atBoundary 0 = some true ∧ s.switchTo 0 true = some 0 ∧ s.t0Chains 0 = false ∧ s.activeJob 0 = none) ∧
    ({ one with switching := [(0, 15, 7)] } : State).switching.find? (fun x => x.1 = 0) = some (0, 15, 7) := by decide +kernel

/-- ADDI x10, x11, -1; LD x10, 8(x11); SD x12, 8(x11) on the last bytes of the mapping; ECALL; EBREAK. -/
theorem witness_carding :
    cardTurn (thread 0xFFF58513 5 0 0) .ordinary 0xFFF58513 = true ∧ 0xFFF58513 % 128 = 0x13 ∧ bitField 0xFFF58513 12 3 = 0 ∧
    (let s := thread 0x0085B503 0x1FFF0 0 0
     cardTurn s .ordinary 0x0085B503 = true ∧ 0x0085B503 % 128 = 0x03 ∧ bitField 0x0085B503 12 3 = 3 ∧
       ((fetched s).cread 0 0x1FFF8 8).2 = .ok (List.replicate 8 0)) ∧
    (let s := thread 0x00C5B423 0x1FFF0 7 0
     cardTurn s .ordinary 0x00C5B423 = true ∧ 0x00C5B423 % 128 = 0x23 ∧ bitField 0x00C5B423 12 3 = 3 ∧
       ((fetched s).cwrite 0 0x1FFF8 (toBytes 8 7)).2 = .ok []) ∧
    (let s := thread 0x73 0 0 0
     cardTurn s .ecall 0x73 = true ∧ ((fetched s).thread 0).rx 10 = 0) ∧
    (let s := (thread 0x73 0 0 0).setThread 0 fun h => h.wx 10 1
     cardTurn s .ecall 0x73 = true ∧ ((fetched s).thread 0).rx 10 ≠ 0) ∧
    (let s := thread 0x00100073 0 0 0
     let d := setf s [(.secDbgApplied, 0, 2), (.secDbgJtag, 0, 1)]
     cardTurn s .ebreak 0x00100073 = true ∧ (fetched s).fget .secDbgApplied 0 ≠ 2 ∧ cardTurn d .ebreak 0x00100073 = true ∧
       (fetched d).fget .secDbgApplied 0 = 2 ∧ (fetched d).fget .secDbgJtag 0 = 1) := by decide +kernel

/-- Words of custom-0: rs2 = x12, rs1 = x11, rd = x10. -/
def xcard (f3 f7 : Nat) : Nat := 0x0B + 10 * 2 ^ 7 + f3 * 2 ^ 12 + 11 * 2 ^ 15 + 12 * 2 ^ 20 + f7 * 2 ^ 25

/-- The flag instructions on core 7 with all 16 flags, without and with a hand-off open; then core 8, and a mask of 17 bits. -/
theorem witness_flags :
    (∀ r ∈ [(CRow.fset, 0), (.fclr, 1), (.frd, 3), (.fwait, 2)],
      let s := thread (xcard r.2 0) 7 0xFFFF 0
      let busy : State := { s with handoffs := [{ thread := 0, desc := [] }] }
      (cardTurn s r.1 (xcard r.2 0) = true ∧ ((fetched s).thread 0).rx 11 = 7 ∧ ((fetched s).thread 0).rx 12 = 0xFFFF ∧ (fetched s).handsOff 0 = false) ∧
        cardTurn busy r.1 (xcard r.2 0) = true ∧ (fetched busy).handsOff 0 = true) ∧
    (∀ r ∈ [(CRow.fset, 0), (.fclr, 1), (.frd, 3), (.fwait, 2)],
      let s := thread (xcard r.2 0) 8 0 0
      let m := thread (xcard r.2 0) 0 0x10000 0
      cardTurn s r.1 (xcard r.2 0) = true ∧ 7 < ((fetched s).thread 0).rx 11 ∧
        cardTurn m r.1 (xcard r.2 0) = true ∧ 0xFFFF < ((fetched m).thread 0).rx 12) := by
  decide +kernel

/-- FWAIT on core 7 for flags 0 and 1, with both set and with one; a thread that waits for both, set. -/
theorem witness_fwait :
    (let s := (thread (xcard 2 0) 7 3 0).fset .mcrFlags 7 3
     let r := (thread (xcard 2 0) 7 3 0).fset .mcrFlags 7 1
     cardTurn s .fwait (xcard 2 0) = true ∧ (fetched s).fget .mcrFlags 7 &&& 3 = 3 ∧
       cardTurn r .fwait (xcard 2 0) = true ∧ (fetched r).fget .mcrFlags 7 &&& 3 ≠ 3) ∧
    (let s := ((thread (xcard 2 0) 7 3 0).fset .mcrFlags 7 3).setThread 0 fun h => { h with wait := .flags 7 3 10 }
     (s.thread 0).wait = .flags 7 3 10 ∧ (s.ctask 0).active = true ∧ s.frozen (s.threadPart 0) = false ∧ s.fget .mcrFlags 7 &&& 3 = 3) := by
  decide +kernel

/-- A hand-off of one row of one line to core 7, a get (0) or a put (1); a put meets the deckle window of that core, 16 KiB at 0. -/
def handDesc (put : Byte) : List Byte := List.replicate 16 0 ++ [1, 0, 1, 0, 7, put, 255] ++ List.replicate 41 0

theorem witness_handoffs :
    let s (d : List Byte) := (thread (xcard 4 0) (localWindow + 64) 0 0).st (localMem 0 + 64) d
    let go (d : List Byte) (u : State) : Bool := cardTurn u .tho (xcard 4 0) && decide (((fetched u).thread 0).rx 11 = localWindow + 64 ∧
      (fetched u).ld (localMem 0 + 64) 64 = d)
    let h : Handoff := { thread := 0, desc := handDesc 0 }
    (go (handDesc 0) (s (handDesc 0)) = true ∧ handoffOk (handDesc 0) = true ∧ (fetched (s (handDesc 0))).handoffInWindow 0 (handDesc 0) = false ∧
      (fetched (s (handDesc 0))).handoffs = []) ∧
    (go (handDesc 2) (s (handDesc 2)) = true ∧ handoffOk (handDesc 2) = false) ∧
    (let u := (s (handDesc 1)).fset .mcrDeckleSize 7 1
     go (handDesc 1) u = true ∧ handoffOk (handDesc 1) = true ∧ (fetched u).handoffInWindow 0 (handDesc 1) = true) ∧
    (let u : State := { s (handDesc 0) with handoffs := List.replicate 8 h }
     go (handDesc 0) u = true ∧ (fetched u).handoffInWindow 0 (handDesc 0) = false ∧
       ((fetched u).handoffs.filter fun x => x.thread / 8 = 0 && !x.done).length = 8) ∧
    (let u := thread (xcard 4 0) (localWindow + 1) 0 0
     cardTurn u .tho (xcard 4 0) = true ∧ ((fetched u).thread 0).rx 11 % 64 ≠ 0) ∧
    (let u := thread (xcard 5 0) 0 0 0
     let v : State := { u with handoffs := [h] }
     cardTurn u .twait (xcard 5 0) = true ∧ (fetched u).handsOff 0 = false ∧ cardTurn v .twait (xcard 5 0) = true ∧ (fetched v).handsOff 0 = true) ∧
    (({ one with handoffs := List.replicate 8 h } : State).handoffs.filter fun x => x.thread / 8 = 0 && !x.done)[7]? = some h := by decide +kernel

/-- The statistics instructions on accumulator 3 with the last record of the mapping; accumulator 4, an address that is no multiple of 64, and a
record that is not well formed. -/
theorem witness_statistics :
    (∀ f ∈ [(CRow.stclr, 0), (.stsave, 1), (.stmerge, 2), (.stfin, 3)],
      let s := thread (xcard 6 f.2) 0x1FF40 3 0
      let r := thread (xcard 6 f.2) 0x1FF41 4 0
      cardTurn s f.1 (xcard 6 f.2) = true ∧ ((fetched s).thread 0).rx 12 = 3 ∧ ((fetched s).thread 0).rx 11 % 64 = 0 ∧
        cardTurn r f.1 (xcard 6 f.2) = true ∧ 3 < ((fetched r).thread 0).rx 12 ∧ ((fetched r).thread 0).rx 11 % 64 ≠ 0) ∧
    (let s := thread (xcard 6 2) 0x1FF40 3 0
     let b : List Byte := List.replicate 8 0 ++ [16] ++ List.replicate 183 0
     ((fetched s).cwrite 0 0x1FF40 (List.replicate 192 1)).2 = .ok [] ∧ ((fetched s).cwrite 0 0x1FF41 (List.replicate 8 1)).2 = .ok [] ∧
       ((fetched s).cread 0 0x1FF40 192).2 = .ok (List.replicate 192 0) ∧ (statOf (List.replicate 192 0)).isSome = true ∧
       ((fetched (s.st 0x10FF48 [16])).cread 0 0x1FF40 192).2 = .ok b ∧ statOf b = none) := by decide +kernel

/-- A vector word of custom-1 with FN and funct3; vs2 = v8, rs1 or vs1 = x11 or v11, vd = v4; unmasked. -/
def xvec (f3 fn : Nat) : Nat := 0x2B + 4 * 2 ^ 7 + f3 * 2 ^ 12 + 11 * 2 ^ 15 + 8 * 2 ^ 20 + 2 ^ 25 + fn * 2 ^ 26

/-- A thread with LMUL 1, vl 4, SEW code `sew`, and x11. -/
def vthread (w sew x11 : Nat) : State := (thread w x11 0 0).setThread 0 fun h => { h with vtype := sew * 8, vl := 4 }

/-- With SEW 32 the operands are legal, with SEW 16 not; the lane is the last one, 63. -/
theorem witness_vectors : ∀ e ∈ [(CRow.vsf, 1, [8], true), (.vfba, 2, [8, 11], true), (.vcvt, 3, [8], true), (.vrnd, 0, [], true), (.vstat, 4, [8], false)],
    let s := vthread (xvec e.2.1 0) 2 63
    let r := vthread (xvec e.2.1 0) 1 63
    cardTurn s e.1 (xvec e.2.1 0) = true ∧ (xvc ((fetched s).thread 0) (xvec e.2.1 0) e.2.2.1 e.2.2.2).isSome = true ∧
      cardTurn r e.1 (xvec e.2.1 0) = true ∧ xvc ((fetched r).thread 0) (xvec e.2.1 0) e.2.2.1 e.2.2.2 = none := by decide +kernel

/-- Draws of VRND, and of VCVT under RND: with nothing ahead at the lane, behind a command, and of a lane that is none. -/
theorem witness_draws :
    let behind (s : State) : State := { s with whorlCmds := [{ skein := 0, lane := 63, seek := false, count := 1 }] }
    (∀ e ∈ [(CRow.vrnd, xvec 0 0, []), (.vcvt, xvec 3 16, [8])],
      let s := vthread e.2.1 2 63
      cardTurn s e.1 e.2.1 = true ∧ (xvc ((fetched s).thread 0) e.2.1 e.2.2 true).isSome = true ∧ ((fetched s).thread 0).rx 11 = 63 ∧
        (fetched s).lanePending 0 63 1 = false ∧ cardTurn (behind s) e.1 e.2.1 = true ∧ (fetched (behind s)).lanePending 0 63 1 = true) ∧
    bitAt (xvec 3 16) 30 = true ∧
    (let s := vthread (xvec 0 0) 2 64
     cardTurn s .vrnd (xvec 0 0) = true ∧ (xvc ((fetched s).thread 0) (xvec 0 0) [] true).isSome = true ∧ 64 ≤ ((fetched s).thread 0).rx 11) := by
  decide +kernel

/-- A sort request of one FP16 key, of its keys alone; 8 requests, and an address that is no multiple of 64. -/
theorem witness_sort :
    let d : List Byte := List.replicate 24 0 ++ [1, 0, 0, 0, 1, 0, 6, 2] ++ List.replicate 32 0
    let s := (thread (xcard 7 0) 0x10040 0 0).st 0x100040 d
    let r : SortReq := { skein := 0, thread := 0, va := 0x10040, data := toBytes 8 0x10080 ++ toBytes 8 0x100C0 ++ d.drop 16 }
    let q := { thread 0 0 0 0 with sorts := [r] }
    (cardTurn s .sort (xcard 7 0) = true ∧ ((fetched s).sorts.filter fun r => r.skein = 0).length < 8 ∧ ((fetched s).cread 0 0x10040 64).2 = .ok d ∧
      (((fetched s).cread 0 0x10040 64).1.cwrite 0 0x10064 (List.replicate 4 0xFF)).2 = .ok []) ∧
    (let full : State := { s with sorts := List.replicate 8 r }
     cardTurn full .sort (xcard 7 0) = true ∧ ((fetched full).sorts.filter fun r => r.skein = 0).length = 8) ∧
    (let odd := thread (xcard 7 0) 0x10041 0 0
     cardTurn odd .sort (xcard 7 0) = true ∧ ((fetched odd).thread 0).rx 11 % 64 ≠ 0) ∧
    (q.sorts.find? (fun r => r.skein = (0 : Fin 64).val) = some r ∧ q.waitsFor (.sort 0) = false ∧ r.writes = none ∧ sortBad r.data = false ∧
      (q.cread 0 0x10080 2).2 = .ok [0, 0]) ∧
    sortBad (List.replicate 64 0) = true ∧ (q.cwrite 0 0x100C0 [0, 0]).2 = .ok [] := by decide +kernel

/-- The largest command of the last lane is the oldest with no draw ahead; a window of 1,024 equal bits fails, of alternating bits passes, and one
whose first 11 bits go on a run of 30 fails. -/
theorem witness_lanes :
    up.trigger (.mill (sknBase + 0x8000)) .sknWhorlCmdLane = some 0 ∧
    (∀ seek ∈ [true, false],
      let c : WhorlCmd := { skein := 63, lane := 63, seek := seek, count := 2 ^ 56 - 1 }
      whorlNext (63 : Fin 64).val [] ({ up with whorlCmds := [{ c with lane := 62, draw := 1 }, c] } : State).whorlCmds = some c) ∧
    up.noiseFailed = false ∧ up.windowOk 0 = false ∧ up.windowOk ((2 ^ 1024 - 1) / 3) = true ∧
    ({ up with noiseRun := 30, noiseBit := true } : State).windowOk ((2 ^ 1024 - 1) / 3 ||| (2 ^ 11 - 1)) = false ∧
    up.noiseBad < 2 ∧ 2 ≤ ({ up with noiseBad := 2 } : State).noiseBad := by decide +kernel

/-! ## Streams, translation, flash, video -/

/-- Partition 0 has an active training job, of ring 0. -/
def training : State := { one with jobs := [(0, { isOpen := true })] }

/-- Context 0 of engine 0 runs a descriptor that it has read. -/
def chained (d : List Byte) (issued : Bool) : State := { mapped with ctxs := [(0, { busy := true, desc := d, issued := issued })] }

/-- A MOVE of one line from 0x10000 to 0x10040. -/
def moveDesc : List Byte := [1, 0, 0, 0xFF, 1, 0, 1, 0, 1, 0, 0, 0] ++ List.replicate 16 0 ++ [0, 0, 1, 0, 0, 0] ++ [0x40, 0, 1, 0, 0, 0] ++ List.replicate 24 0

/-- Descriptors of context 0: the MOVE; one that is malformed, or names no operation; a BARSET that is malformed or not, without a job, and with
one whose barrier 0 is then short of EXP or full; an issued MOVE; one with a status block. -/
theorem witness_descriptors :
    (let s := chained moveDesc false
     s.ctxRuns 0 = true ∧ (s.fetchDesc 0).2 = true ∧ byteAt moveDesc 0 = 1 ∧ (s.ctx 0).go = false ∧ s.mvBad 0 moveDesc = false ∧
       (s.ssbReady 0 moveDesc).2 = some true ∧ deckSsb moveDesc = 0 ∧ (((s.noteGrant 0).noteMerge 0).moveLine 0).2 = .none) ∧
    (let d := moveDesc.set 46 64 |>.set 48 1
     let s := chained d true
     (s.ctx 0).busy = true ∧ (s.ctx 0).ended = none ∧ (s.ctx 0).issued = true ∧ (s.ssbReady 0 d).2 = some true) ∧
    mapped.mvBad 0 (moveDesc.set 11 1) = true ∧ (chained (moveDesc.set 11 1) false).ctxRuns 0 = true ∧
    (∀ d ∈ [[3], [2, 2], 2 :: List.replicate 63 0], (chained d false).ctxRuns 0 = true ∧ ((chained d false).fetchDesc 0).2 = true) ∧
    barsetBad [2, 2] = true ∧ barsetBad (2 :: List.replicate 63 0) = false ∧ (chained (2 :: List.replicate 63 0) false).activeJob 0 = none ∧
    (let s := { chained (2 :: List.replicate 63 0) false with jobs := [(0, { isOpen := true })] }
     let full (exp count : Nat) : Bool :=
       let v := s.setBarrier 0 0 fun q => { q with exp := exp, step := false, count := count }
       let q : Barrier := SMap.get {} (v.job 0).barriers 0
       decide (v.barExp 0 q ≤ q.count)
     s.activeJob 0 = some 0 ∧ full 2 1 = false ∧ full 2 2 = true) := by decide +kernel

/-- An arrival at barrier 255, the last one or not. -/
theorem witness_arrivals :
    let s := training.setBarrier 0 255 fun q => { q with exp := 2 }
    s.trigger (.carding 0 (ioBase + 0x11004)) .strmPArrive = some 0 ∧ s.activeJob 0 = some 0 ∧
    (∀ n ∈ [0, 1], let v := (s.setBarrier 0 255 fun q => { q with count := n }).setBarrier 0 255 fun x => { x with count := x.count + 1 }
      let x : Barrier := SMap.get {} (v.job 0).barriers 255
      (v.barExp 0 x ≤ x.count ↔ n = 1)) := by decide +kernel

/-- Waits of the last context; a slice whose deadline is now; a pending slice of each fallback, with and without SHADOW_ALLOW. -/
theorem witness_streams :
    (let w : TransWait := ⟨.stream 543, 0, 0, false, .demand⟩
     ({ one with waits := [w] } : State).waits.find? (fun w => w.req == .stream (136 * (3 : Fin 4).val + (135 : Fin 136).val)) = some w) ∧
    (let s := chained ((moveDesc.set 1 1).set 47 1) false
     let t : State := { s with late := [(0, 0x100)] }
     s.formed 0 = true ∧ s.sliceLate 0 0x100 = true ∧ s.late.contains (0, 0x100) = false ∧ t.sliceLate 0 0x100 = true ∧ t.late.contains (0, 0x100) = true) ∧
    (let q : SliceReq := { part := 0, ssb := 0x10000, slice := 0, time := 0 }
     let s := ({ mapped with slices := [q] } : State).st 0x100000 [0xFF]
     let a := s.fset .strmPModeSa 0 1
     let b := a.st 0x100002 [1]
     s.slices.find? (fun q => q.part = 0 && q.ssb = 0x10000 && !q.held) = some q ∧ s.ssbRead 0 0x10000 0 1 = 0xFF ∧ s.fget .strmPModeSa 0 ≠ 1 ∧
       a.fget .strmPModeSa 0 = 1 ∧ a.ssbRead 0 0x10000 2 1 ≠ 1 ∧ a.ssbRead 0 0x10000 0 1 = 0xFF ∧ b.ssbRead 0 0x10000 2 1 = 1 ∧
       b.ssbRead 0 0x10000 0 1 = 0xFF) := by decide +kernel

theorem witness_translation :
    (let m : PMap := { va := 0x20000, size := 0x10000, obj := 0, tier := 1, copy := 0 }
     let c : Copy := { id := 0, tier := 1, version := 0, base := 0x100000, placement := 0, refs := [{ part := 0 }] }
     let s := ({ mapped with objs := [(0, { used := true, bytes := 0x10000, copies := [c] })] } : State).setPart 0 fun q => { q with maps := [m] }
     s.millUp = true ∧ s.flashDown = false ∧ (s.serveDemand 0 0x20000).2 = true ∧ (mapped.serveDemand 0 0x20000).2 = false) ∧
    (let s := one.putLeaf 0 0x10000 3 (leafEntry 0x70000000 true + 8)
     s.translate 0 0x10008 true = .ats 0x70000000 ∧ WaitKind.ats.onHost = true ∧ (WaitKind.pri 511).onHost = true) ∧
    (let w : TransWait := ⟨.fetch 1023, 63, 0, false, .pri 511⟩
     ({ one with waits := [w] } : State).waits[0]? = some w ∧ ({ one with waits := [w] } : State).priWait (funcNum (.vf 63)) 511 = some w) ∧
    one.priWait (funcNum .pf0) 0 = none ∧ ((one.waits[5]?).all fun x => !x.kind.onHost) = true := by decide +kernel

/-- While the flash store is down, a page that needs no flash is served; the refill of a T2 page waits. -/
theorem witness_served_without_flash :
    (let m : PMap := { va := 0x20000, size := 0x10000, obj := 0, tier := 1, copy := 0 }
     let c : Copy := { id := 0, tier := 1, version := 0, base := 0x100000, placement := 0, refs := [{ part := 0 }] }
     let o : Obj := { used := true, bytes := 0x10000, copies := [c] }
     let s := (({ mapped with objs := [(0, o)] } : State).setPart 0 fun q => { q with maps := [m] }).fset .glbReadyStatus 0 0x3FFF7FFF
     s.millUp = true ∧ s.flashDown = true ∧
       (∀ x ∈ (s.part 0).maps, x.va ≤ 0x20000 → 0x20000 < x.va + x.size → s.needsFlash 0 x.obj (if x.tier = 3 then 1 else x.tier) = false) ∧
       (s.serveDemand 0 0x20000).2 = true) ∧
    (let w : TransWait := ⟨.stream 0, 0, 0, false, .refill t2Base⟩
     ({ one with waits := [w] } : State).waits[0]? = some w ∧ one.millUp = true) := by decide +kernel

theorem witness_flash :
    (let s := up.fset .ftlStatusState 0 1
     ({ s with committing := true } : State).committing = true ∧ up.fget .ftlStatusState 0 = 0 ∧ bitAt (up.fget .glbReadyStatus 0) 14 = true ∧
       (true && up.fget .ftlStatusDirtystart 0 = 1 && up.journal.isSome) = false ∧ s.ftlRuns = true ∧ s.flashLost.testBit 15 = false ∧ s.flashStale = 0 ∧
       s.fget .ftlStatusState 0 ≠ 0 ∧ s.fget .ftlStatusState 0 ≠ 4) ∧
    (let s := setf up [(.ftlStatusState, 0, 2), (.ftlStatusRebuild, 0, 1)]
     s.ftlRuns = true ∧ s.fget .ftlStatusRebuild 0 ≠ 0 ∧ s.flashTwice = false ∧ s.fget .ftlStatusState 0 = 2) ∧
    ({ up with flashLost := 0x8000 } : State).flashLost.testBit 15 = true := by decide +kernel

/-- A video job of a kind (1 decode, 2 encode, 3 decode without slots), and a frame that starts on core 23. -/
def vidJob (kind : Byte) : VideoJob := { ring := 0, idx := 5, gen := 0, desc := kind :: List.replicate 63 0 }

def frameInfo : FrameInfo := { (default : FrameInfo) with width := 64, height := 64, codedBytes := 16, slot := some 0, cleanStart := true }

def vidFrame : VFrame := { (default : VFrame) with core := 23, cores := [23], ring := 0, idx := 5, info := frameInfo }

def filmed (kind : Byte) (f : VFrame) : State :=
  { one with videos := [vidJob kind], vframes := [f], vsess := [(0, { used := true, isOpen := true, block := List.replicate 64 0 })] }

/-- A job whose frame can start; a frame whose input comes and one that runs; no job of a frame; a stopping job's; a drain; a core with and
without a frame. -/
theorem witness_video :
    (∀ kind ∈ [1, 2],
      let s := ({ filmed kind vidFrame with vframes := [] } : State)
      s.vidDrain = false ∧ s.fget .pwrStateStage 0 = 0 ∧ (s.vidNext frameInfo).isSome = true ∧
        (∀ ph ∈ [0, 1],
          let f := { vidFrame with phase := ph }
          (filmed kind f).frameOn 23 = some f ∧ (filmed kind f).vidJob 0 5 = some (vidJob kind) ∧ (vidJob kind).stopping = false ∧
            (filmed kind f).waitsFor (.video 23) = false)) ∧
    (let s := ({ filmed 1 vidFrame with videos := [] } : State)
     s.frameOn 23 = some vidFrame ∧ s.vidJob 0 5 = none) ∧
    (let j := { vidJob 3 with stopping := true }
     let s := ({ filmed 3 vidFrame with videos := [j] } : State).fset .ringState 0 4
     s.frameOn 23 = some vidFrame ∧ s.vidJob 0 5 = some j ∧ stopSlot vidFrame j.desc = none ∧ s.waits = [] ∧ s.fget .ringState vidFrame.ring = 4 ∧
       (s.vs vidFrame.sess).resetDue = false) ∧
    ({ up with vidDrain := true } : State).vidDrain = true ∧ up.vidDead.contains 23 = false ∧
    up.vframes.find? (fun (x : VFrame) => x.cores.contains 23) = none ∧
    (filmed 1 vidFrame).vframes.find? (fun (x : VFrame) => x.cores.contains 23) = some vidFrame := by decide +kernel

/-- A band of a decode: one row of no samples, its status block in mapped memory. -/
theorem witness_band :
    let d : List Byte := [1, 0] ++ List.replicate 22 0 ++ [0, 0, 1, 0, 0, 0, 0, 0] ++ [1, 0, 0, 0, 16, 0, 0, 0] ++ [0, 2, 1, 0, 0, 0, 0, 0] ++ List.replicate 16 0
    let f := { vidFrame with phase := 1, slot := some 0 }
    let v : VSess := { used := true, isOpen := true, block := List.replicate 30 0 ++ [1] ++ List.replicate 33 0 }
    let s := ({ mapped with vsess := [(0, v)] } : State)
    slotOf f d = some 0 ∧ byteAt d 0 ≠ 2 ∧ fld d 36 2 = 16 ∧ f.rows < (s.vs f.sess).padH ∧ min (s.vs f.sess).padH (f.rows + fld d 36 2) = 1 ∧
      ended (s.vwriteAll f.part ((s.slotRows (s.vs f.sess) f.info f.codec f.pos (fld d 24 8 + 0 * fld d 20 4) f.rows 1) ++
        [(fld d 40 8 + 64 * 0 + 8, toBytes 4 1)])) = 0 := by decide +kernel

/-! ## Mailboxes -/

/-- A request of an opcode about partition 0, of 256 bytes, with the payload given. -/
def req (op : Nat) (payload : List Byte) (phase : Nat) : MbxReq :=
  { data := (toBytes 2 op ++ List.replicate 14 0 ++ payload ++ List.replicate 240 0).take 256, slot := 0, gen := 0, stamp := 0, phase := phase }

/-- The mailbox of PF0 holds one request. -/
def posted (r : MbxReq) : State := { one with mbxs := [(64, { reqs := [r] })] }

theorem witness_mailboxes :
    mbxNum .pf0 < 65 ∧ one.fget .mbxStatusInflight (mbxNum .pf0) < 16 ∧ 16 ≤ (one.fset .mbxStatusInflight 64 16).fget .mbxStatusInflight (mbxNum .pf0) ∧
    (let r := req 0x101 [] 2
     writable ((posted r).mbx (mbxNum .pf0)).reqs = some r ∧ (posted r).rspRoom (mbxNum .pf0) = true) ∧
    one.millUp = true ∧
    (let s := one.fset .mbxStatusRestarting 64 1
     s.fget .mbxStatusRestarting 64 ≠ 0 ∧ bitAt (s.fget .glbReadyStatus 0) 1 = true ∧ s.pwrSeq = none) := by decide +kernel

theorem witness_commands :
    ∀ op ∈ [0x101, 0x102, 0x201, 0x202, 0x203, 0x204, 0x205, 0x206, 0x301, 0x302, 0x303, 0x304, 0x305, 0x306, 0x307, 0x308, 0x309, 0x30A, 0x30B,
        0x401, 0x402, 0x403, 0x501, 0x502, 0x503, 0x504, 0x601, 0x602, 0x603, 0x604, 0x605, 0x701, 0x702, 0x703, 0x704, 0x801, 0x802,
        0x901, 0x902, 0x903, 0x904, 0x905, 0xA01, 0xA02],
      (posted (req op [] 0)).cmdTurn .pf0 op (req op [] 0) := by
  unfold State.cmdTurn
  decide +kernel

/-- An empty partition mailbox's request takes its turn while its partition is formed. -/
theorem witness_partition_command :
    let r := req 0x203 [] 0
    ({ one with mbxs := [(0, { reqs := [r] })] } : State).cmdTurn (.part 0) 0x203 r := by
  unfold State.cmdTurn
  decide +kernel

theorem witness_settings :
    (∀ a ∈ [1, 2, 3], byteAt (req 0x204 [a] 0).data 16 = a) ∧ byteAt (req 0x206 [1] 0).data 16 = 1 ∧ (one.part 0).seed = [] := by decide +kernel

theorem witness_long_commands : ∀ op ∈ [0x401, 0x303, 0x306, 0x904],
    let r := req op [] 1
    let s := posted r
    s.millServes (mbxNum .pf0) = true ∧ s.runningL (mbxNum .pf0) 0 = some r ∧ fld r.data 0 2 = op ∧
      s.recoveries.any (fun (x : Recovery) => x.request = some (mbxNum .pf0, r.stamp)) = false ∧
      s.regionImage (byteAt r.data 5) (fld r.data 16 8) = none := by decide +kernel

/-! ## Commands that find what they name -/

/-- A field at a value, whatever its reset value is. -/
def raw (s : State) (f : Fld) (i v : Nat) : State := { s with regs := SMap.put s.regs (f.key i) v }

/-- The mailbox of a number holds one request. -/
def posting (m : Nat) (r : MbxReq) (s : State) : State := { s with mbxs := [(m, { reqs := [r] })] }

/-- The object that partition 0 made, with copies in T2 and T3 that it references. -/
def object : Obj :=
  { used := true, creator := 0, bytes := 0x1000, nextCopy := 2, copies := [{ id := 0, tier := 2, version := 0, base := t2Base, refs := [{ part := 0 }] },
    { id := 1, tier := 3, version := 0, base := 0, refs := [{ part := 0 }] }] }

/-- The queries of an object, a session and a checkpoint. -/
theorem witness_queries :
    (let s := posting 64 (req 0x307 [] 0) ({ one with objs := [(0, object)] } : State)
     s.cmdTurn .pf0 0x307 (req 0x307 [] 0) ∧ s.lookup 64 0 = .inl 0) ∧
    (let s := posting 64 (req 0x703 [] 0) ({ one with vsess := [(0, { used := true, isOpen := true })] } : State)
     s.cmdTurn .pf0 0x703 (req 0x703 [] 0) ∧ s.sessLookup 0 0 = .inl 0) ∧
    (let s := posting 64 (req 0x903 [] 0) ({ one with images := [(0, { complete := true })] } : State)
     s.cmdTurn .pf0 0x903 (req 0x903 [] 0) ∧ s.newestImage 0 = some 0)  := by
  unfold State.cmdTurn
  decide +kernel

/-- A self-test, a report at both kinds of lifecycle, and the last certificate. -/
theorem witness_long_answers :
    (let b : BistRun := { mbx := 64, stamp := 9, kind := 1, scope := 0, mask := 2 ^ 20 }
     let s := posting 64 (req 0x802 [] 0) ({ one with bist := some b } : State)
     s.cmdTurn .pf0 0x802 (req 0x802 [] 0) ∧ s.bist = some b ∧ one.bist = none) ∧
    (∀ lc ∈ [0, 3],
      let r := req 0x501 (List.replicate 32 0 ++ [0, 0, 1]) 0
      let s := raw (posting 64 r mapped) .secLc 0 lc
      s.cmdTurn .pf0 0x501 r ∧ fld r.data 48 6 = 0x10000 ∧ (s.cmdProbe 64 0 0x10000 512).2 = none ∧ s.fget .secLc 0 = lc) ∧
    (let r := req 0x504 [3] 0
     let s := raw (posting 64 r one) .secLc 0 1
     s.cmdTurn .pf0 0x504 r ∧ byteAt r.data 16 = 3 ∧ s.fget .secLc 0 ≠ 0) := by
  unfold State.cmdTurn
  decide +kernel

/-- The logs: one entry each from index 0, at 0x10000, read by partition 0 and by PF0; the change log over the sideband with an entry and without. -/
theorem witness_logs :
    (∀ e ∈ [(0x901, Mbx.pf0), (0x901, .part 0), (0x905, .pf0), (0xA01, .pf0)],
      let r := req e.1 (List.replicate 8 0 ++ [0, 0, 1, 0, 0, 0, 1]) 0
      let s := posting (mbxNum e.2) r { mapped with faultLog := [List.replicate 64 0], lostLog := [List.replicate 64 0],
                                                    changeLog := [List.replicate 192 0], changeNext := 1 }
      s.cmdTurn e.2 e.1 r ∧ fld r.data 24 6 = 0x10000 ∧ fld r.data 30 2 = 1 ∧ (s.cmdProbe (mbxNum e.2) 0 0x10000 192).2 = none) ∧
    (∀ l ∈ [[], [List.replicate 192 0]],
      let r := req 0xA01 [] 0
      let s := posting 65 r { one with changeLog := l, changeNext := l.length }
      s.cmdTurn .sideband 0xA01 r ∧ s.changeLog.reverse.drop (max (fld r.data 16 8) s.logLow - s.logLow) = l) := by
  unfold State.cmdTurn
  decide +kernel

/-- LIFECYCLE_SET to the lifecycle that is pending, and on each step that R515 allows. -/
theorem witness_lifecycle : ∀ e ∈ [(0, 0), (1, 2), (1, 3), (2, 3), (0, 1)],
    let r := req 0x502 [BitVec.ofNat 8 e.2] 0
    let s := raw (posting 64 r one) .secLcPending 0 e.1
    s.cmdTurn .pf0 0x502 r ∧ s.authBad < 16 ∧ s.fget .secLcPending 0 = e.1 ∧ byteAt r.data 16 = e.2 ∧
      ((r.data.drop 32).take 96).all (· = 0) = true ∧ s.noiseFailed = false := by
  unfold State.cmdTurn
  decide +kernel

/-- Partition 0 takes skein 1 instead of 0, and is dissolved. -/
theorem witness_formation :
    let free (s : State) : Bool := decide ((2 &&& s.testSkeins) = 0 ∧ (2 &&& s.outSkeins) = 0 ∧
      (2 &&& s.parts.foldl (fun a e => if e.1 = 0 then a else a ||| e.2.mask) 0) = 0) && (s.askAllCpls 0).isNone
    let r := req 0x201 [2] 0
    let s := posting 64 r one
    (s.cmdTurn .pf0 0x201 r ∧ fld r.data 16 8 = 2 ∧ free s = true ∧ free (s.partChanged 0) = true) ∧
    (let d := req 0x202 [] 0
     let t := posting 64 d one
     t.cmdTurn .pf0 0x202 d ∧ t.askAllCpls 0 = none ∧ (t.partChanged 0).askAllCpls 0 = none) := by
  unfold State.cmdTurn
  decide +kernel

/-- OBJ_CREATE in T2 with the quota that it takes whole; OBJ_SHARE by the creator; commands on the copies that partition 0 references. -/
theorem witness_objects :
    (let r := req 0x301 ([1, 2] ++ List.replicate 6 0 ++ [0, 0, 1]) 0
     let s := posting 64 r (one.fset .tierPT2quota 0 0x10000)
     s.cmdTurn .pf0 0x301 r ∧ s.freeIndex < 2 ^ 24 ∧ byteAt r.data 16 = 1 ∧ byteAt r.data 17 = 2 ∧ s.withinQuota 0 2 (fld r.data 24 8) = true ∧
       (s.allocCopy 0 2 (fld r.data 24 8)).2 = .inl (t2Base, 0)) ∧
    (∀ op ∈ [0x302, 0x308],
      let r := req op [] 0
      let s := posting 0 r ({ one with objs := [(0, object)] } : State)
      s.cmdTurn (.part 0) op r ∧ s.lookup 0 0 = .inl 0 ∧ (s.obj 0).creator = 0 ∧ byteAt r.data 21 = 0) ∧
    (∀ op ∈ [0x303, 0x304, 0x305, 0x306],
      let r := req op ([0, 0, 0, 0, 2, 0, 0, 0] ++ [0, 0, 0, 0, 0, 0, 0, 0] ++ [0, 16, 0, 0, 0, 0, 0, 0] ++ [0, 0, 1]) 0
      let s := posting 64 r ({ mapped with objs := [(0, object)] } : State)
      s.cmdTurn .pf0 op r ∧ s.lookup 64 0 = .inl 0 ∧ ((s.obj 0).refCopy (byteAt r.data 20) 0).isSome = true ∧ s.flashDown = false ∧
        (s.promote 0 0 (byteAt r.data 20)).2 = .inl false ∧ (s.takeTier 64 r).isSome = true ∧
        fld r.data 24 8 + fld r.data 32 8 = ceilDiv (s.obj 0).bytes 4096 * 4096 ∧
        (s.cmdRead 64 0 (fld r.data 40 6) (fld r.data 32 8)).2.isLeft = true) := by
  unfold State.cmdTurn
  decide +kernel

/-- LOAD_MODEL of a package of one layer that streams from T2; CH_MAPOUT of a live channel. -/
theorem witness_model :
    (let r := req 0x30A ([0, 0, 0, 0, 1, 0, 0, 0] ++ List.replicate 8 0 ++ [0, 0, 1]) 0
     let pkg : List Byte := [0x41, 0x4B, 0x44, 0x4C, 1, 0, 0, 0] ++ List.replicate 8 0 ++ [64] ++ List.replicate 31 0
     let w : Copy := { id := 0, tier := 2, version := 0, base := t2Base + 0x1000, refs := [{ part := 0 }] }
     let s := posting 64 r (({ mapped with objs := [(0, { object with kind := 5, bytes := 48 }), (1, { object with copies := [w] })] } : State).st t2Base pkg)
     s.cmdTurn .pf0 0x30A r ∧ (match (cmdLoadModel s 64 r).2 with | .running _ => true | _ => false) = true ∧ (s.takeTier 64 r).isSome = true) ∧
    (let r := req 0x30B [255] 0
     let s := posting 64 r (one.fset .tierChLive 255 1)
     s.cmdTurn .pf0 0x30B r ∧ byteAt r.data 16 = 255 ∧ s.fget .tierChLive 255 ≠ 0) := by
  unfold State.cmdTurn
  decide +kernel

/-- Ports that FAB_PORT turns off or on; a table of one route; a session with its store within the quota. -/
theorem witness_fabric_commands :
    (∀ e ∈ [(0, 0), (0, 4), (1, 1), (1, 4)],
      let r := req 0x602 [7, BitVec.ofNat 8 e.1, 0, 0, 0xFF, 0xFF] 0
      let s := posting 64 r (one.fset .flkPortState 7 e.2)
      s.cmdTurn .pf0 0x602 r ∧ byteAt r.data 16 = 7 ∧ byteAt r.data 17 = e.1 ∧ s.fget .flkPortState 7 = e.2 ∧ s.fget .flkPortEncreq 7 = 0 ∧
        (s.port 7).expect = fld r.data 20 2) ∧
    (let r := req 0x602 [7, 1, 1] 0
     let s := posting 64 r (one.fset .flkPortState 7 4)
     s.cmdTurn .pf0 0x602 r ∧ s.fget .flkPortEncreq 7 ≠ byteAt r.data 18) ∧
    (let r := req 0x603 [0, 0, 1, 0, 0, 0, 0, 0, 1] 0
     let s := posting 64 r (mapped.st 0x100000 [1])
     s.cmdTurn .pf0 0x603 r ∧ (s.cmdRead 64 0 (fld r.data 16 6) (8 * fld r.data 24 2)).2 = .inl [1, 0, 0, 0, 0, 0, 0, 0] ∧ routesBad [1] = false) ∧
    (∀ b ∈ [0, 1], byteAt (req 0x604 [0xFF, 0x0F, b] 0).data 18 = b.toNat) := by
  unfold State.cmdTurn
  decide +kernel

/-- A session's store within the quota; an open session that is reset while a frame of it runs, or not. -/
theorem witness_sessions :
    (let r := req 0x701 [0, 1, 0, 0, 64, 0, 64, 0] 0
     let b := (r.data.drop 16).take 128
     let s := posting 64 r (one.fset .tierPT1quota 0 0x1000000)
     s.cmdTurn .pf0 0x701 r ∧ (s.vsess.filter fun e => e.2.isOpen).length < 64 ∧ s.withinQuota 0 1 (storeBytes b) = true ∧
       (s.allocT1 0 (storeBytes b)).2 = .inl 1) ∧
    (∀ op ∈ [0x702, 0x704],
      let r := req op [] 0
      let v : VSess := { used := true, isOpen := true }
      let s := posting 64 r ({ one with vsess := [(0, v)] } : State)
      s.cmdTurn .pf0 op r ∧ s.sessLookup 0 (fld r.data 16 4) = .inl 0 ∧ (s.vframes.any fun f => f.sess = 0) = false ∧
        (({ s with vframes := [vidFrame] } : State).vframes.any fun f => f.sess = 0) = true) := by
  unfold State.cmdTurn
  decide +kernel

/-- PWR_SET to a lower, an equal and a higher state. -/
theorem witness_power_set :
    (∀ e ∈ [(1, 0), (1, 1), (1, 2)],
      let r := req 0x401 [BitVec.ofNat 8 e.2] 0
      let s := posting 64 r (one.fset .pwrState 0 e.1)
      s.cmdTurn .pf0 0x401 r ∧ s.pwrSeq = none ∧ s.fget .pwrStateStage 0 = 0 ∧ byteAt r.data 16 = e.2 ∧ s.fget .pwrState 0 = e.1) := by
  unfold State.cmdTurn
  decide +kernel

/-- A self-test of a skein without a job; MIRROR_SET to the same and to another partner. -/
theorem witness_module_commands :
    (let r := req 0x801 [1, 0, 0, 0, 0, 0, 0, 0, 1] 0
     let s := posting 64 r one
     s.cmdTurn .pf0 0x801 r ∧ s.bist = none ∧ s.fget .pwrState 0 = 0 ∧ s.quadStop = 0 ∧ s.fget .pwrStateStage 0 = 0 ∧ s.bistRefusal 64 r.data = none) ∧
    (∀ dev ∈ [0, 5],
      let r := req 0x902 [1, 0, dev] 0
      let s := posting 64 r one
      s.cmdTurn .pf0 0x902 r ∧ ((s.part 0).mirrorDev = fld r.data 18 2 ↔ dev = 0) ∧ (s.part 0).mirrorPart = byteAt r.data 20) := by
  unfold State.cmdTurn
  decide +kernel

/-- CKPT_RESTORE of an own image of the active job, and of number 9 in the mirror region. -/
theorem witness_restore :
    let r := req 0x904 [9] 0
    (let s := posting 64 r { training with images := [(0, { complete := true, num := 9 })] }
     s.cmdTurn .pf0 0x904 r ∧ s.ownImage 0 (fld r.data 16 8) = some 0 ∧ s.recovering 0 = false ∧ s.activeJob 0 = some (s.image 0).job) ∧
    (let s := posting 64 r (({ one with mirrors := [(0, { used := true, base := 0x100000 })] } : State).st (0x100000 + 16) [9])
     s.cmdTurn .pf0 0x904 r ∧ s.ownImage 0 (fld r.data 16 8) = none ∧ s.regionImage 0 (fld r.data 16 8) = some 0 ∧ s.jobOpen 0 = false) := by
  unfold State.cmdTurn
  decide +kernel

/-- Long commands at their ends: what they move has been issued, a loaded package, no frame of a closing session, an image of the region. -/
theorem witness_long_ends :
    (∀ op ∈ [0x303, 0x306, 0x702],
      let r := req op [] 1
      let s := posted r
      s.runningL 64 0 = some r ∧ fld r.data 0 2 = op ∧ s.tierDone 64 r.stamp = true ∧ (s.vframes.any fun f => f.sess = fld r.data 16 4 % 2 ^ 24) = false) ∧
    (let r := req 0x30A ([0, 0, 0, 0, 1, 0, 0, 0] ++ List.replicate 8 0 ++ [0, 0, 1]) 1
     let pkg : List Byte := [0x41, 0x4B, 0x44, 0x4C, 1, 0, 0, 0] ++ List.replicate 8 0 ++ [64] ++ List.replicate 31 0
     let w : Copy := { id := 0, tier := 2, version := 0, base := t2Base + 0x1000, refs := [{ part := 0 }] }
     let s := posting 64 r (({ mapped with objs := [(0, { object with kind := 5, bytes := 48 }), (1, { object with copies := [w] })] } : State).st t2Base pkg)
     s.runningL 64 0 = some r ∧ s.tierDone 64 r.stamp = true ∧ (match (cmdLoadModel s 64 r).2 with | .running _ => true | _ => false) = true) ∧
    (let r := req 0x904 [9] 1
     let s := posting 64 r (({ one with mirrors := [(0, { used := true, base := 0x100000 })] } : State).st (0x100000 + 16) [9])
     s.millServes 64 = true ∧ s.runningL 64 0 = some r ∧ s.recoveries.any (fun (x : Recovery) => x.request = some (64, r.stamp)) = false ∧
       s.regionImage (byteAt r.data 5) (fld r.data 16 8) = some 0) := by decide +kernel

/-! ## Fabric, checkpoints, mirror -/

/-- Port 0 is UP after its handshake, unencrypted. -/
def linked : State := (({ one with ports := [(0, { present := true, hs := 4 })] } : State).fset .flkPortState 0 4)

/-- A frame of a type from device 2 to device 1, of partitions 0. -/
def fabFrame (ty addr opf : Nat) (payload : List Byte) : Frame :=
  { header := fabHeader ty payload.length 1 2 0 0 0 0 0 addr opf 0, payload := payload }

theorem witness_frames :
    (∀ e ∈ [(0x10, 0, 0, 0), (0x11, 0, 0, 8), (0x12, 0, 1, 8), (0x13, 0, 0, 8), (0x14, 0, 0, 8), (1, 0, 0, 8), (2, 0, 0, 8), (3, 0, 0, 8), (4, 0, 0, 8),
        (5, 0, 1, 8), (5, 0, 32, 256), (0x15, 0, 64, 0)],
      linked.frameIn 0 e.1 (framed (fabFrame e.1 e.2.1 e.2.2.1 (List.replicate e.2.2.2 0)))) ∧ linked.fabPend.length < 256 := by
  unfold State.frameIn
  decide +kernel

/-- A frame that bears OPF = 0 where at least one answer is due is malformed; a RESP of 33 answers too. -/
theorem test_frame_bad :
    frameBad (framed (fabFrame 5 0 0 [])) = true ∧ frameBad (framed (fabFrame 5 0 33 (List.replicate 264 0))) = true ∧
      frameBad (framed (fabFrame 0x10 0 0 [])) = false := by decide +kernel

/-- Windows of device 2: TGEN 3, base 65,000, one recorded tag. -/
def heard : State := { one with rxSrcs := [(2, { known := true, tgen := 3, base := 65000, done := [(65100, 2)] })] }

theorem witness_requests :
    let q := heard.rxSrc 2
    let age (tgen : Nat) := (tgen + 256 - q.tgen) % 256
    let off (tag : Nat) := (tag + 65536 - q.base) % 65536
    q.known = true ∧ 128 ≤ age 131 ∧ age 131 = 128 ∧ age 3 = 0 ∧ 1024 ≤ off 488 ∧ off 487 < 1024 ∧ off 65100 < 1024 ∧
      q.done.find? (fun e => e.1 = 65100) = some (65100, 2) ∧ q.done.find? (fun e => e.1 = 487) = none ∧
      (heard.fabPend.any fun x => x.src = 2 && x.tag = 487 && x.tgen = 3) = false := by decide +kernel

/-- Port 0 in a state, with changes of the rest. -/
def porting (st : Nat) (f : Port → Port) : State := (linked.fset .flkPortState 0 st).setPort 0 f

theorem witness_ports :
    (∀ st ∈ [0, 1, 2, 3, 4, 5], (porting st id).fget .flkPortState (0 : Fin 8).val = st) ∧
    (let s := (porting 4 id).fset .flkPortEnc 0 1
     s.fget .flkPortEnc 0 = 1 ∧ (s.port 0).hs = 4 ∧ (s.port 0).rekeying = false ∧ s.fget .flkPortState 0 = 4) ∧
    (porting 3 id).inHandshake 0 = true ∧ (porting 4 fun q => { q with again := true }).inHandshake 0 = true ∧
    (let k (n : Nat) : KeptFrame := { seq := 0, f := framed (fabFrame 0x10 0 0 []), replays := n }
     let s := porting 4 fun q => { q with kept := [k 8] }
     (s.port 0).kept = [k 8] ∧ 8 ≤ (k 8).replays ∧ (k 7).replays < 8) ∧
    (let s := porting 4 fun q => { q with queue := [framed (fabFrame 1 0 0 (List.replicate 8 0))], used := [(0, 2 ^ 20)] }
     let t := s.setPort 0 fun q => { q with late := 1 }
     s.starved 0 0 = true ∧ (s.port 0).late.testBit 0 = false ∧ ((List.range 4).any fun vc => (t.port 0).late.testBit vc && t.starved 0 vc) = true) := by
  decide +kernel

/-- A request to device 2 under tag 7. -/
def asking (owner : FabOwner) (answer : Option Nat) (resends : Nat) : FabReq :=
  { owner := owner, dst := 2, ty := 1, tag := some 7, answer := answer, resends := resends }

theorem witness_fabric_timers :
    (∀ n ∈ [0, 2, 3],
      let r := asking (.coll 0 64) none n
      let s := { one with fabReqs := [r], fabStops := [{ dev := 2, part := 64 }] }
      s.fabReqs.find? (fun r => r.dst = 2 && r.tag = some 7 && r.answer.isNone) = some r ∧ (if n = 3 then s.fget .flkRoutingE2eRetry 0 ≤ r.resends
        else r.resends < s.fget .flkRoutingE2eRetry 0) ∧ s.stoppedTo 2 r.spart = true ∧ r.answer = none) ∧
    (one.rxSrc 2).answers = [] ∧ (({ one with rxSrcs := [(2, { answers := [(1, 0, 0)] })] } : State).rxSrc 2).answers = (1, 0, 0) :: [] ∧
    (∀ gen ∈ [0, 1],
      let x := asking (.signal 0 5 gen) (some 0) 0
      let s := { ringed (rec' 4 []) with fabReqs := [x] }
      s.fabReqs.find? (fun x => x.answer.isSome && x.owner.signals 0) = some x ∧ (s.fget .ringStateGen 0 = gen ↔ gen = 0)) ∧
    one.trigger (.carding 0 (ioBase + 0x40000 + 0x2000)) .flkQColl = some 0 ∧
    (one.colls.filter fun c => c.part = 0).length < 16 ∧ (one.colls.any fun c => c.part = 0 && c.dva = 64) = false ∧
    (let c : Coll := { part := 0, dva := 64, running := true }
     ({ one with colls := [c] } : State).colls.find? (fun c => c.part = (0 : Fin 64).val && c.running) = some c) := by decide +kernel

/-- A start that was dirty with a journal that is gone; a core and a thread that an uncorrectable word ends; a request sent again. -/
theorem witness_losses :
    (let s := { up.fset .ftlStatusDirtystart 0 1 with journal := some up.flashNow }
     s.fget .ftlStatusState 0 = 0 ∧ bitAt (s.fget .glbReadyStatus 0) 14 = true ∧ (true && s.fget .ftlStatusDirtystart 0 = 1 && s.journal.isSome) = true) ∧
    (core [.tend]).coreLive 0 = true ∧ ((thread 0 0 0 0).ctask (⟨0, 0⟩ : ThreadId).num).active = true ∧
    (let r := asking (.coll 0 64) none 0
     let s := setf { linked with fabReqs := [r], routes := [1 + 2 * 2 ^ 32] } [(.flkIdSet, 0, 1), (.flkIdDevnum, 0, 1)]
     s.fabReqs.find? (fun r => r.dst = 2 && r.tag = some 7 && r.answer.isNone) = some r ∧ s.stoppedTo 2 r.spart = false ∧
       r.resends < s.fget .flkRoutingE2eRetry 0 ∧ (s.transmit r 7).2.answer = none) := by decide +kernel

theorem witness_checkpoints :
    (let s := { training with ckpts := [(0, 1, false)] }
     s.ckpts.find? (fun c => c.1 = (0 : Fin 64).val && !c.2.2) = some (0, 1, false) ∧ s.activeJob 0 = some 0 ∧ s.quiesced 0 = true ∧
       s.recovering 0 = false ∧ (s.image (2 * 0 + (s.part 0).nextImage)).mstate ≠ 1) ∧
    (let s := { training with ckpts := [(0, 1, true)] }
     s.ckpts.find? (fun c => c.1 = (0 : Fin 64).val && c.2.2) = some (0, 1, true) ∧ s.activeJob 0 = some 0) ∧
    (let s := { one with images := [(0, { mstate := 1 })] }
     s.sending 0 = some 0 ∧ s.fabOpen (.mirror 0) = false ∧ s.fabWorst (.mirror 0) = 0) ∧
    (let r := asking (.mirror 0) (some 5) 0
     let s := { one with fabReqs := [r] }
     (s.fabReqs.filter fun r => r.owner.mirrors 0 && r.answer.any (· ≥ 2)) = [r]) ∧
    (let s := training.setPart 0 fun q => { q with mirrorTold := true }
     let t := one.setPart 0 fun q => { q with mirrorTold := true }
     (s.part 0).mirrorTold = true ∧ s.jobOpen 0 = true ∧ (t.part 0).mirrorTold = true ∧ t.jobOpen 0 = false) ∧
    (let s := ({ one with mirrors := [(0, { used := true, base := 0x100000 })] } : State).st (0x100000 + 24) [1]
     (s.mirror 0).used = true ∧ (s.mirror 0).lost = false ∧ s.ldNat ((s.mirror 0).base + 24) 1 = 1) := by decide +kernel

/-! ## Faults, power, starts, host, security -/

theorem witness_faults :
    one.holder 0 = some 0 ∧ one.holder 20 = none ∧ one.outSkeins.testBit 20 = false ∧ one.spareFree (20 / 16) = true ∧
    ({ one with probes := 3 } : State).probes.testBit (0 : Fin 64) = true ∧
    (∀ e ∈ [(0, [0]), (1, []), (0, []), (0, [0, 1, 2])],
      let r : Recovery := { part := 0, cls := 1, phase := e.1, skeins := e.2 }
      let s := { one with recoveries := [r], spareUsed := if e.2.length = 3 then 0xF else 0, outSkeins := if e.2.length = 3 then 2 ^ 64 - 1 else 0 }
      s.recovery 0 = some r ∧ s.millUp = true ∧ s.replaceable r.skeins = decide (e.2.length ≠ 3) ∧ s.activeJob 0 = none) ∧
    (let r : Recovery := { part := 0, cls := 1, phase := 1 }
     let s := { training with recoveries := [r], images := [(0, { complete := true })] }
     s.recovery 0 = some r ∧ (s.activeJob 0).isSome = true ∧ s.imageFor r = some 0) ∧
    (let s := up.fset .tierCapLive 0 256
     (0x100000 : BitVec 52).toNat < s.t1Backed ∧ ftlReserve < t2Base + t2Size ∧ t2Base ≤ ftlReserve ∧ t2Base < ftlReserve ∧ (s.refillFrom t2Base).isSome = false) ∧
    (let o : Obj := { used := true, bytes := 0x10000, copies := [{ id := 0, tier := 2, version := 1, base := t2Base }, { id := 1, tier := 3, version := 1, base := 0 }] }
     (({ up with objs := [(0, o)] } : State).refillFrom t2Base).isSome = true) := by decide +kernel

/-- A channel counts its uncorrectable sectors of a day: the fourth is too many. -/
theorem witness_ue_count :
    (up.countUe 3).2 = false ∧ (({ up with ueTimes := [(3, 0), (3, 0), (3, 0)] } : State).countUe 3).2 = true := by decide +kernel

/-- A power sequence that prepares a block. -/
def sequencing (q : PwrSeq) : State := { one with pwrSeq := some q }

theorem witness_power :
    (let s := sequencing { target := 1, todo := [1] }
     let d := { s with vframes := [{ (default : VFrame) with core := 3 }] }
     s.pwrSeq = some { target := 1, todo := [1] } ∧ s.millUp = true ∧ s.fget .pwrStateStage 0 = 0 ∧ s.blockReady 1 1 = true ∧ d.blockReady 1 1 = false) ∧
    (let c : Coll := { part := 0, dva := 64 }
     let s := { sequencing { target := 2, todo := [6] } with colls := [c] }
     s.refuseReason 2 6 = some 3) ∧
    (let r := req 0x401 [] 1
     let q : PwrSeq := { target := 1, todo := [6], refused := some (6, 3), request := some (64, 0) }
     let s := { posted r with pwrSeq := some q }
     s.seqRequest q = some (64, r) ∧ s.millUp = true ∧ q.refused = some (6, 3)) ∧
    (let s := up.fset .pwrState 0 4
     s.started = true ∧ s.fget .pwrState 0 = 4 ∧ s.pwrSeq = none ∧ s.fget .pwrStateStage 0 = 0 ∧
       ({ s with pwrSeq := some { target := 3, wake := true } } : State).wakingUp = true) ∧
    up.mctpHeld = [] := by decide +kernel

theorem witness_samples :
    up.started = true ∧
    (let u := ((up.fset .pwrInputW 0 100).fset .pwrInputV 0 12).setPwr fun x => { x with samples := (100 :: x.samples).take 100 }
     let b := u.fset .pciBoardBrake 0 1
     u.fastRule.capRule.raiseRule.hotRule.refreshClocks.throttle = 0 ∧ b.fastRule.capRule.raiseRule.hotRule.refreshClocks.throttle ≠ 0) := by decide +kernel

theorem witness_supply :
    up.started = true ∧ up.fget .pwrStateStage 0 = 0 ∧ up.swOpen = false ∧ up.inputOk = true ∧
    (up.fset .ftlStatusState 0 1).fget .ftlStatusState 0 ≠ 0 ∧ (∀ n ∈ [1, 3, 4], (up.fset .pwrStateStage 0 n).fget .pwrStateStage 0 = n) ∧
    ({ up with tripPin := true } : State).tripPin = true ∧
    thermalLimit 0 = some (110, 125) ∧ thermalLimit 15 = some (105, 110) ∧
    125 ≤ SMap.get 0 ({ up with temps := [(0, 125)] } : State).temps 0 ∧ State.reset.started = false ∧ State.reset.inputOk = true ∧
    (let s := State.reset.fset .pwrState 0 4
     s.inputOk = true ∧ s.fget .pwrState 0 = 4) := by decide +kernel

theorem witness_starts :
    (let s := { State.reset with perst := false }
     s.started = false ∧ s.inputOk = true ∧ s.perst = false ∧ s.tripPin = false ∧ s.swOpen = false ∧ s.seqStopped = false) ∧
    (0x15A17 : BitVec 32).toNat % 2 ^ 16 = 0x5A17 ∧ bitAt (0x15A17 : BitVec 32).toNat 16 = true ∧ bitAt (0x5A17 : BitVec 32).toNat 16 = false ∧
    up.perst = false ∧ ({ up with perst := true } : State).perst = true ∧ State.reset.perst = true ∧ ({ up with vfEnable := true } : State).vfEnable = true := by
  decide +kernel

theorem witness_host :
    (let s := { up.fset .pciLinkLstate 0 3 with vfEnable := true, numVfs := 2 }
     s.linkUp = true ∧ s.funcPresent .pf0 = true ∧ s.funcPresent (.vf 1) = true ∧ s.funcPresent (.vf 2) = false ∧ s.asleep (.vf 1) = false ∧
       s.powered true (.msixTable (funcNum (.vf 1)) (16 * 17 + 12)) ≠ .blocked ∧ SMap.get false s.msixPend (32 * funcNum (.vf 1) + 17) = false ∧
       SMap.get false ({ s with msixPend := [(32 * 2 + 17, true)] } : State).msixPend (32 * funcNum (.vf 1) + 17) = true) ∧
    up.fget .pwrState 0 = 0 ∧ (up.fset .tierBar2En 0 1).fget .tierBar2En 0 = 1 ∧ (up.fset .pwrState 0 1).fget .pwrState 0 ≠ 0 := by decide +kernel

theorem witness_management_bus :
    up.started = true ∧ up.busServed = true ∧ up.fget .pwrState 0 ≠ 4 ∧ fld ([0x6A, 0x1F] ++ List.replicate 256 0) 0 2 = 0x1F6A ∧
    (let s := up.fset .pwrState 0 4
     s.busServed = true ∧ s.mctpHeld = []) ∧
    up.millUp = true ∧ up.smbus ≠ some true ∧ up.smbus ≠ some false ∧ up.dynAddr = none := by decide +kernel

theorem witness_spdm :
    (up.millUp = true ∧ up.fget .pwrState 0 ≠ 4) ∧ (up.spdmConn .doe).phase = 0 ∧
    (∀ n ∈ [1, 2, 3], 1 ≤ n ∧ ((up.setSpdm .mctp fun _ => { phase := n }).spdmConn .mctp).phase = n) ∧
    bitAt (0x80 : BitVec 32).toNat 7 = true ∧ bitAt (2 : BitVec 32).toNat 1 = true := by decide +kernel

/-- The lifecycle's reset value is a fuse's; it is written here. -/
theorem witness_spdm_lifecycle : (up.fset .secLc 0 1).fget .secLc 0 ≠ 0 := by
  rw [State.fget_fset_same]
  decide

/-- At an applied level, the aperture at the first DPA of T1. -/
def levelled (lv : Nat) : State := (up.fset .secDbgApplied 0 lv).fset .tierCapLive 0 256

theorem witness_debug :
    up.asleep .pf0 = false ∧ (0xC000000 : BitVec 28).toNat % 8 = 0 ∧ (levelled 0).debugReaches 0x100000 true = false ∧
    (levelled 2).debugReaches 0x100000 true = true ∧ (levelled 2).debugReaches 0x100000 false = true ∧ (levelled 1).traceOpen = true ∧
    ((levelled 1).fget .secAper 0 + (0xC000000 - 0xC000000)) % 2 ^ 52 = 0 ∧
    (let t : ThreadId := ⟨3, 1⟩
     let s := { levelled 2 with ctasks := [(t.num, { active := true })] }
     s.fget .pwrState 0 = 0 ∧ s.fget .secDbgApplied 0 = 2 ∧ (s.ctask t.num).active = true ∧ s.halts = [] ∧ (s.thread t.num).wait = .none) ∧
    (levelled 2).formedParts = [] ∧ (levelled 1).fget .secDbgApplied 0 = 1 ∧
    (let v : BitVec 96 := BitVec.ofNat 96 (2 ^ 52 + 0x100000)
     ((levelled 2).fget .secAper 0 + v.toNat % 2 ^ 52) % 2 ^ 52 % 4 = 0 ∧ v.toNat.testBit 52 = true ∧
       (levelled 2).debugReaches (((levelled 2).fget .secAper 0 + v.toNat % 2 ^ 52) % 2 ^ 52) true = true) := by decide +kernel

/-- A self-test of skein 20 with nothing found: its command's request still runs once the units are back. -/
theorem witness_selftest :
    let r := req 0x801 [] 1
    let b : BistRun := { mbx := 64, stamp := 0, kind := 1, scope := 0, mask := 2 ^ 20 }
    let s := { posted r with bist := some b, testSkeins := 2 ^ 20 }
    s.bist = some b ∧ s.millUp = true ∧ s.parts.length = 1 ∧ bistUnits b.scope b.mask = [20] ∧
      (s.mbx b.mbx).reqs.find? (fun (x : MbxReq) => x.stamp = b.stamp && x.phase = 1) = some r := by decide +kernel

theorem witness_levels :
    (({ up with fuseLc := some 2 } : State).fusedLc < 4) ∧ up.fget .secDbgReq 0 ≤ 2 ∧ up.ctasks = [] := by decide +kernel

theorem witness_registers :
    State.reset.regsFit = true ∧ up.regsFit = true ∧ portCommand .bypass = true ∧ (up.st 0 [1, 2]).memWf = true ∧
      fp16.dec 0xFE01 = .nan ∧ 0xFE01 < 2 ^ fp16.width := by decide +kernel

/-- A register found in a block is a row of the block. -/
theorem regAt_row (b : Blk) (off : Nat) (h : RegHit) (hr : regAt b off = some h) : h.row ∈ b.rows := by
  unfold regAt at hr
  obtain ⟨r, hm, he⟩ := List.exists_of_findSome?_eq_some hr
  simp only [RegRow.hit, Option.ite_none_left_eq_some, Option.ite_none_right_eq_some, Option.some.injEq] at he
  obtain ⟨_, _, rfl⟩ := he
  exact hm

/-- Fields that read only everywhere, are write-only everywhere, and are cleared by writing ones everywhere. -/
theorem witness_field_access : Fld.glbTime.always .ro ∧ Fld.ringDb.always .wo ∧ Fld.tierStackWashot.always .w1c := by
  have key : ∀ b : Blk, ∀ r ∈ b.rows, ∀ x ∈ r.fields, (x.fld = .glbTime → x.acc = .ro) ∧ (x.fld = .ringDb → x.acc = .wo) ∧
      (x.fld = .tierStackWashot → x.acc = .w1c) := by
    intro b; cases b <;> decide +kernel
  exact ⟨fun b off h x hr hx hf => (key b _ (regAt_row b off h hr) x hx).1 hf, fun b off h x hr hx hf => (key b _ (regAt_row b off h hr) x hx).2.1 hf,
    fun b off h x hr hx hf => (key b _ (regAt_row b off h hr) x hx).2.2 hf⟩

/-! ## Worked examples of the spec -/

/-- The TMA of the worked example under R81: array A, bank 1, ACCUM, INT8 at AR2 by INT2 at AR3, KLEN 8, right E8 scales in blocks of 32 at AR4. -/
theorem test_tma_word :
    decodeTile 0x0405000083213610 = some (.tma 0 1 1 3 1 2 3 8 {} { sc := 1, blk := 1, ar := 4 } 0 0 0 0) ∧
    (Tile.tma 0 1 1 3 1 2 3 8 {} { sc := 1, blk := 1, ar := 4 } 0 0 0 0).encode = 0x0405000083213610 := by decide +kernel

/-- The word of XC.VSF in chapter 7: SILU into FP8 E4M3. -/
theorem test_vsf_word : rowOf 0x7A80122B = some .vsf := by decide +kernel

/-- The group with cancellation of chapter 2: p4 lies below the window and truncates to 0; the sum is 0.01171875. -/
theorem test_group_cancellation :
    r32 (groupSum ([(57344, 1, 57344, 1), (-57344, 1, 57344, 1), (3, 8, 1, 32), (3, 32, 1, 32)].map fun (x : Int × Nat × Int × Nat) =>
      ((ofInt x.1 0).div (ofInt x.2.1 0)).mul ((ofInt x.2.2.1 0).div (ofInt x.2.2.2 0)))) = 0x3C400000 := by decide +kernel

/-- The block of chapter 2 quantized to INT8 with an E8 scale: code 0x7A, elements 106 and -23. -/
theorem test_quantize_block :
    scaleCode false 1 3 [(ofInt 33 0).div (ofInt 10 0), (ofInt (-71) 0).div (ofInt 100 0)] = 0x7A ∧
    encFmt 3 .rne (quantVal 1 0x7A false (v32 0x40533333)) = 0x6A ∧ encFmt 3 .rne (quantVal 1 0x7A false (v32 0xBF35C28F)) = 0xE9 := by decide +kernel

/-- The transformed input of chapter 6: 7.6875 in FP8 E4M3 is the byte 0x4F. -/
theorem test_transformed_input : fp8e4.enc .rne (.fin false 123 (-4)) = 0x4F := by decide +kernel

/-- The word of chapter 8 as UNIFORM. -/
theorem test_uniform : kindElt 1 0x9E3779B9 0 = 0x3F1E3779 := by decide +kernel

/-- The stride of chapter 9: one channel under SEED 0, and slots 0x00, 0x06, 0x0C, 0x0A under SEED 1. -/
theorem test_stride_hash :
    let q (seed : Nat) : Placement := { used := true, size := 2 ^ 37, chset := 2 ^ 64 - 1, seed := seed }
    (∀ k ∈ [0, 1, 2, 3, 95], (q 0).channel (k * 0x10100 * 64 * 256) = 0) ∧
    ([0, 1, 2, 3].map fun k => (q 1).channel (k * 0x10100 * 64 * 256)) = [0x00, 0x06, 0x0C, 0x0A] := by decide +kernel

/-- The header of chapter 16's halo write before its hop fields: bytes 0, 2 to 15 and 20 to 25. -/
theorem test_halo_header :
    let h := fabHeader 1 1024 0x2C2 0x2C1 9 9 31 5 0x10 0x40000000 0 0
    h.length = 32 ∧ h.take 14 = [0x01, 0x00, 0x04, 0x00, 0x02, 0xC2, 0x02, 0xC1, 0x09, 0x09, 0x1F, 0x05, 0x00, 0x10] ∧
      (h.drop 20).take 6 = [0x00, 0x00, 0x40, 0x00, 0x00, 0x00] := by decide +kernel

/-- The signature of chapter 20's run over two skeins. -/
theorem test_bist_fold :
    bistFold [0x7A3C91E405BD6F28C1D93E70A84B5F16, 0x7A3C91E405BD6F28C1D93E70A84B5F16] = 0x46AD75E1B8D247E918E74ED8E314496C := by decide +kernel

/-- The request of chapter 14: PART_SET of ID 2 about partition 5 from its own mailbox; the setting is recorded and entry 8,000 appended. -/
theorem test_part_set :
    let d : List Byte := [0x04, 0x02, 0xA7, 0x00, 0x02, 0x05, 0x10, 0x00] ++ List.replicate 8 0 ++ [2] ++ List.replicate 7 0 ++ [1] ++ List.replicate 231 0
    let r : MbxReq := { data := d, slot := 3, gen := 2, stamp := 0 }
    d.length = 256 ∧ ((cmdPartSet { up with changeNext := 8000 } 5 r).1.part 5).shadowAllow = 1 ∧
      (cmdPartSet { up with changeNext := 8000 } 5 r).2 = .logged (toBytes 8 0) := by decide +kernel

/-! ## Registers -/

/-- Reserved bits are ignored and read as zero; a read-only field keeps its value; ones clear a sticky bit (R10, R12). -/
theorem test_register_rules :
    ((up.fset .tierStackWashot 0 1).registerWrite (.mill (ioBase + 0x100)) false 0).fget .tierStackWashot 0 = 1 ∧
    ((up.fset .tierStackWashot 0 1).registerWrite (.mill (ioBase + 0x100)) false 0xFFFFFFFF).fget .tierStackWashot 0 = 0 ∧
    ((up.fset .tierStackWashot 0 1).registerWrite (.mill (ioBase + 0x100)) false 0xFFFFFFFF).fget .tierStackTemp 0 = up.fget .tierStackTemp 0 := by
  decide +kernel

end Sys2Proof.Tests
end

/-! ## Register writes, field by field (R9 to R12)

What one field write can do is said once (`State.writeField_cases`); a property that every field write and BARSEL's display keep is kept by a
whole register write (`State.regWrite_induct`). The claims about frames and about the canonical form follow from this induction. -/

namespace Sys2Proof.Machine

/-! ### Bits cleared by a mask -/

theorem and_add_ldiff (a k : Nat) : (a &&& k) + Nat.ldiff a k = a := by
  induction a using Nat.binaryRec generalizing k with
  | zero => simp [Nat.ldiff]
  | bit b n ih =>
    obtain ⟨c, m, rfl⟩ : ∃ c m, k = Nat.bit c m := ⟨k.bodd, k.div2, (Nat.bit_bodd_div2 k).symm⟩
    have := ih m
    rw [Nat.land_bit, Nat.ldiff_bit]
    cases b <;> cases c <;> simp [Nat.bit] <;> omega

/-- The bits of a word outside a mask, as the model writes them. -/
theorem sub_and_eq_ldiff (a k : Nat) : a - (a &&& k) = Nat.ldiff a k := by
  have := and_add_ldiff a k
  omega

/-- Clearing bits of a word and cutting it to a width sets no bit. -/
theorem cleared_and_self (a k w : Nat) : (a - (a &&& k)) % 2 ^ w &&& a = (a - (a &&& k)) % 2 ^ w := by
  rw [sub_and_eq_ldiff]
  apply Nat.eq_of_testBit_eq
  intro i
  simp only [Nat.testBit_and, Nat.testBit_mod_two_pow, Nat.testBit_ldiff]
  cases a.testBit i <;> simp

theorem and_eq_left_trans {a b c : Nat} (hab : a &&& b = a) (hbc : b &&& c = b) : a &&& c = a := by
  rw [← hab, Nat.and_assoc, hbc]

@[simp] theorem bitField_zero (lo w : Nat) : bitField 0 lo w = 0 := by simp [bitField]

/-! ### One field -/

theorem State.writeField_of_mask_zero (s : State) (i : Nat) (x : FieldAt) (mask v sets : Nat) (h : bitField mask x.lo x.fld.width = 0) :
    s.writeField i x mask v sets = s := by simp [State.writeField, h]

theorem State.writeField_of_readOnly (s : State) (i : Nat) (x : FieldAt) (mask v sets : Nat) (h : x.acc = .ro ∨ x.acc = .wo ∨ x.acc = .rwl) :
    s.writeField i x mask v sets = s := by
  rcases h with h | h | h <;> simp [State.writeField, h]

/-- A W1C field loses the bits that are written 1 and takes those that hardware sets (R10, R11). -/
theorem State.writeField_w1c (s : State) (i : Nat) (x : FieldAt) (mask v sets : Nat) (hm : bitField mask x.lo x.fld.width ≠ 0)
    (h : x.acc = .w1c) : s.writeField i x mask v sets = s.fset x.fld i
      ((s.fget x.fld i - (s.fget x.fld i &&& bitField v x.lo x.fld.width &&& bitField mask x.lo x.fld.width)) |||
        bitField sets x.lo x.fld.width) := by
  simp [State.writeField, h, hm]

/-- An RW field takes what its description makes of the value (R10). -/
theorem State.writeField_rw (s : State) (i : Nat) (x : FieldAt) (mask v sets : Nat) (hm : bitField mask x.lo x.fld.width ≠ 0)
    (h : x.acc = .rw) : s.writeField i x mask v sets =
      ((s.taken x.fld i ((s.fget x.fld i - (s.fget x.fld i &&& bitField mask x.lo x.fld.width)) +
        (bitField v x.lo x.fld.width &&& bitField mask x.lo x.fld.width))).elim s (s.fset x.fld i)) := by
  simp only [State.writeField, h, hm, if_false]
  split <;> simp_all

/-- A field write does nothing, clears and sets bits of a W1C field, or gives an RW field a value. -/
theorem State.writeField_cases (s : State) (i : Nat) (x : FieldAt) (mask v sets : Nat) :
    s.writeField i x mask v sets = s ∨
    (x.acc = .w1c ∧ ∃ k, s.writeField i x mask v sets =
      s.fset x.fld i ((s.fget x.fld i - (s.fget x.fld i &&& k)) ||| bitField sets x.lo x.fld.width)) ∨
    (x.acc = .rw ∧ ∃ y, s.writeField i x mask v sets = s.fset x.fld i y) := by
  by_cases hm : bitField mask x.lo x.fld.width = 0
  · exact .inl (s.writeField_of_mask_zero i x mask v sets hm)
  cases h : x.acc with
  | ro => exact .inl (s.writeField_of_readOnly i x mask v sets (.inl h))
  | wo => exact .inl (s.writeField_of_readOnly i x mask v sets (.inr (.inl h)))
  | rwl => exact .inl (s.writeField_of_readOnly i x mask v sets (.inr (.inr h)))
  | w1c =>
    refine .inr (.inl ⟨rfl, bitField v x.lo x.fld.width &&& bitField mask x.lo x.fld.width, ?_⟩)
    rw [s.writeField_w1c i x mask v sets hm h, Nat.and_assoc]
  | rw =>
    rw [s.writeField_rw i x mask v sets hm h]
    cases s.taken x.fld i _ with
    | none => exact .inl rfl
    | some y => exact .inr (.inr ⟨rfl, y, rfl⟩)

theorem State.fget_writeField_ne (s : State) (i : Nat) (x : FieldAt) (mask v sets : Nat) {f : Fld} (j : Nat) (h : f ≠ x.fld) :
    (s.writeField i x mask v sets).fget f j = s.fget f j := by
  rcases s.writeField_cases i x mask v sets with e | ⟨-, k, e⟩ | ⟨-, y, e⟩ <;> simp [e, h]

theorem State.fget_writeField_of_readOnly (s : State) (i : Nat) (x : FieldAt) (mask v sets : Nat) (f : Fld) (j : Nat)
    (h : x.fld = f → x.acc = .ro ∨ x.acc = .wo) : (s.writeField i x mask v sets).fget f j = s.fget f j := by
  by_cases hf : x.fld = f
  · rw [s.writeField_of_readOnly i x mask v sets ((h hf).imp_right .inl)]
  · exact s.fget_writeField_ne i x mask v sets j (Ne.symm hf)

theorem State.fget_of_key (s : State) {f : Fld} {i j : Nat} (h : f.key j = f.key i) : s.fget f j = s.fget f i := by
  unfold State.fget
  rw [← Fld.key_mod f j, h, Fld.key_mod]

/-- A write sets no bit of a W1C field, where hardware sets none (R10, R11). -/
theorem State.fget_writeField_w1c (s : State) (i : Nat) (x : FieldAt) (mask v : Nat) (f : Fld) (j : Nat)
    (h : x.fld = f → x.acc = .w1c) : (s.writeField i x mask v 0).fget f j &&& s.fget f j = (s.writeField i x mask v 0).fget f j := by
  by_cases hf : f = x.fld
  · subst hf
    rcases s.writeField_cases i x mask v 0 with e | ⟨-, k, e⟩ | ⟨hrw, -⟩
    · rw [e, Nat.and_self]
    · by_cases hk : x.fld.key j = x.fld.key i
      · rw [State.fget_of_key _ hk, State.fget_of_key _ hk, e, State.fget_fset_same, bitField_zero, Nat.or_zero]
        exact cleared_and_self _ _ _
      · rw [e, State.fget_fset_key _ _ hk, Nat.and_self]
    · simp [h rfl] at hrw
  · rw [s.fget_writeField_ne i x mask v 0 j hf, Nat.and_self]

theorem State.mem_writeField (s : State) (i : Nat) (x : FieldAt) (mask v sets : Nat) : (s.writeField i x mask v sets).mem = s.mem := by
  rcases s.writeField_cases i x mask v sets with e | ⟨-, k, e⟩ | ⟨-, y, e⟩ <;> simp [e]

theorem State.regsFit_writeField {s : State} (h : s.regsFit = true) (i : Nat) (x : FieldAt) (mask v sets : Nat) :
    (s.writeField i x mask v sets).regsFit = true := by
  rcases s.writeField_cases i x mask v sets with e | ⟨-, k, e⟩ | ⟨-, y, e⟩ <;> rw [e]
  · exact h
  · exact State.regsFit_fset h _ _ _
  · exact State.regsFit_fset h _ _ _

/-! ### The barrier registers that follow BARSEL (R284) -/

/-- The fields that show the barrier that BARSEL selects. -/
def barFields : List Fld := [.strmPBarExp, .strmPBarCount, .strmPPhase]

/-- The display does nothing, or writes the three barrier fields. -/
theorem State.showBarrier_cases (s : State) (p : Nat) : s.showBarrier p = s ∨
    ∃ e c ph, s.showBarrier p = ((s.fset .strmPBarExp p e).fset .strmPBarCount p c).fset .strmPPhase p ph := by
  unfold State.showBarrier
  split
  · exact .inl rfl
  · exact .inr ⟨_, _, _, rfl⟩

theorem State.fget_showBarrier_ne (s : State) (p : Nat) {f : Fld} (j : Nat) (h : f ∉ barFields) :
    (s.showBarrier p).fget f j = s.fget f j := by
  simp only [barFields, List.mem_cons, List.not_mem_nil, or_false, not_or] at h
  obtain ⟨he, hc, hp⟩ := h
  rcases s.showBarrier_cases p with e | ⟨_, _, _, e⟩ <;> simp [e, he, hc, hp]

theorem State.mem_showBarrier (s : State) (p : Nat) : (s.showBarrier p).mem = s.mem := by
  rcases s.showBarrier_cases p with e | ⟨_, _, _, e⟩ <;> simp [e]

theorem State.regsFit_showBarrier {s : State} (h : s.regsFit = true) (p : Nat) : (s.showBarrier p).regsFit = true := by
  rcases s.showBarrier_cases p with e | ⟨_, _, _, e⟩ <;> rw [e]
  · exact h
  · exact State.regsFit_fset (State.regsFit_fset (State.regsFit_fset h _ _ _) _ _ _) _ _ _

/-- The map shows the barrier fields as read-only ones of the STRM block. -/
theorem regAt_barFields {f : Fld} (h : f ∈ barFields) : ∃ off r x, regAt .strm off = some r ∧ x ∈ r.row.fields ∧ x.fld = f ∧ x.acc = .ro := by
  have shown : ∀ off f, ((regAt .strm off).any fun r => r.row.fields.any fun x => x.fld = f && x.acc = .ro) = true →
      ∃ off r x, regAt .strm off = some r ∧ x ∈ r.row.fields ∧ x.fld = f ∧ x.acc = .ro := by
    intro off f h
    simp only [Option.any_eq_true, List.any_eq_true, Bool.and_eq_true, decide_eq_true_eq] at h
    obtain ⟨r, hr, x, hx, hf, ha⟩ := h
    exact ⟨off, r, x, hr, hx, hf, ha⟩
  simp only [barFields, List.mem_cons, List.not_mem_nil, or_false] at h
  rcases h with rfl | rfl | rfl
  · exact shown 0x100C _ (by decide)
  · exact shown 0x100C _ (by decide)
  · exact shown 0x1010 _ (by decide)

theorem Fld.not_mem_barFields_of_always {f : Fld} {acc : Acc} (h : f.always acc) (ha : acc ≠ .ro) : f ∉ barFields := by
  intro hf
  obtain ⟨off, r, x, hr, hx, hxf, hro⟩ := regAt_barFields hf
  exact ha ((h _ _ _ _ hr hx hxf).symm.trans hro)

/-! ### A whole register -/

section
variable {P : State → Prop} {sets : Nat} (hbar : ∀ t p, P t → P (t.showBarrier p))
include hbar

theorem State.writeReg_induct {r : RegHit} {sets' : Nat}
    (hfield : ∀ t i, ∀ x ∈ r.row.fields, ∀ mask v, P t → P (t.writeField i x mask v sets')) {s : State} (h : P s) (inst mask v : Nat) :
    P (s.writeReg inst r mask v sets') := by
  unfold State.writeReg
  have hf : P (r.row.fields.foldl (fun t f => t.writeField (r.index inst f) f mask v sets') s) :=
    List.foldlRecOn _ _ h fun t ht x hx => hfield t _ x hx mask v ht
  split
  · exact hbar _ _ hf
  · exact hf

/-- A property that the display of barriers keeps, and every write of a field of the block with no other bits set than the command's, is
kept by a register write. -/
theorem State.regWrite_induct {b : Blk}
    (hfield : ∀ off r x, regAt b off = some r → x ∈ r.row.fields → ∀ t i mask v sets', (sets = 0 → sets' = 0) → P t →
      P (t.writeField i x mask v sets'))
    {s : State} (h : P s) (inst off : Nat) (wide : Bool) (v : Nat) : P (s.regWrite b inst off wide v sets) := by
  have hreg : ∀ {off r}, regAt b off = some r → ∀ sets', (sets = 0 → sets' = 0) → ∀ {t : State}, P t → ∀ mask v,
      P (t.writeReg inst r mask v sets') := fun hr sets' hs _ ht mask v =>
    State.writeReg_induct hbar (fun t i x hx mask v => hfield _ _ x hr hx t i mask v sets' hs) ht inst mask v
  unfold State.regWrite
  split
  · exact h
  · rename_i r hr
    split
    · exact hreg hr _ (by simp +contextual) h _ _
    · split
      · exact hreg hr _ id h _ _
      · have ht := hreg hr (sets % 2 ^ 32) (by simp +contextual) h (2 ^ 32 - 1) (v % 2 ^ 32)
        dsimp only
        split
        · split
          · rename_i r2 hr2
            split
            · exact ht
            · exact hreg hr2 _ (by simp +contextual) ht _ _
          · exact ht
        · exact ht

end

theorem State.fget_regWrite_ro {f : Fld} (hf : f.always .ro) (hb : f ∉ barFields) (s : State) (b : Blk) (inst off : Nat) (wide : Bool)
    (v sets i : Nat) : (s.regWrite b inst off wide v sets).fget f i = s.fget f i :=
  State.regWrite_induct (P := fun t => t.fget f i = s.fget f i) (fun t p h => (t.fget_showBarrier_ne p i hb).trans h)
    (fun _ _ x hr hx t j mask v sets' _ h =>
      (t.fget_writeField_of_readOnly j x mask v sets' f i fun e => .inl (hf _ _ _ _ hr hx e)).trans h) rfl inst off wide v

theorem State.fget_regWrite_wo {f : Fld} (hf : f.always .wo) (s : State) (b : Blk) (inst off : Nat) (wide : Bool) (v sets i : Nat) :
    (s.regWrite b inst off wide v sets).fget f i = s.fget f i :=
  State.regWrite_induct (P := fun t => t.fget f i = s.fget f i)
    (fun t p h => (t.fget_showBarrier_ne p i (Fld.not_mem_barFields_of_always hf (by decide))).trans h)
    (fun _ _ x hr hx t j mask v sets' _ h =>
      (t.fget_writeField_of_readOnly j x mask v sets' f i fun e => .inr (hf _ _ _ _ hr hx e)).trans h) rfl inst off wide v

theorem State.fget_regWrite_w1c {f : Fld} (hf : f.always .w1c) (s : State) (b : Blk) (inst off : Nat) (wide : Bool) (v i : Nat) :
    (s.regWrite b inst off wide v).fget f i &&& s.fget f i = (s.regWrite b inst off wide v).fget f i := by
  refine State.regWrite_induct (P := fun t => t.fget f i &&& s.fget f i = t.fget f i) (sets := 0) (fun t p h => ?_)
    (fun _ _ x hr hx t j mask v sets' h0 h => ?_) (Nat.and_self _) inst off wide v
  · rw [t.fget_showBarrier_ne p i (Fld.not_mem_barFields_of_always hf (by decide))]
    exact h
  · rw [h0 rfl]
    exact and_eq_left_trans (t.fget_writeField_w1c j x mask v f i fun e => hf _ _ _ _ hr hx e) h

@[simp] theorem State.mem_regWrite (s : State) (b : Blk) (inst off : Nat) (wide : Bool) (v sets : Nat) :
    (s.regWrite b inst off wide v sets).mem = s.mem :=
  State.regWrite_induct (P := fun t => t.mem = s.mem) (fun t p h => (t.mem_showBarrier p).trans h)
    (fun _ _ x _ _ t j mask v sets' _ h => (t.mem_writeField j x mask v sets').trans h) rfl inst off wide v

theorem State.regsFit_regWrite {s : State} (h : s.regsFit = true) (b : Blk) (inst off : Nat) (wide : Bool) (v sets : Nat) :
    (s.regWrite b inst off wide v sets).regsFit = true :=
  State.regWrite_induct (P := fun t => t.regsFit = true) (fun _ p h => State.regsFit_showBarrier h p)
    (fun _ _ x _ _ _ j mask v sets' _ h => State.regsFit_writeField h j x mask v sets') h inst off wide v

/-! ### REGISTER_WRITE -/

@[simp] theorem State.raise_regs (s : State) (n v : Nat) : (s.raise n v).regs = s.regs := by
  unfold State.raise
  split <;> rfl

@[simp] theorem State.raise_mem (s : State) (n v : Nat) : (s.raise n v).mem = s.mem := by
  unfold State.raise
  split <;> rfl

theorem State.fget_of_regs {s t : State} (h : t.regs = s.regs) (f : Fld) (i : Nat) : t.fget f i = s.fget f i := by
  unfold State.fget
  rw [h]

/-- An interrupt changes no register: an error of the port only moves its counter. -/
@[simp] theorem State.pciError_regs (s : State) (f : Fld) : (s.pciError f).regs = (s.fadd f 0 1).regs := by
  unfold State.pciError
  dsimp only
  split
  · exact State.raise_regs _ _ _
  · rfl

theorem State.fget_pciError_ne (s : State) {f g : Fld} (j : Nat) (h : g ≠ f) : (s.pciError f).fget g j = s.fget g j := by
  rw [State.fget_of_regs (s.pciError_regs f), State.fget_fadd_fld _ _ _ _ h]

theorem State.regsFit_pciError {s : State} (h : s.regsFit = true) (f : Fld) : (s.pciError f).regsFit = true :=
  State.regsFit_of_regs (State.regsFit_fadd h f 0 1) (s.pciError_regs f)

/-- With ERRIRQ at 0 no interrupt goes with a count (R552). -/
theorem State.pciError_of_silent {s : State} {f : Fld} (hf : f ≠ .pciCtl) (h : s.fget .pciCtl 0 = 0) : s.pciError f = s.fadd f 0 1 := by
  simp [State.pciError, Ne.symm hf, h]

@[simp] theorem State.slotStore_regs (s : State) (m off : Nat) (wide : Bool) (v : Nat) : (s.slotStore m off wide v).regs = s.regs := by
  unfold State.slotStore
  split <;> rfl

@[simp] theorem State.msixWrite_regs (s : State) (n off v : Nat) : (s.msixWrite n off v).regs = s.regs := by
  unfold State.msixWrite
  dsimp only
  split_ifs <;> rfl

section
variable {s : State} {a : Access} {wide : Bool} (v sets : Nat)

/-- A write that is not naturally aligned is discarded, and counted where the host sent it (R9). -/
theorem State.registerWrite_of_unaligned (ha : accessAt a % (if wide then 8 else 4) ≠ 0) (hl : s.locate a ≠ .asleep) :
    s.registerWrite a wide v sets = if accessByHost a then s.pciError .pciBadsize else s := by
  simp [State.registerWrite, ha, hl]

variable (ha : accessAt a % (if wide then 8 else 4) = 0)
include ha

theorem State.registerWrite_of_reg {b : Blk} {inst off : Nat} (hl : s.locate a = .reg b inst off) :
    s.registerWrite a wide v sets = s.regWrite b inst off wide v sets := by simp [State.registerWrite, ha, hl]

theorem State.registerWrite_of_slot {m off : Nat} (hl : s.locate a = .slot m off) :
    s.registerWrite a wide v sets = s.slotStore m off wide v := by simp [State.registerWrite, ha, hl]

theorem State.registerWrite_of_msixTable {n off : Nat} (hl : s.locate a = .msixTable n off) : s.registerWrite a wide v sets =
    if wide then (s.msixWrite n off (v % 2 ^ 32)).msixWrite n (off + 4) (v / 2 ^ 32) else s.msixWrite n off (v % 2 ^ 32) := by
  simp [State.registerWrite, ha, hl]

theorem State.registerWrite_of_blocked (hl : s.locate a = .blocked) : s.registerWrite a wide v sets = s.fadd .pwrBlocked 0 1 := by
  simp [State.registerWrite, ha, hl]

theorem State.registerWrite_of_nowhere (hl : s.locate a = .refused ∨ s.locate a = .unmapped) : s.registerWrite a wide v sets = s := by
  rcases hl with hl | hl <;> simp [State.registerWrite, ha, hl]

end

/-- What REGISTER_WRITE does to the register file: an aligned one that reaches a block writes there; any other leaves it, but for the counts of
blocked and of ill-sized writes. -/
theorem State.registerWrite_regs_cases (s : State) (a : Access) (wide : Bool) (v sets : Nat) :
    (accessAt a % (if wide then 8 else 4) = 0 ∧ ∃ b inst off, s.locate a = .reg b inst off ∧
      s.registerWrite a wide v sets = s.regWrite b inst off wide v sets) ∨
    (s.registerWrite a wide v sets).regs = s.regs ∨
    (s.registerWrite a wide v sets).regs = (s.fadd .pwrBlocked 0 1).regs ∨
    (s.registerWrite a wide v sets).regs = (s.fadd .pciBadsize 0 1).regs := by
  by_cases hu : accessAt a % (if wide then 8 else 4) ≠ 0 ∧ s.locate a ≠ .asleep
  · rw [State.registerWrite_of_unaligned v sets hu.1 hu.2]
    by_cases hh : accessByHost a = true
    · rw [if_pos hh]
      exact .inr (.inr (.inr (s.pciError_regs _)))
    · rw [if_neg hh]
      exact .inr (.inl rfl)
  · have aligned (hl : s.locate a ≠ .asleep) : accessAt a % (if wide then 8 else 4) = 0 := not_not.mp fun ha => hu ⟨ha, hl⟩
    cases hl : s.locate a with
    | reg b inst off =>
      have ha := aligned (by simp [hl])
      exact .inl ⟨ha, b, inst, off, rfl, State.registerWrite_of_reg v sets ha hl⟩
    | blocked => exact .inr (.inr (.inl (congrArg State.regs (State.registerWrite_of_blocked v sets (aligned (by simp [hl])) hl))))
    | slot m off => exact .inr (.inl (by rw [State.registerWrite_of_slot v sets (aligned (by simp [hl])) hl, State.slotStore_regs]))
    | msixTable n off =>
      rw [State.registerWrite_of_msixTable v sets (aligned (by simp [hl])) hl]
      exact .inr (.inl (by cases wide <;> simp))
    | _ => exact .inr (.inl (by simp_all [State.registerWrite]))

theorem State.regsFit_registerWrite {s : State} (h : s.regsFit = true) (a : Access) (wide : Bool) (v sets : Nat) :
    (s.registerWrite a wide v sets).regsFit = true := by
  rcases s.registerWrite_regs_cases a wide v sets with ⟨-, b, inst, off, -, e⟩ | e | e | e
  · rw [e]
    exact State.regsFit_regWrite h b inst off wide v sets
  · exact State.regsFit_of_regs h e
  · exact State.regsFit_of_regs (State.regsFit_fadd h .pwrBlocked 0 1) e
  · exact State.regsFit_of_regs (State.regsFit_fadd h .pciBadsize 0 1) e

/-- A write that does not reach a block of registers, or is not aligned, changes no field but the two counts. -/
theorem State.fget_registerWrite_of_missed {s : State} {a : Access} {wide : Bool} (v sets : Nat)
    (h : (∀ b inst off, s.locate a ≠ .reg b inst off) ∨ accessAt a % (if wide then 8 else 4) ≠ 0) {f : Fld} (i : Nat)
    (hb : f ≠ .pwrBlocked) (hs : f ≠ .pciBadsize) : (s.registerWrite a wide v sets).fget f i = s.fget f i := by
  rcases s.registerWrite_regs_cases a wide v sets with ⟨ha, b, inst, off, hl, -⟩ | e | e | e
  · exact (h.elim (fun h => h b inst off hl) fun h => h ha).elim
  · exact State.fget_of_regs e f i
  · rw [State.fget_of_regs e, State.fget_fadd_fld _ _ _ _ hb]
  · rw [State.fget_of_regs e, State.fget_fadd_fld _ _ _ _ hs]

/-- Settles O55, by the induction over the field writes of a register write; a write that reaches no block moves the two counts alone. -/
theorem readOnlyFieldsKeepTheirValue : Obligations.ReadOnlyFieldsKeepTheirValue := by
  intro s a wide w f i
  refine ⟨_, rfl, fun b inst off hl ha => ?_, fun h hb hs => State.fget_registerWrite_of_missed _ _ h i hb hs⟩
  rw [State.registerWrite_of_reg _ _ ha hl]
  refine ⟨fun hf hb => State.fget_regWrite_ro hf hb .., fun hf => State.fget_regWrite_wo hf .., fun hf h0 => ?_, fun c => ?_⟩
  · rw [h0]
    exact State.fget_regWrite_w1c hf s b inst off wide _ i
  · simp [State.ld, State.mem_regWrite]

/-- Settles O3: the equations of REGISTER_WRITE by place and of `State.writeField` by access code, and the triggers of single registers. -/
theorem registerWriteActs : Obligations.RegisterWriteActs := by
  refine ⟨fun a wide w s => ⟨fun ha => ⟨?_, ?_, ?_, ?_, ?_⟩, fun ha hl hc => ?_⟩, fun s i mask v sets f => ⟨?_, ?_, ?_, ?_⟩, ?_, ?_, ?_⟩
  · exact fun b inst off hl => congrArg _ (State.registerWrite_of_reg _ _ ha hl)
  · exact fun m off hl => congrArg _ (State.registerWrite_of_slot _ _ ha hl)
  · exact fun n off hl hw => congrArg _ ((State.registerWrite_of_msixTable _ _ ha hl).trans (if_neg (by simp [hw])))
  · exact fun hl => congrArg _ (State.registerWrite_of_blocked _ _ ha hl)
  · exact fun hl => congrArg _ (State.registerWrite_of_nowhere _ _ ha hl)
  · refine congrArg _ ((State.registerWrite_of_unaligned _ _ ha hl).trans ?_)
    rw [State.pciError_of_silent (by decide) hc]
  · exact s.writeField_of_mask_zero i f mask v sets
  · exact fun h => s.writeField_of_readOnly i f mask v sets (h.imp_right .inl)
  · intro hm h
    rw [s.writeField_w1c i f mask v sets hm h, State.fget_fset_same]
  · intro y hm h ht
    rw [s.writeField_rw i f mask v sets hm h, ht]
    exact State.fget_fset_same _ _ _ _
  · exact fun a m c s h => congrArg Host.Outcome.next (by simp [h, State.for'_eq_fset])
  · exact fun a m k c s h => congrArg Host.Outcome.next (by simp [h])
  · exact fun a e i s h => congrArg Host.Outcome.next (by simp [h])

end Sys2Proof.Machine

/-! ## The canonical register file (R9, R10, R12) -/

namespace Sys2Proof.Machine

@[simp] theorem State.regsFit_emit (s : State) (o : Out) : (s.emit o).regsFit = s.regsFit := rfl

@[simp] theorem State.regsFit_draw (s : State) : s.draw.regsFit = s.regsFit := rfl

@[simp] theorem State.soil_regs (s : State) (a : Nat) : (s.soil a).regs = s.regs := by
  unfold State.soil
  split <;> rfl

section
variable {s : State} (h : s.regsFit = true)
include h

theorem State.regsFit_setReady (bit : Nat) (on : Bool) : (s.setReady bit on).regsFit = true := State.regsFit_fset h _ _ _

theorem State.regsFit_setTap (i : TapInstr) : (s.setTap i).regsFit = true :=
  State.regsFit_fset (State.regsFit_of_regs h rfl) _ _ _

theorem State.regsFit_tapBypass : s.tapBypass.regsFit = true := State.regsFit_setTap h .bypass

theorem State.regsFit_haltThread (t : Nat) : (s.haltThread t).regsFit = true := by
  unfold State.haltThread
  split_ifs <;> exact State.regsFit_of_regs h rfl

theorem State.regsFit_resumeThread (t : Nat) : (s.resumeThread t).regsFit = true := State.regsFit_of_regs h rfl

theorem State.regsFit_secHalt {f : State → State} (hf : (f s).regsFit = true) : (s.secHalt f).regsFit = true := by
  unfold State.secHalt
  split_ifs
  · exact h
  · exact State.regsFit_fadd h _ _ _
  · exact hf

theorem State.regsFit_control {f : State → State} (hf : (f s).regsFit = true) : (s.control f).regsFit = true := by
  unfold State.control
  split
  · exact hf
  · exact h

theorem State.regsFit_assign (dyn : Nat) : (s.assign dyn).regsFit = true := by
  unfold State.assign
  split_ifs <;> exact State.regsFit_of_regs h rfl

theorem State.regsFit_unmask (n v : Nat) : (s.unmask n v).regsFit = true := by
  unfold State.unmask
  dsimp only
  split <;> exact State.regsFit_of_regs h rfl

theorem State.regsFit_writeDpa (ag : Agent) (a : Nat) (bs : List Byte) : (s.writeDpa ag a bs).regsFit = true := by
  unfold State.writeDpa
  split
  · exact State.regsFit_of_regs h (by rw [State.st_regs, State.soil_regs, State.soil_regs])
  · exact State.regsFit_fadd h _ _ _

theorem State.regsFit_countCorrected (f : Fld) (i : Nat) : (s.countCorrected f i).regsFit = true :=
  State.regsFit_fadd (State.regsFit_of_regs h rfl) _ _ _

end

/-- The command ends in a state whose register file is canonical. -/
def Res.regsFit (r : Res) : Prop := ∀ t, r = .next t → t.regsFit = true

theorem Res.regsFit_next {t : State} : Res.regsFit (.next t) ↔ t.regsFit = true :=
  ⟨fun h => h t rfl, fun h _ e => Host.Outcome.next.inj e ▸ h⟩

section
variable {s : State} (h : s.regsFit = true)
include h

theorem execBadSizeAccess_regsFit (f : Func) (off size : Nat) (write : Bool) : Res.regsFit (execBadSizeAccess f off size write s) := by
  have hp := State.regsFit_pciError h .pciBadsize
  rw [execBadSizeAccess, Res.regsFit_next]
  unfold State.unsupported
  dsimp only
  split_ifs <;> simp [h, hp]

theorem execSamplePreload_regsFit (bits : List Bool) : Res.regsFit (execSamplePreload bits s) := by
  rw [execSamplePreload, Res.regsFit_next]
  split
  · rw [State.regsFit_emit]
    exact State.regsFit_setTap (State.regsFit_of_regs h rfl) .samplePreload
  · exact State.regsFit_tapBypass h

theorem execExtest_regsFit : Res.regsFit (execExtest s) := by
  rw [execExtest, Res.regsFit_next]
  split
  · exact State.regsFit_setTap h .extest
  · exact State.regsFit_tapBypass h

theorem execUartCommand_regsFit (ro : Bool) (line : List Byte) : Res.regsFit (execUartCommand ro line s) := by
  rw [execUartCommand, Res.regsFit_next]
  split_ifs <;> exact h

theorem execSetEndpointId_regsFit (eid : BitVec 8) : Res.regsFit (execSetEndpointId eid s) := by
  rw [execSetEndpointId, Res.regsFit_next]
  refine State.regsFit_control h ?_
  split <;> exact State.regsFit_of_regs h rfl

theorem execSetdasa_regsFit (st dyn : BitVec 7) : Res.regsFit (execSetdasa st dyn s) := by
  rw [execSetdasa, Res.regsFit_next]
  split
  · exact State.regsFit_assign h _
  · exact h

theorem execSmbusReadByte_regsFit (cmd : BitVec 8) : Res.regsFit (execSmbusReadByte cmd s) := by
  rw [execSmbusReadByte, Res.regsFit_next]
  dsimp only
  split_ifs <;> exact State.regsFit_of_regs h rfl

theorem execDoeDiscovery_regsFit (i : BitVec 8) : Res.regsFit (execDoeDiscovery i s) := by
  rw [execDoeDiscovery, Res.regsFit_next]
  split_ifs <;> exact State.regsFit_of_regs h rfl

theorem execPcieLinkUp_regsFit (speed : BitVec 3) (width : BitVec 5) (flit : Bool) : Res.regsFit (execPcieLinkUp speed width flit s) := by
  rw [execPcieLinkUp, Res.regsFit_next]
  split
  · exact h
  · have hc := State.regsFit_countCorrected h .pciCorr 0
    have hl := State.regsFit_fset (State.regsFit_fset (State.regsFit_fset hc .pciLinkSpeed 0 speed.toNat) .pciLinkWidth 0 width.toNat)
      .pciLinkFlit 0 (if flit then 1 else 0)
    exact State.regsFit_setReady (State.regsFit_fset hl _ _ _) _ _

theorem execPerstDeassert_regsFit (clk : Bool) : Res.regsFit (execPerstDeassert clk s) := by
  rw [execPerstDeassert, Res.regsFit_next]
  dsimp only
  have hs : ({ s with perst := false } : State).regsFit = true := State.regsFit_of_regs h rfl
  split
  · exact h
  · split
    · exact State.regsFit_fset hs _ _ _
    · exact State.regsFit_fset hs _ _ _

theorem execBar2Write_regsFit (off : BitVec 36) (data : List Byte) : Res.regsFit (execBar2Write off data s) := by
  rw [execBar2Write, Res.regsFit_next]
  split_ifs
  · exact h
  · exact State.regsFit_fadd h _ _ _
  · exact h
  · exact State.regsFit_writeDpa h _ _ _

theorem execMsixUnmask_regsFit (f : Func) (v : Fin 18) : Res.regsFit (execMsixUnmask f v s) := by
  unfold execMsixUnmask
  rw [Res.regsFit_next]
  split
  · exact h
  · split
    · exact State.regsFit_fadd h _ _ _
    · exact State.regsFit_unmask h _ _

theorem execAtsInvalidate_regsFit (f : Func) (page : BitVec 52) : Res.regsFit (execAtsInvalidate f page s) := by
  rw [execAtsInvalidate, Res.regsFit_next]
  exact State.regsFit_fadd (State.regsFit_of_regs h rfl) _ _ _

end

/-- A command that `portCommand` names keeps the register file canonical. -/
theorem exec_regsFit_of_portCommand {s : State} {c : Instr} (h : s.regsFit = true) (hc : portCommand c = true) : Res.regsFit (exec c s) := by
  cases c with
  | registerWrite a wide w => exact Res.regsFit_next.mpr (State.regsFit_registerWrite h a wide _ _)
  | badSizeAccess => exact execBadSizeAccess_regsFit h _ _ _ _
  | hostWriteReject => exact Res.regsFit_next.mpr (State.regsFit_pciError h _)
  | secHaltHalt t => exact Res.regsFit_next.mpr (State.regsFit_secHalt h (State.regsFit_haltThread h t.num))
  | secHaltResume t => exact Res.regsFit_next.mpr (State.regsFit_secHalt h (State.regsFit_resumeThread h t.num))
  | bypass => exact Res.regsFit_next.mpr (State.regsFit_tapBypass h)
  | xident => exact Res.regsFit_next.mpr (State.regsFit_setTap h .xident)
  | samplePreload => exact execSamplePreload_regsFit h _
  | extest => exact execExtest_regsFit h
  | uartCommand ro line => exact execUartCommand_regsFit h ro line
  | setEndpointId => exact execSetEndpointId_regsFit h _
  | getEndpointId => exact Res.regsFit_next.mpr (State.regsFit_control h h)
  | mctpGetVersion => exact Res.regsFit_next.mpr (State.regsFit_control h h)
  | getMessageTypeSupport => exact Res.regsFit_next.mpr (State.regsFit_control h h)
  | setdasa => exact execSetdasa_regsFit h _ _
  | entdaa => exact Res.regsFit_next.mpr (State.regsFit_assign h _)
  | smbusReadByte => exact execSmbusReadByte_regsFit h _
  | doeDiscovery => exact execDoeDiscovery_regsFit h _
  | pcieLinkUp => exact execPcieLinkUp_regsFit h _ _ _
  | perstDeassert => exact execPerstDeassert_regsFit h _
  | bar2Write => exact execBar2Write_regsFit h _ _
  | msixUnmask => exact execMsixUnmask_regsFit h _ _
  | atsInvalidate => exact execAtsInvalidate_regsFit h _ _
  | skeinProbe => exact Res.regsFit_next.mpr (State.regsFit_of_regs h rfl)
  | _ => exact absurd hc Bool.false_ne_true

/-- Settles O58: reset lists no field, and every command that `portCommand` names keeps the canonical form. -/
theorem registerFileStaysCanonical : Obligations.RegisterFileStaysCanonical := by
  refine ⟨rfl, fun s t c rest hs hp hc ht => ?_⟩
  have hq : ({ s with pending := rest } : State).regsFit = true := State.regsFit_of_regs hs rfl
  refine exec_regsFit_of_portCommand hq hc t ?_
  simpa [step, hp] using ht

/-! ## Reset, denied accesses and the host interface -/

/-- Settles O2: no field is listed at reset, so each reads as its table's reset value. -/
theorem resetLeavesTableValues : Obligations.ResetLeavesTableValues := by
  refine ⟨fun f i hi => ?_, fun _ => ⟨rfl, rfl, rfl⟩, fun _ => ⟨rfl, rfl, rfl⟩, fun _ => ⟨rfl, rfl⟩, rfl, rfl, rfl, rfl, rfl, rfl⟩
  rw [State.fget_reset, Nat.mod_eq_of_lt hi]

theorem execBadSizeAccess_of_bad {f : Func} {off size : Nat} {s : State} (ha : s.asleep f = false) (hs : sizeBad off size = true)
    (write : Bool) : execBadSizeAccess f off size write s =
      .next (if write then s.pciError .pciBadsize else (s.pciError .pciBadsize).emit (.readData size (2 ^ (8 * size) - 1))) := by
  have hn : ¬ ((size = 4 ∨ size = 8) ∧ off % size = 0) := by
    rintro ⟨rfl | rfl, hm⟩ <;> simp [sizeBad, hm] at hs
  simp [execBadSizeAccess, ha, hn]

theorem execBarUnmappedAccess_of_pf {off : Nat} {wide : Bool} {s : State} (ha : s.asleep .pf0 = false) (hl : pfLoc off = .unmapped)
    (hm : off % (if wide then 8 else 4) = 0) (write : Bool) : execBarUnmappedAccess .pf0 off wide write s =
      .next (if write then s.pciError .pciUnmapped else (s.pciError .pciUnmapped).emit (.readData (if wide then 8 else 4) 0)) := by
  simp [execBarUnmappedAccess, ha, hl, hm]

theorem execUnbackedDpaAccess_of_refused {a : Access} {s : State} (hl : s.locate a = .refused) (size : Nat) (write : Bool) :
    execUnbackedDpaAccess a size write s = .next (if write then s.fadd .tierUnbacked 0 1 else
      (s.fadd .tierUnbacked 0 1).emit (.readData size (2 ^ (8 * size) - 1))) := by
  simp [execUnbackedDpaAccess, hl]

/-- Settles O4: with ERRIRQ at 0 each denied access moves its counter and answers a read. -/
theorem deniedAccessesAreCounted : Obligations.DeniedAccessesAreCounted := by
  refine ⟨fun f off size s ha hs hc => ?_, fun off wide s ha hl hm hc => ?_, fun a size s hl => ?_⟩
  · have he := execBadSizeAccess_of_bad ha hs
    rw [State.pciError_of_silent (by decide) hc] at he
    exact ⟨he true, he false⟩
  · have he := execBarUnmappedAccess_of_pf ha hl hm
    rw [State.pciError_of_silent (by decide) hc] at he
    exact ⟨he true, he false⟩
  · have he := execUnbackedDpaAccess_of_refused hl size
    exact ⟨he true, he false⟩

theorem execConfigRequest_of_absent {f : Func} {s : State} (hs : s.started = true) (hl : s.linkUp = true) (hf : s.funcPresent f = false)
    (off : BitVec 12) (w : Option (BitVec 32)) : execConfigRequest f off w s = .next (s.emit (.readStatus 0)) := by
  simp [execConfigRequest, hs, hl, hf]

theorem execConfigRequest_of_present {f : Func} {s : State} (hs : s.started = true) (hl : s.linkUp = true) (hf : s.funcPresent f = true)
    (off : BitVec 12) (w : Option (BitVec 32)) : execConfigRequest f off w s = .next (w.elim
      (s.emit (.readData 4 (s.configValue f (off.toNat / 4 * 4) (Config.configWord (funcNum f) (off.toNat / 4 * 4) s.fresh).toNat))).draw
      fun v => s.configWrite f (off.toNat / 4 * 4) v.toNat) := by
  cases w <;> simp [execConfigRequest, hs, hl, hf]

theorem execMsixUnmask_of_reached {f : Func} {v : Fin 18} {s : State} (hf : s.funcPresent f = true) (ha : s.asleep f = false)
    (hv : funcNum f ≠ 0 ∨ v.val < 3) (hp : s.powered true (.msixTable (funcNum f) (16 * v.val + 12)) ≠ .blocked) :
    execMsixUnmask f v s = .next (s.unmask (funcNum f) v) := by
  have hn : ¬ (funcNum f = 0 ∧ 3 ≤ v.val) := by omega
  unfold execMsixUnmask
  dsimp only
  rw [if_neg (by simpa [hf, ha] using hn)]
  split
  · exact absurd ‹_› hp
  · rfl

/-- Settles O49: the equations of the three host commands in the states that the statement names. -/
theorem hostInterfaceActs : Obligations.HostInterfaceActs := by
  refine fun f s => ⟨fun hs hl => ⟨fun hf off => ⟨?_, fun v => ?_⟩, fun hf off w => ?_⟩, ⟨?_, fun p => ?_⟩, fun v hf ha hv hp => ?_,
    fun off b l ha => ⟨fun hp he => ?_, fun hp => ?_⟩⟩
  · exact execConfigRequest_of_present hs hl hf off none
  · exact execConfigRequest_of_present hs hl hf off (some v)
  · exact execConfigRequest_of_absent hs hl hf off w
  · simp [State.configValue]
  · simp [State.configValue]
  · have he : exec (.msixUnmask f v) s = _ := execMsixUnmask_of_reached hf ha hv hp
    rw [he]
    exact ⟨fun h => by simp [State.unmask, h], fun h => by simp [State.unmask, h]⟩
  · exact congrArg Host.Outcome.next (by simp [ha, hp, he])
  · exact congrArg Host.Outcome.next (by simp [ha, hp])

end Sys2Proof.Machine

/-! ## Record events (R26, R339, R350, R358, R366 to R368, R412)

What each event of a ring does in the states in which it acts: one equation for each of the model's functions. -/

namespace Sys2Proof.Machine

section
variable {s : State} {g : Nat} {x : Rec}

/-- A record that has ended completes where its ring runs, its type lets it, and nothing of it waits. -/
theorem State.recordComplete_of_ended {idx st : Nat} {t : State} (found : (s.ring g).recs.find? (fun y => y.idx = idx) = some x)
    (ended : x.outcome = some st) (runs : s.fget .ringState g = 1 ∨ (s.fget .ringState g = 2 ∧ byteAt x.data 0 ≠ 6))
    (mill : byteAt x.data 0 = 1 → bitAt (byteAt x.data 12) 1 = true → s.millUp = true)
    (free : s.waitsFor (.completion g idx) = false) (well : s.recovering (g / 16) = false) (completes : s.completeRec g x st = some t) :
    s.recordComplete g idx = t.settleJobs (g / 16) := by
  have jobEnds : (byteAt x.data 0 = 1 && bitAt (byteAt x.data 12) 1 && !s.millUp) = false := by
    cases hm : s.millUp <;> simp_all
  rcases runs with active | ⟨held, other⟩
  · simp [State.recordComplete, found, ended, active, jobEnds, free, well, completes]
  · simp [State.recordComplete, found, ended, held, other, jobEnds, free, well, completes]

/-- A poll that finds the condition ends the WAIT (R358). -/
theorem State.pollWait_of_holds {u : State} (h : s.waitCond (g / 16) x.data = (u, .holds)) :
    s.pollWait g x = (u.endRec g x.idx 0 0 0 0).fset .ringStateWaiting g 0 := by
  simp [State.pollWait, h]

theorem State.waitWake_of_holds {u : State} (waits : s.waiting g = some x) (active : s.fget .ringState g = 1)
    (free : s.waitsFor (.record g x.idx) = false) (h : s.waitCond (g / 16) x.data = (u, .holds)) :
    s.waitWake g = (u.endRec g x.idx 0 0 0 0).fset .ringStateWaiting g 0 := by
  simp [State.waitWake, waits, active, free, h, State.pollWait_of_holds h]

theorem State.waitTimeout_of_waiting (waits : s.waiting g = some x) (timed : fld x.data 32 4 ≠ 0) :
    s.waitTimeout g = s.markGuilty g 4 x.idx := by
  simp [State.waitTimeout, waits, timed]

theorem State.watchdogExpiry_of_runs (runs : s.watchdogRuns g = true) (oldest : (s.ring g).recs.find? (s.begun g) = some x) :
    s.watchdogExpiry g = s.markGuilty g 3 x.idx := by
  simp [State.watchdogExpiry, runs, oldest]

theorem State.ageTick_of_waits (scheduled : s.fget .ringSched (g / 16) ≠ 0) (waits : s.ringWaits g = true) :
    s.ageTick g = s.setRing g fun q => { q with age := min 7 (q.age + 1) } := by
  simp [State.ageTick, scheduled, waits]

end

/-- Settles O11: each event's equation in the state that the statement names. -/
theorem recordEvents : Obligations.RecordEvents := by
  intro p r x s g
  refine ⟨fun idx st t found ended runs mill free well completes => ?_, fun u waits active free h => ?_, fun waits timed => ?_,
    fun runs oldest => ?_, fun up _ _ _ => ?_, fun scheduled waits => ?_⟩
  · exact congrArg Host.Outcome.next (State.recordComplete_of_ended found ended runs mill free well completes)
  · exact congrArg Host.Outcome.next (State.waitWake_of_holds waits active free h)
  · exact congrArg Host.Outcome.next (State.waitTimeout_of_waiting waits timed)
  · exact congrArg Host.Outcome.next (State.watchdogExpiry_of_runs runs oldest)
  · exact congrArg Host.Outcome.next (if_pos up)
  · exact congrArg Host.Outcome.next (State.ageTick_of_waits scheduled waits)

end Sys2Proof.Machine

/-! ## Checkpoints and the peer mirror (R36, R458 to R465, R474 to R479) -/

namespace Sys2Proof.Machine

/-! ### What images and partition records keep -/

theorem State.image_of_images {s t : State} (h : t.images = s.images) (i : Nat) : t.image i = s.image i := by
  unfold State.image
  rw [h]

theorem State.part_of_parts {s t : State} (h : t.parts = s.parts) (p : Nat) : t.part p = s.part p := by
  unfold State.part
  rw [h]

@[simp] theorem State.image_setPart (s : State) (p i : Nat) (g : Partition → Partition) : (s.setPart p g).image i = s.image i := rfl

@[simp] theorem State.part_setImage (s : State) (p i : Nat) (g : Image → Image) : (s.setImage i g).part p = s.part p := rfl

/-- Dirty bits that change one after the other leave the partitions as they are. -/
theorem State.part_foldl_setDirty (s : State) (l : List (Nat × Nat)) (v : State → Nat × Nat → Nat) (p : Nat) :
    (l.foldl (fun (t : State) g => t.setDirty g.2 (v t g)) s).part p = s.part p :=
  List.foldlRecOn (motive := fun t : State => t.part p = s.part p) _ _ rfl fun _ h _ _ => h

/-! ### The mirror that takes effect -/

/-- The peer that MIRROR_SET has set last, where it has set one (R474). -/
def Partition.mirrorSet (q : Partition) : Option (Nat × Nat) := if q.mirrorOn = 1 then some (q.mirrorDev, q.mirrorPart) else none

theorem State.latchMirror_of_same {s : State} {p : Nat} (h : (s.part p).mirrorSet = (s.part p).mirrorNow) : s.latchMirror p = s := if_pos h

theorem State.part_latchMirror_of_new {s : State} {p : Nat} (h : (s.part p).mirrorSet ≠ (s.part p).mirrorNow) :
    (s.latchMirror p).part p = { s.part p with mirrorNow := (s.part p).mirrorSet, mirrorTold := false } := by
  have e : s.latchMirror p = _ := if_neg h
  rw [e]
  simp [Partition.mirrorSet]

/-- The mirror that is set is the one in effect, and the numbers of checkpoints stay (R36, R474). -/
theorem State.part_latchMirror (s : State) (p : Nat) : ((s.latchMirror p).part p).mirrorNow = (s.part p).mirrorSet ∧
    ((s.latchMirror p).part p).ckptSeq = (s.part p).ckptSeq ∧ ((s.latchMirror p).part p).cgen = (s.part p).cgen := by
  by_cases h : (s.part p).mirrorSet = (s.part p).mirrorNow
  · rw [State.latchMirror_of_same h]
    exact ⟨h.symm, rfl, rfl⟩
  · rw [State.part_latchMirror_of_new h]
    exact ⟨rfl, rfl, rfl⟩

section
variable {s : State} {p : Nat}

/-! ### Checkpoints -/

/-- A copy that is due is an image written over a state in which the mirror that is set has taken effect (R458 to R461). -/
theorem State.checkpointCopy_of_due {b k : Nat} (due : s.ckpts.find? (fun c => c.1 = p && !c.2.2) = some (p, b, false))
    (job : s.activeJob p = some k) (quiet : s.quiesced p = true) (well : s.recovering p = false)
    (unsent : (s.image (2 * p + (s.part p).nextImage)).mstate ≠ 1) :
    let i := 2 * p + (s.part p).nextImage
    let q := (s.latchMirror p).part p
    let seq := (q.ckptSeq + 1) % 2 ^ 24
    ∃ (t : State) (m : Image), let u := (t.setImage i fun _ => m).setPart p fun x => { x with ckptSeq := seq }
      (s.checkpointCopy p).images = u.images ∧ (s.checkpointCopy p).parts = u.parts ∧ t.part p = q ∧
        m.num = q.cgen * 2 ^ 24 + seq ∧ m.job = k ∧ m.bar = b ∧ m.complete = false := by
  have goes : ¬ (!s.quiesced p || s.recovering p || (s.image (2 * p + (s.part p).nextImage)).mstate = 1) = true := by
    simp [quiet, well, unsent]
  unfold State.checkpointCopy
  simp only [due, job, if_neg goes]
  exact ⟨_, _, rfl, rfl, State.part_foldl_setDirty .., rfl, rfl, rfl, rfl⟩

/-- What such a copy leaves: the image of the next parity under CGEN and the next sequence, not yet complete, and the partner that is set. -/
theorem State.image_part_checkpointCopy {b k : Nat} (due : s.ckpts.find? (fun c => c.1 = p && !c.2.2) = some (p, b, false))
    (job : s.activeJob p = some k) (quiet : s.quiesced p = true) (well : s.recovering p = false)
    (unsent : (s.image (2 * p + (s.part p).nextImage)).mstate ≠ 1) :
    let m := (s.checkpointCopy p).image (2 * p + (s.part p).nextImage)
    let q := (s.checkpointCopy p).part p
    let seq := ((s.part p).ckptSeq + 1) % 2 ^ 24
    m.num = (s.part p).cgen * 2 ^ 24 + seq ∧ m.job = k ∧ m.bar = b ∧ m.complete = false ∧ q.ckptSeq = seq ∧
      q.mirrorNow = (s.part p).mirrorSet := by
  obtain ⟨hnow, hseq, hgen⟩ := s.part_latchMirror p
  obtain ⟨t, m, images, parts, hpart, hnum, hjob, hbar, hcomplete⟩ := State.checkpointCopy_of_due due job quiet well unsent
  have image : (s.checkpointCopy p).image (2 * p + (s.part p).nextImage) = m := by
    rw [State.image_of_images images, State.image_setPart, State.image_setImage_same]
  have part : (s.checkpointCopy p).part p = { (s.latchMirror p).part p with ckptSeq := ((s.part p).ckptSeq + 1) % 2 ^ 24 } := by
    rw [State.part_of_parts parts, State.part_setPart_same, State.part_setImage, hpart, hseq]
  rw [hseq, hgen] at hnum
  dsimp only
  rw [image, part]
  exact ⟨hnum, hjob, hbar, hcomplete, rfl, hnow⟩

/-- A copy that is complete turns the parity, releases its barrier, lets held writes go and begins to be mirrored (R461, R463, R465). -/
theorem State.checkpointComplete_of_copied {c : Nat × Nat × Bool} {k : Nat} (copied : s.ckpts.find? (fun c => c.1 = p && c.2.2) = some c)
    (job : s.activeJob p = some k) :
    let x := (s.part p).nextImage
    let reps := (List.range 16).flatMap fun r => (s.ring (16 * p + r)).reported.map fun n => (16 * p + r, n)
    let t1 := (s.setImage (2 * p + (1 - x)) fun m => { m with reps := reps }).setImage (2 * p + x) fun m => { m with complete := true, stamp := s.stamp }
    let t2 := (List.range 16).foldl (fun (t : State) r => t.setRing (16 * p + r) fun q => { q with reported := [] }) t1.tick
    let t3 : State := { t2.setPart p fun q => { q with nextImage := 1 - x } with ckpts := t2.ckpts.filter fun y => y ≠ c }
    let t4 := t3.finishRelease p k c.2.1 true
    s.checkpointComplete p = ((t4.fabPend.filter fun w => w.part = p && !t4.waitsFor (.fabric w.src w.tag)).foldl
      (fun (t : State) (w : FabPend) => t.resumeWrite w.src w.tag) t4).beginMirror p (2 * p + x) := by
  unfold State.checkpointComplete
  rw [copied, job]

/-! ### Mirror traffic out -/

theorem State.mirrorCommit_of_applied {i : Nat} (sending : s.sending p = some i) (applied : s.fabOpen (.mirror p) = false)
    (good : s.fabWorst (.mirror p) = 0) :
    let t := (s.fabDrop (.mirror p)).setImage i fun m => { m with mstate := 2, mwhole := true }
    s.mirrorCommit p = t.fabSubmit (t.mirrorReqs (.mirror p) p i (16 + 4 * (i % 2)) (toBytes 4 (t.image i).num)) := by
  simp [State.mirrorCommit, sending, applied, good]

/-- The first mirror request that has failed names the device of the fault (R478). -/
theorem State.mirrorFail_of_failed {r : FabReq} {l : List FabReq}
    (failed : (s.fabReqs.filter fun r => r.owner.mirrors p && r.answer.any (· ≥ 2)) = r :: l) :
    let told := !((r :: l).any fun x => x.addr = 0 && x.payload.length = 16)
    let t : State := { s with fabReqs := s.fabReqs.filter fun x => !x.owner.mirrors p }
    let i := (t.sending p).getD ((t.newestImage p).getD (2 * p))
    let v := (t.setImage i fun m => { m with mstate := 3, mwhole := false }).setPart p fun q => { q with mirrorTold := q.mirrorTold && told }
    s.mirrorFail p = (v.logFault { cls := 0xB, part := p, unit := unitWord 0xA r.dst }).hardFault (some p) (unitWord 0xA r.dst) 0xB := by
  unfold State.mirrorFail
  rw [failed]

theorem State.mirrorHeartbeat_of_open (told : (s.part p).mirrorTold = true) (runs : s.jobOpen p = true) : s.mirrorHeartbeat p =
    s.fabSubmit (s.mirrorReqs (.mirror p) p ((s.newestImage p).getD (2 * p)) 0 (toBytes 8 s.time)) := by
  simp [State.mirrorHeartbeat, told, runs]

theorem State.endMirror_of_told (told : (s.part p).mirrorTold = true) : s.endMirror p =
    (s.setPart p fun q => { q with mirrorTold := false }).fabSubmit (s.mirrorReqs (.mirror p) p (2 * p) 24 [0]) := if_pos told

theorem State.mirrorHeartbeat_of_ended (told : (s.part p).mirrorTold = true) (ended : s.jobOpen p = false) :
    s.mirrorHeartbeat p = s.endMirror p := by
  simp [State.mirrorHeartbeat, told, ended]

/-! ### Mirror regions held here -/

theorem State.peerLost_of_silent (used : (s.mirror p).used = true) (unsaid : (s.mirror p).lost = false)
    (runs : s.ldNat ((s.mirror p).base + 24) 1 = 1) : s.peerLost p =
      ((s.setMirror p fun m => { m with lost := true }).logFault { cls := 8, part := p, unit := unitWord 0xA (s.part p).mirrorDev }).hardFault
        (some p) (unitWord 0xA (s.part p).mirrorDev) 8 := by
  simp [State.peerLost, used, unsaid, runs]

end

/-- Settles O43: the checkpoint's copy read field by field, and the equation of each other event in the state that the statement names. -/
theorem checkpointsAndMirror : Obligations.CheckpointsAndMirror := by
  refine fun p s => ⟨fun b k due job quiet well unsent => ?_, fun b k copied job => ?_, fun i sending applied good => ?_, fun r l failed => ?_,
    fun told runs => ?_, fun told ended => ?_, fun used unsaid runs => ?_⟩
  · exact ⟨_, rfl, State.image_part_checkpointCopy due job quiet well unsent⟩
  · exact congrArg Host.Outcome.next (State.checkpointComplete_of_copied copied job)
  · exact congrArg Host.Outcome.next (State.mirrorCommit_of_applied sending applied good)
  · exact congrArg Host.Outcome.next (State.mirrorFail_of_failed failed)
  · exact congrArg Host.Outcome.next (State.mirrorHeartbeat_of_open told runs)
  · exact congrArg Host.Outcome.next ((State.mirrorHeartbeat_of_ended told ended).trans (State.endMirror_of_told told))
  · exact congrArg Host.Outcome.next (State.peerLost_of_silent used unsaid runs)

end Sys2Proof.Machine

/-! ## Number formats: NaNs (R41) -/

namespace Sys2Proof.Machine

/-! ### The NaN among the values

A value keeps neither payload nor sign of a NaN: there is one NaN value, and sums and products absorb into it. -/

theorem Val.isNan_iff {v : Val} : v.isNan = true ↔ v = .nan := by
  cases v <;> simp [Val.isNan]

@[simp] theorem Val.nan_add (v : Val) : Val.nan.add v = .nan := rfl

@[simp] theorem Val.add_nan (v : Val) : v.add .nan = .nan := by
  cases v <;> rfl

@[simp] theorem Val.nan_mul (v : Val) : Val.nan.mul v = .nan := rfl

@[simp] theorem Val.mul_nan (v : Val) : v.mul .nan = .nan := by
  cases v <;> rfl

/-! ### NaN words of a format -/

@[simp] theorem Flt.enc_nan (f : Flt) (rnd : Rnd) : f.enc rnd .nan = f.nan := rfl

/-- A word whose exponent and fraction fields are those of a NaN decodes to it: the exponent all ones, and the fraction all ones where the format
has no infinity, nonzero where it has one (R39). -/
theorem Flt.dec_of_nan_fields {f : Flt} {w : Nat} (exponent : w / 2 ^ f.mb % 2 ^ f.eb = 2 ^ f.eb - 1)
    (fraction : if f.fn then w % 2 ^ f.mb = 2 ^ f.mb - 1 else w % 2 ^ f.mb ≠ 0) : f.dec w = .nan := by
  unfold Flt.dec
  cases h : f.fn <;> simp_all

/-- The exponent and fraction fields of a word that is written as the one over the other. -/
theorem Flt.fields_of_parts {f : Flt} {w e m : Nat} (he : e < 2 ^ f.eb) (hm : m < 2 ^ f.mb) (h : m + 2 ^ f.mb * e = w) :
    w / 2 ^ f.mb % 2 ^ f.eb = e ∧ w % 2 ^ f.mb = m := by
  obtain ⟨hdiv, hmod⟩ := (Nat.div_mod_unique (Nat.two_pow_pos f.mb)).2 ⟨h, hm⟩
  exact ⟨by rw [hdiv, Nat.mod_eq_of_lt he], hmod⟩

/-- The canonical NaN of a format whose fraction has a bit is a NaN (R41). -/
theorem Flt.dec_nan {f : Flt} (bit : 0 < f.mb) : f.dec f.nan = .nan := by
  have he : 2 ^ f.eb - 1 < 2 ^ f.eb := Nat.sub_lt (Nat.two_pow_pos _) one_pos
  cases h : f.fn with
  | true =>
    have hm : 2 ^ f.mb - 1 < 2 ^ f.mb := Nat.sub_lt (Nat.two_pow_pos _) one_pos
    have parts : (2 ^ f.mb - 1) + 2 ^ f.mb * (2 ^ f.eb - 1) = f.nan := by
      have := Nat.le_mul_of_pos_right (2 ^ f.mb) (Nat.two_pow_pos f.eb)
      simp only [Flt.nan, h, if_true, Nat.mul_sub, Nat.pow_add, Nat.mul_comm (2 ^ f.eb)]
      omega
    obtain ⟨exponent, fraction⟩ := Flt.fields_of_parts he hm parts
    exact Flt.dec_of_nan_fields exponent (by rwa [if_pos h])
  | false =>
    have hm : 2 ^ (f.mb - 1) < 2 ^ f.mb := Nat.pow_lt_pow_right one_lt_two (Nat.sub_lt bit one_pos)
    have parts : 2 ^ (f.mb - 1) + 2 ^ f.mb * (2 ^ f.eb - 1) = f.nan := by simp [Flt.nan, h, Nat.mul_comm, Nat.add_comm]
    obtain ⟨exponent, fraction⟩ := Flt.fields_of_parts he hm parts
    refine Flt.dec_of_nan_fields exponent ?_
    rw [if_neg (by simp [h]), fraction]
    exact (Nat.two_pow_pos _).ne'

/-- Settles O59: the canonical words are computed, every NaN word decodes to the one NaN value, which a format writes as its canonical word, and
the canonical word decodes to that value again because each format has a fraction. -/
theorem nansAreCanonical : Obligations.NansAreCanonical := by
  refine ⟨rfl, rfl, rfl, rfl, rfl, fun f _ g _ rnd w _ hw => ?_, fun f hf => ?_, fun v => ?_⟩
  · rw [Val.isNan_iff.1 hw, Flt.enc_nan]
  · have bit : ∀ g ∈ [fp32, bf16, fp16, fp8e5, fp8e4], 0 < g.mb := by decide
    exact Val.isNan_iff.2 (Flt.dec_nan (bit f hf))
  · rw [Val.add_nan, Val.nan_add, Val.mul_nan, Val.nan_mul]
    exact ⟨rfl, rfl, rfl, rfl⟩

end Sys2Proof.Machine

/-! ## Tile words (R78 to R93) -/

namespace Sys2Proof.Machine

/-! ### Packed fields -/

theorem packFields_lt (l : List (Nat × Nat)) : packFields l < 2 ^ (l.map Prod.fst).sum := by
  induction l with
  | nil => simp [packFields]
  | cons f l ih =>
    obtain ⟨w, v⟩ := f
    have hv : v % 2 ^ w < 2 ^ w := Nat.mod_lt _ (Nat.two_pow_pos w)
    simp only [packFields, List.map_cons, List.sum_cons, Nat.pow_add]
    calc v % 2 ^ w + 2 ^ w * packFields l < 2 ^ w * (packFields l + 1) := by rw [Nat.mul_add]; omega
      _ ≤ 2 ^ w * 2 ^ (l.map Prod.fst).sum := Nat.mul_le_mul_left _ ih

@[simp] theorem unpackFields_length (ws : List Nat) (x : Nat) : (unpackFields ws x).length = ws.length := by
  induction ws generalizing x with
  | nil => rfl
  | cons w ws ih => simp [unpackFields, ih]

theorem unpackFields_fit (ws : List Nat) (x : Nat) : fieldsFit ws (unpackFields ws x) = true := by
  induction ws generalizing x with
  | nil => rfl
  | cons w ws ih => simp [unpackFields, fieldsFit, ih, Nat.mod_lt _ (Nat.two_pow_pos w)]

/-- Fields that fit are read back. -/
theorem unpackFields_packFields {ws vs : List Nat} (same : vs.length = ws.length) (fit : fieldsFit ws vs = true) :
    unpackFields ws (packFields (ws.zip vs)) = vs := by
  induction ws generalizing vs with
  | nil => exact (List.length_eq_zero_iff.1 same).symm
  | cons w ws ih =>
    cases vs with
    | nil => simp at same
    | cons v vs =>
      simp only [fieldsFit, Bool.and_eq_true, decide_eq_true_eq] at fit
      obtain ⟨small, fit⟩ := fit
      simp only [List.zip_cons_cons, packFields, unpackFields, Nat.add_mul_mod_self_left, Nat.mod_eq_of_lt small,
        Nat.add_mul_div_left _ _ (Nat.two_pow_pos w), Nat.div_eq_of_lt small, Nat.zero_add, ih (Nat.succ.inj same) fit]

/-- Packing the fields of a word gives its low bits. -/
theorem packFields_unpackFields (ws : List Nat) (x : Nat) : packFields (ws.zip (unpackFields ws x)) = x % 2 ^ ws.sum := by
  induction ws generalizing x with
  | nil => simp [packFields, unpackFields, Nat.mod_one]
  | cons w ws ih => simp only [unpackFields, List.zip_cons_cons, packFields, ih, Nat.mod_mod, List.sum_cons, Nat.pow_add, Nat.mod_mul]

theorem fieldsFit_append_zero {ws vs : List Nat} (room : vs.length < ws.length) (fit : fieldsFit ws vs = true) :
    fieldsFit ws (vs ++ [0]) = true := by
  induction vs generalizing ws with
  | nil => cases ws <;> simp_all [fieldsFit]
  | cons v vs ih =>
    cases ws with
    | nil => simp at room
    | cons w ws =>
      simp only [fieldsFit, Bool.and_eq_true, List.cons_append] at fit ⊢
      exact ⟨fit.1, ih (Nat.lt_of_succ_lt_succ room) fit.2⟩

theorem fieldsFit_of_append {ws vs us : List Nat} (fit : fieldsFit ws (vs ++ us) = true) : fieldsFit ws vs = true := by
  induction vs generalizing ws with
  | nil => cases ws <;> rfl
  | cons v vs ih =>
    cases ws with
    | nil => simp [fieldsFit] at fit
    | cons w ws =>
      simp only [fieldsFit, Bool.and_eq_true, List.cons_append] at fit ⊢
      exact ⟨fit.1, ih fit.2⟩

/-! ### Layouts -/

theorem Tile.layout_head (t : Tile) : tileWidths t.opc = 8 :: (tileWidths t.opc).drop 1 := by
  cases t with
  | xfer st => cases st <;> rfl
  | _ => rfl

theorem Tile.layout_sum (t : Tile) : (tileWidths t.opc).sum = 128 := by
  cases t with
  | xfer st => cases st <;> rfl
  | _ => rfl

theorem Tile.layout_length (t : Tile) : (tileWidths t.opc).length = t.fields.length + 2 := by
  cases t with
  | xfer st => cases st <;> rfl
  | _ => rfl

theorem Tile.opc_lt (t : Tile) : t.opc < 256 := by
  cases t with
  | xfer st => cases st <;> simp [Tile.opc]
  | _ => simp [Tile.opc]

/-- The fields of an instruction give it back; the parts of a TCH's scale operands that have no field are zero where it is not malformed. -/
theorem Tile.ofFields_fields {t : Tile} (h : t.checked = true) : Tile.ofFields t.opc t.fields = some t := by
  cases t with
  | xfer st => cases st <;> rfl
  | tch sbank obank first last qfmt kfmt vfmt qar kar var dlen nkv rus kv vsar star lens qps kps q =>
    obtain ⟨_, _, _, _, _⟩ := kv
    obtain ⟨_, _, _, _, _⟩ := q
    simp_all [Tile.checked, Tile.ofFields, Tile.opc, Tile.fields]
  | _ => rfl

theorem Tile.fields_of_ofFields {opc : Nat} {f : List Nat} {t : Tile} (h : Tile.ofFields opc f = some t) : t.opc = opc ∧ t.fields = f := by
  unfold Tile.ofFields at h
  split at h <;> cases h <;> exact ⟨rfl, rfl⟩

/-! ### Words -/

theorem Tile.wf_iff {t : Tile} : t.wf = true ↔ t.checked = true ∧ fieldsFit ((tileWidths t.opc).drop 1) t.fields = true := by
  simp [Tile.wf]

/-- A word of a layout begins with the opcode. -/
theorem Tile.encode_mod (t : Tile) : t.encode % 256 = t.opc := by
  unfold Tile.encode
  rw [t.layout_head]
  simp only [List.cons_append, List.zip_cons_cons, packFields]
  have := t.opc_lt
  omega

theorem Tile.encode_lt (t : Tile) : t.encode < 2 ^ 128 := by
  have h := packFields_lt ((tileWidths t.opc).zip (t.opc :: t.fields ++ [0]))
  rwa [List.map_fst_zip (by simp [t.layout_length]), t.layout_sum] at h

/-- The fields of a well-formed instruction's word are its opcode, its values and zero in the reserved bits. -/
theorem Tile.unpack_encode {t : Tile} (fit : fieldsFit ((tileWidths t.opc).drop 1) t.fields = true) :
    unpackFields (tileWidths t.opc) t.encode = t.opc :: t.fields ++ [0] := by
  refine unpackFields_packFields (by simp [t.layout_length]) ?_
  have tail := fieldsFit_append_zero (by simp [t.layout_length]) fit
  rw [t.layout_head, List.cons_append, fieldsFit, tail, Bool.and_true]
  exact decide_eq_true t.opc_lt

theorem decodeTile_encode {t : Tile} (h : t.wf = true) : decodeTile t.encode = some t := by
  obtain ⟨checked, fit⟩ := Tile.wf_iff.1 h
  have reserved : (t.opc :: t.fields ++ [0]).getLastD 1 = 0 := by rw [List.getLastD_eq_getLast?, List.getLast?_concat, Option.getD_some]
  simp only [decodeTile, t.encode_mod, Tile.unpack_encode fit, reserved]
  simp [Tile.ofFields_fields checked, checked]

/-- The fields of a word that decodes are the opcode, the values and the reserved bits of its instruction. -/
theorem fields_of_decodeTile {w : Nat} {t : Tile} (h : decodeTile w = some t) :
    t.checked = true ∧ unpackFields (tileWidths t.opc) w = t.opc :: t.fields ++ [0] := by
  unfold decodeTile at h
  dsimp only at h
  split at h
  case h_2 => cases h
  case h_1 u found =>
    split at h
    case isFalse => cases h
    case isTrue good =>
      cases h
      obtain ⟨opc, fields⟩ := Tile.fields_of_ofFields found
      simp only [Bool.and_eq_true, beq_iff_eq] at good
      obtain ⟨checked, reserved⟩ := good
      refine ⟨checked, ?_⟩
      rw [← opc] at fields reserved
      have head : unpackFields (tileWidths t.opc) w = t.opc :: unpackFields ((tileWidths t.opc).drop 1) (w / 2 ^ 8) := by
        rw [t.layout_head, unpackFields, opc]
        rfl
      rw [head, List.drop_one, List.tail_cons] at fields
      have longer : unpackFields ((tileWidths t.opc).drop 1) (w / 2 ^ 8) ≠ [] := by simp [← List.length_pos_iff, t.layout_length]
      have last : (unpackFields ((tileWidths t.opc).drop 1) (w / 2 ^ 8)).getLast longer = 0 := by
        rwa [head, List.getLastD_cons, List.getLastD_eq_getLast?, List.getLast?_eq_some_getLast longer] at reserved
      rw [head, List.cons_append, fields, ← last, List.dropLast_concat_getLast longer]

theorem encode_of_decodeTile {w : Nat} {t : Tile} (small : w < 2 ^ 128) (h : decodeTile w = some t) : t.wf = true ∧ t.encode = w := by
  obtain ⟨checked, fields⟩ := fields_of_decodeTile h
  constructor
  · have fit := unpackFields_fit (tileWidths t.opc) w
    rw [fields, t.layout_head, List.cons_append, fieldsFit, Bool.and_eq_true] at fit
    exact Tile.wf_iff.2 ⟨checked, fieldsFit_of_append fit.2⟩
  · rw [Tile.encode, ← fields, packFields_unpackFields, t.layout_sum, Nat.mod_eq_of_lt small]

/-- Settles O56: packing and unpacking of fields are inverse where the fields fit, and an instruction's fields give it back. -/
theorem tileWordsRoundTrip : Obligations.TileWordsRoundTrip :=
  ⟨fun t h => ⟨t.encode_lt, decodeTile_encode h⟩, fun _ _ small h => encode_of_decodeTile small h⟩

end Sys2Proof.Machine

/-! ## The tile sequencer (R72 to R94, R166)

An instruction at the PC acts in the row of its kind (`State.tileRow_selected`); each clause of the claims is then one equation of the function
that the row calls. -/

namespace Sys2Proof.Machine

/-! ### Issue of data instructions (R78, R79, R94) -/

section
variable {s : State} {c : Fin 512} {pc : Nat} {t : Tile}

/-- The row of its kind gives the instruction at the PC its meaning. -/
theorem State.tileRow_selected (h : s.atTile c pc t) {sel : Tile → Bool} {f : State → Nat → Tile → State} (hs : sel t = true) :
    s.tileRow c sel f = f (s.pump c) pc t := by
  rw [State.tileRow_of_at h, if_pos hs]

theorem State.next_tileRow (h : s.atTile c pc t) {sel : Tile → Bool} {f : State → Nat → Tile → State} {v : State} (hs : sel t = true)
    (acts : f (s.pump c) pc t = v) : (.next (s.tileRow c sel f) : Res) = .next v := by
  rw [State.tileRow_selected h hs, acts]

/-- Every data instruction issues in its own row (R78, R94). -/
theorem exec_dataRow {i : Instr} (h : s.atTile c pc t) (row : dataRow c t = some i) : exec i s = .next ((s.pump c).issueData c pc t) := by
  cases t with
  | xfer st => cases st <;> cases row <;> exact State.next_tileRow h rfl rfl
  | tma | tch | tep => cases row; exact State.next_tileRow h rfl rfl
  | trw op =>
    simp only [dataRow] at row
    split at row <;> cases row <;> exact State.next_tileRow h rfl rfl
  | thx dir =>
    simp only [dataRow] at row
    split_ifs at row with send receive
    · cases row; cases send; exact State.next_tileRow h rfl rfl
    · cases row; cases receive; exact State.next_tileRow h rfl rfl
  | _ => cases row

theorem State.issueData_of_bad {u : State} (bad : (u.mcore c).illegal t = true ∨ u.crowded c t = true) :
    u.issueData c pc t = u.stopMatrix c 1 pc := by
  simp [State.issueData, bad]

theorem State.issueData_of_full {u : State} (legal : (u.mcore c).illegal t = false) (fits : u.crowded c t = false)
    (full : (u.mcore c).full t = true) : u.issueData c pc t = u := by
  simp [State.issueData, legal, fits, full]

theorem State.issueData_of_room {u : State} (legal : (u.mcore c).illegal t = false) (fits : u.crowded c t = false)
    (room : (u.mcore c).full t = false) (live : (u.enqueue c (u.issuedAt c pc t)).coreLive c = true) :
    u.issueData c pc t = (u.enqueue c (u.issuedAt c pc t)).setPc c (pc + 1) := by
  simp [State.issueData, legal, fits, room, live]

end

/-- Settles O12: each of the eleven forms is a data instruction of its row. -/
theorem tileDataInstructionsIssue : Obligations.TileDataInstructionsIssue := by
  intro c pc t s u v h legal fits
  refine ⟨fun i row full => ?_, fun room live => ?_⟩
  · rw [exec_dataRow h row, State.issueData_of_full legal fits full]
  · have issues : ∀ i, dataRow c t = some i → exec i s = .next (v.setPc c (pc + 1)) := fun i row => by
      rw [exec_dataRow h row, State.issueData_of_room legal fits room live]
    refine ⟨?_, ?_, ?_, ?_, ?_, ?_, ?_, ?_, ?_, ?_, ?_⟩
    · rintro ⟨_, _, _, _, _, _, _, rfl⟩; exact issues _ rfl
    · rintro ⟨_, _, _, _, _, _, _, rfl⟩; exact issues _ rfl
    · rintro ⟨_, _, _, _, _, _, _, _, _, _, _, _, _, _, rfl⟩; exact issues _ rfl
    · rintro ⟨_, _, _, _, _, _, _, _, _, _, _, _, _, _, _, _, _, _, _, _, rfl⟩; exact issues _ rfl
    · rintro ⟨_, _, _, _, rfl⟩; exact issues _ rfl
    · rintro ⟨_, _, _, _, rfl⟩; exact issues _ rfl
    · rintro ⟨_, _, _, _, rfl⟩; exact issues _ rfl
    · rintro ⟨_, _, _, _, rfl⟩; exact issues _ rfl
    · rintro ⟨_, _, _, _, _, _, _, _, _, rfl⟩; exact issues _ rfl
    · rintro ⟨_, _, _, _, _, _, rfl⟩; exact issues _ rfl
    · rintro ⟨_, _, _, _, _, _, rfl⟩; exact issues _ rfl

section
variable {s : State} {c : Nat} {sel : Tile → Bool} {f : State → Nat → Tile → State} (live : (s.pump c).coreLive c = true)
  (idle : ((s.pump c).mcore c).wait = .none)
include live idle

/-- A PC beyond the program ends the task in any row (R77). -/
theorem State.tileRow_of_beyond (beyond : ((s.pump c).mcore c).prog[(s.pump c).fget .mcrPc c]? = none) :
    s.tileRow c sel f = (s.pump c).stopMatrix c 6 ((s.pump c).fget .mcrPc c) := by
  simp only [State.tileRow, live, idle, beyond]
  rfl

/-- A word that no instruction has ends the task in any row (R79). -/
theorem State.tileRow_of_malformed {w : Nat} (found : ((s.pump c).mcore c).prog[(s.pump c).fget .mcrPc c]? = some w)
    (malformed : decodeTile w = none) : s.tileRow c sel f = (s.pump c).stopMatrix c 1 ((s.pump c).fget .mcrPc c) := by
  simp only [State.tileRow, live, idle, found, malformed]
  rfl

end

theorem MCore.illegal_xfer (m : MCore) (st : Bool) (tag car mar fmap nrow rlen pitch : Nat) :
    m.illegal (.xfer st tag car mar fmap nrow rlen pitch) = true ↔ SMap.get 0 m.mas mar % 64 ≠ 0 := decide_eq_true_iff

/-- Settles O13: the issue of a data instruction and the sequencer's look at the PC, each in its failing case. -/
theorem badTileInstructionsEndTask : Obligations.BadTileInstructionsEndTask := by
  refine ⟨fun c pc t i s h row bad => ?_, MCore.illegal_xfer, fun c s live idle => ⟨fun beyond => ?_, fun w found malformed => ?_⟩⟩
  · rw [exec_dataRow h row, State.issueData_of_bad bad]
  · exact ⟨congrArg Host.Outcome.next (State.tileRow_of_beyond live idle beyond),
      congrArg Host.Outcome.next (State.tileRow_of_beyond live idle beyond)⟩
  · exact ⟨congrArg Host.Outcome.next (State.tileRow_of_malformed live idle found malformed),
      congrArg Host.Outcome.next (State.tileRow_of_malformed live idle found malformed)⟩

/-! ### TPR (R84) -/

section
variable {u : State} {c pc slot ar : Nat} (queue : (u.mcore c).queue = []) (running : (u.mcore c).running = [])
include queue running

theorem State.tpr_of_clear : u.tpr c pc slot ar 1 = (u.setMcore c fun m => { m with slots := SMap.set [] m.slots slot [] }).setPc c (pc + 1) := by
  simp [State.tpr, queue, running]

/-- A TPR that loads takes a well-formed word into its slot; another word is malformed. -/
theorem State.tpr_of_load : u.tpr c pc slot ar 0 =
    let b := u.ld (coreMem c + 64 * u.fget .mcrAr (16 * c + ar)) 64
    if (if slot < 4 then pWordOk b else eWordOk b) = true then
      (u.setMcore c fun m => { m with slots := SMap.set [] m.slots slot b }).setPc c (pc + 1)
    else u.stopMatrix c 1 pc := by
  simp [State.tpr, queue, running]

end

/-- Settles O14: a TPR that waits for nothing clears its slot, loads it or refuses the word. -/
theorem tprLoadsSlot : Obligations.TprLoadsSlot := by
  intro c pc slot ar s u a b queue running
  refine ⟨fun h => ?_, fun h ok => ?_, fun h bad => ?_⟩
  · exact State.next_tileRow h rfl (State.tpr_of_clear queue running)
  · exact State.next_tileRow h rfl ((State.tpr_of_load queue running).trans (if_pos ok))
  · exact State.next_tileRow h rfl ((State.tpr_of_load queue running).trans (if_neg (Bool.eq_false_iff.1 bad)))

/-! ### Loops (R86 to R88) -/

section
variable {u : State} {c pc lvl csrc count lsel sh i0v i0ar i0base i0str i1v i1ar i1base i1str : Nat}

/-- The trip count of a TLP: its literal, or the tiles of a length (R86). -/
def State.tripCount (u : State) (c csrc count lsel sh : Nat) : Nat :=
  if csrc = 0 then count else ceilDiv (u.fget .mcrLen (4 * c + lsel)) (64 * 2 ^ sh)

/-- The index registers of a TLP take their bases and strides (R86). -/
def State.setIndices (u : State) (c lvl i0v i0ar i0base i0str i1v i1ar i1base i1str : Nat) : State :=
  (u.setIndex c lvl i0v i0ar i0base i0str).setIndex c lvl i1v i1ar i1base i1str

theorem State.tlp_of_count (level : lvl = (u.mcore c).loops.length) (counts : u.tripCount c csrc count lsel sh ≠ 0)
    (fits : u.tripCount c csrc count lsel sh < 2 ^ 24) :
    u.tlp c pc lvl csrc count lsel sh i0v i0ar i0base i0str i1v i1ar i1base i1str =
      ((((u.setIndices c lvl i0v i0ar i0base i0str i1v i1ar i1base i1str).setMcore c fun m =>
        { m with loops := { lvl := lvl, start := pc + 1, count := u.tripCount c csrc count lsel sh } :: m.loops }).fset .mcrLc (4 * c + lvl)
          (u.tripCount c csrc count lsel sh)).setPc c (pc + 1)) := by
  unfold State.tripCount at counts fits
  have small := Nat.not_lt.2 (Nat.le_sub_one_of_lt fits)
  simp only [State.tlp, State.tripCount, State.setIndices, if_neg (not_not.2 level), if_neg small, if_neg counts]

theorem State.tlp_of_zero {e : Nat} {l : List Nat} (level : lvl = (u.mcore c).loops.length) (zero : u.tripCount c csrc count lsel sh = 0)
    (closes : closers (u.mcore c).prog (pc + 1) = e :: l) :
    u.tlp c pc lvl csrc count lsel sh i0v i0ar i0base i0str i1v i1ar i1base i1str =
      (u.setIndices c lvl i0v i0ar i0base i0str i1v i1ar i1base i1str).setPc c (e + 1) := by
  unfold State.tripCount at zero
  simp only [State.tlp, State.setIndices, if_neg (not_not.2 level), zero, closes]
  rfl

end

section
variable {u : State} {c pc lvl armask mamask : Nat} {l : Loop} {rest : List Loop} (opened : (u.mcore c).loops = l :: rest) (level : l.lvl = lvl)
include opened level

/-- TLE moves its registers and counts; then the body starts again, or the registers go back and the level closes (R87). -/
theorem State.tle_of_open : u.tle c pc lvl armask mamask =
    let lc := u.fget .mcrLc (4 * c + lvl) - 1
    let v := ((u.moveArs c lvl armask 1).moveMas c lvl mamask 1).fset .mcrLc (4 * c + lvl) lc
    if lc ≠ 0 then v.setPc c l.start
    else (((v.moveArs c lvl armask (-(l.count : Int))).moveMas c lvl mamask (-(l.count : Int))).setMcore c fun m =>
      { m with loops := rest }).setPc c (pc + 1) := by
  simp only [State.tle, opened, if_neg (not_not.2 level)]

end

section
variable {u : State} {c pc lsel lvl act tsize ofs nskip : Nat} {l : Loop}
  (opened : ((u.mcore c).loops.find? fun x => x.lvl = lvl) = some l)
include opened

theorem State.tsk_of_below (below : ofs + (l.count - u.fget .mcrLc (4 * c + lvl)) * tsize < u.fget .mcrLen (4 * c + lsel)) :
    u.tsk c pc lsel lvl act tsize ofs nskip = u.setPc c (pc + 1) := by
  simp only [State.tsk, opened, if_pos below]

variable (beyond : u.fget .mcrLen (4 * c + lsel) ≤ ofs + (l.count - u.fget .mcrLc (4 * c + lvl)) * tsize)
include beyond

theorem State.tsk_skips (inside : (((u.mcore c).prog.drop (pc + 1)).take nskip).all (fun w => w % 256 ≠ 0x30 && w % 256 ≠ 0x31) = true) :
    u.tsk c pc lsel lvl 2 tsize ofs nskip = (u.fadd .mcrSkips c 1).setPc c (pc + 1 + nskip) := by
  have bare : (((u.mcore c).prog.drop (pc + 1)).take nskip).any (fun w => w % 256 = 0x30 || w % 256 = 0x31) = false := by
    simpa [List.any_eq_false, List.all_eq_true] using inside
  simp only [State.tsk, opened, if_neg (Nat.not_lt.2 beyond), bare]
  rfl

variable {e : Nat} (closes : (closers (u.mcore c).prog pc)[(u.mcore c).loops.length - 1 - lvl]? = some e)
include closes

theorem State.tsk_leaves : u.tsk c pc lsel lvl 0 tsize ofs nskip =
    ((u.fadd .mcrSkips c 1).closeLevels c ((closers (u.mcore c).prog pc).take ((u.mcore c).loops.length - 1 - lvl + 1))).setPc c (e + 1) := by
  simp only [State.tsk, opened, if_neg (Nat.not_lt.2 beyond), closes]
  rfl

theorem State.tsk_next : u.tsk c pc lsel lvl 1 tsize ofs nskip =
    ((u.fadd .mcrSkips c 1).closeLevels c ((closers (u.mcore c).prog pc).take ((u.mcore c).loops.length - 1 - lvl))).setPc c e := by
  simp only [State.tsk, opened, if_neg (Nat.not_lt.2 beyond), closes]
  rfl

end

/-- Settles O15: the equations of TLP, TLE and TSK in the states that the statement names. -/
theorem tileLoops : Obligations.TileLoops := by
  refine ⟨?_, ?_, ?_⟩
  · intro c pc lvl csrc count lsel sh i0v i0ar i0base i0str i1v i1ar i1base i1str s u n v h level
    refine ⟨fun counts fits => ?_, fun e l zero closes => ?_⟩
    · exact State.next_tileRow h rfl (State.tlp_of_count level counts fits)
    · exact State.next_tileRow h rfl (State.tlp_of_zero level zero closes)
  · intro c pc lvl armask mamask l rest s u lc v h opened level
    refine ⟨fun more => ?_, fun last => ?_⟩
    · exact State.next_tileRow h rfl ((State.tle_of_open opened level).trans (if_pos more))
    · exact State.next_tileRow h rfl ((State.tle_of_open opened level).trans (if_neg (not_not.2 last)))
  · intro c pc lsel lvl act tsize ofs nskip l s u i deeper ends h opened
    refine ⟨fun below => ?_, fun beyond => ⟨?_, ?_, ?_⟩⟩
    · exact State.next_tileRow h rfl (State.tsk_of_below opened below)
    · rintro rfl inside
      exact State.next_tileRow h rfl (State.tsk_skips opened beyond inside)
    · rintro e rfl closes
      exact State.next_tileRow h rfl (State.tsk_leaves opened beyond closes)
    · rintro e rfl closes
      exact State.next_tileRow h rfl (State.tsk_next opened beyond closes)

/-! ### Waits, flags, barriers and the end (R89 to R93) -/

theorem State.twtRelease_of_waiting {s : State} {c tags flags clrf ida idb ide : Nat} (live : (s.pump c).coreLive c = true)
    (waits : ((s.pump c).mcore c).wait = .twt)
    (word : decodeTile (((s.pump c).mcore c).prog.getD ((s.pump c).fget .mcrPc c) 0) = some (.twt tags flags clrf ida idb ide)) :
    s.twtRelease c = if (s.pump c).twtHolds c tags flags ida idb ide then (s.pump c).twtEnd c ((s.pump c).fget .mcrPc c) flags clrf
      else s.pump c := by
  simp only [State.twtRelease, live, waits, word]
  rfl

theorem State.tsg_of_settled {u : State} {c pc set clr tgt core : Nat} (settled : (u.mcore c).settled = true) :
    u.tsg c pc set clr tgt core =
      let d := if tgt = 0 then c else c / 8 * 8 + core
      (u.fset .mcrFlags d ((u.fget .mcrFlags d &&& (0xFFFF - clr)) ||| set)).setPc c (pc + 1) := by
  simp [State.tsg, settled]

theorem State.tdf_of_settled {u : State} {c pc bar w : Nat} (settled : (u.mcore c).settled = true) :
    u.tdf c pc bar w =
      ((if w = 1 then u.setMcore c fun m => { m with wait := .tdf bar } else u).setPc c (pc + 1)).arrive (u.corePart c) bar := by
  simp [State.tdf, settled]

theorem State.tend_of_idle {u : State} {c : Nat} (queue : (u.mcore c).queue = []) (running : (u.mcore c).running = []) :
    u.tend c = (u.fset .mcrStatusBusy c 0).setMtask c fun t => { t with outcome := some 0 } := by
  simp [State.tend, queue, running]

/-- Settles O16: each instruction acts in its own row, once its condition holds. -/
theorem tileWaitsFlagsAndEnd : Obligations.TileWaitsFlagsAndEnd := by
  intro c pc s u
  refine ⟨fun tags flags clrf ida idb ide h => ⟨fun holds => ?_, fun fails => ?_⟩, ?_, fun set clr tgt core h settled => ?_,
    fun bar w h settled => ?_, fun h queue running => ?_⟩
  · exact State.next_tileRow h rfl (if_pos holds)
  · exact State.next_tileRow h rfl (if_neg (Bool.eq_false_iff.1 fails))
  · rintro tags flags clrf ida idb ide live waits rfl word holds
    exact congrArg Host.Outcome.next ((State.twtRelease_of_waiting live waits word).trans (if_pos holds))
  · exact State.next_tileRow h rfl (State.tsg_of_settled settled)
  · exact State.next_tileRow h rfl (State.tdf_of_settled settled)
  · exact State.next_tileRow h rfl (State.tend_of_idle queue running)

/-! ### Ends of started instructions (R72, R80, R82, R166) -/

/-- A bank becomes HELD. -/
def heldBank (k : SMap Bank) (b : Nat) : SMap Bank := SMap.set {} k b { SMap.get {} k b with st := 2 }

/-- A bank that a TEP has drained becomes FREE, or HELD again. -/
def drainedBank (k : SMap Bank) (b : Nat) : SMap Bank :=
  SMap.set {} k b (if (SMap.get ({} : Bank) k b).back then { SMap.get ({} : Bank) k b with st := 2, back := false } else {})

/-- The started instructions that `f` names leave their units, and queued ones start. -/
def State.endStarted (s : State) (c : Nat) (f : Started → Bool) : State := ((s.retire c f).syncUnits c).pump c

section
variable {s : State} {c : Nat} {r : Started} (live : s.coreLive c = true)
include live

theorem State.endXfer_of_done {tag : Nat} (found : ((s.mcore c).running.find? fun x => x.i.op.tag? = some tag) = some r)
    (runs : r.paused = false) (done : r.halo = 0) : s.endXfer c tag = s.endStarted c fun x => x.i.op.tag? = some tag := by
  simp [State.endXfer, State.endStarted, found, live, runs, done]

theorem State.retireArray_of_tma {array arr bank acc lfmt rfmt lar rar klen : Nat} {l rr : ScaleSpec} {lps rps llay iar : Nat}
    (found : ((s.mcore c).running.find? fun x => x.i.op.units.contains array) = some r)
    (op : r.i.op = .tma arr bank acc lfmt rfmt lar rar klen l rr lps rps llay iar) :
    s.retireArray c array = (s.setMcore c fun m => { m with banks := heldBank m.banks (2 * arr + bank) }).endStarted c
      fun x => x.i.op.units.contains array := by
  simp only [State.retireArray, found, live, op]
  rfl

theorem State.retireArray_of_tch {array sbank obank first last qfmt kfmt vfmt qar kar var dlen nkv rus : Nat} {kv : ScaleSpec}
    {vsar star lens qps kps : Nat} {q : ScaleSpec}
    (found : ((s.mcore c).running.find? fun x => x.i.op.units.contains array) = some r)
    (op : r.i.op = .tch sbank obank first last qfmt kfmt vfmt qar kar var dlen nkv rus kv vsar star lens qps kps q) :
    s.retireArray c array = (s.setMcore c fun m =>
      { m with banks := (outBanks dlen obank).foldl heldBank (SMap.set {} m.banks sbank {}) }).endStarted c
        fun x => x.i.op.units.contains array := by
  simp only [State.retireArray, found, live, op]
  rfl

theorem State.endTep_of_tep {arr bank eslot ofmt oar sar bvar keep nrows : Nat}
    (found : ((s.mcore c).running.find? fun x => x.i.op.units.contains 2) = some r)
    (op : r.i.op = .tep arr bank eslot ofmt oar sar bvar keep nrows) :
    s.endTep c = (s.setMcore c fun m => { m with banks := drainedBank m.banks (2 * arr + bank) }).endStarted c
      fun x => x.i.op.units.contains 2 := by
  simp only [State.endTep, found, live, op]
  rfl

/-- A halo transfer that alone waits goes on in the retry of its own direction (R166). -/
theorem State.haloRetry_of_alone {d nb car tag nrow rlen slot dir : Nat} (alone : (s.mcore c).running = [r]) (waits : r.halo = 1)
    (op : r.i.op = .thx d nb car tag nrow rlen slot) :
    s.haloRetry c dir = (if d = dir then s.runXfer c r.i else s).syncUnits c := by
  by_cases same : d = dir <;> simp [State.haloRetry, alone, waits, op, live, same]

end

/-- Settles O17: the end of each kind of started instruction, and the retries of the two directions of a halo transfer. -/
theorem tileInstructionsRetire : Obligations.TileInstructionsRetire := by
  refine ⟨fun c r s live => ⟨fun tag found runs done => ?_, ?_, ?_, ?_⟩, fun c r nb car tag nrow rlen slot s live alone waits =>
    ⟨fun op => ⟨?_, ?_⟩, fun op => ⟨?_, ?_⟩⟩⟩
  · exact congrArg Host.Outcome.next (State.endXfer_of_done live found runs done)
  · intro b arr bank acc lfmt rfmt lar rar klen l rr lps rps llay iar found op
    exact congrArg Host.Outcome.next (State.retireArray_of_tma live found op)
  · intro b sbank obank first last qfmt kfmt vfmt qar kar var dlen nkv rus kv vsar star lens qps kps q found op
    exact congrArg Host.Outcome.next (State.retireArray_of_tch live found op)
  · intro arr bank eslot ofmt oar sar bvar keep nrows found op
    exact congrArg Host.Outcome.next (State.endTep_of_tep live found op)
  · exact congrArg Host.Outcome.next (State.haloRetry_of_alone live alone waits op)
  · exact congrArg Host.Outcome.next (State.haloRetry_of_alone live alone waits op)
  · exact congrArg Host.Outcome.next (State.haloRetry_of_alone live alone waits op)
  · exact congrArg Host.Outcome.next (State.haloRetry_of_alone live alone waits op)

end Sys2Proof.Machine

/-! ## Recovery from faults (R464) -/

namespace Sys2Proof.Machine

/-- With nothing to replace and an image at hand, RECOVERY_REPLACEMENT_DONE drops the translations held for the partition and chooses the image. -/
theorem State.recoveryReplaced_of_image {s : State} {p i : Nat} {r : Recovery} (found : s.recovery p = some r) (mill : s.millUp = true)
    (phase : r.phase = 1) (skeins : r.skeins = []) (job : (s.activeJob p).isSome = true) (image : s.imageFor r = some i) :
    s.recoveryReplaced p = ({ s with atc := s.atc.filter fun e => e.1 ≠ p + 1 } : State).setRecovery p
      fun x => { x with phase := 2, image := some i, action := if r.cls = 3 then 6 else 4, skeins := [] } := by
  have hasJob : (s.activeJob p).isNone = false := by simpa using job
  have whole : s.replaceable [] = true := rfl
  simp [State.recoveryReplaced, found, mill, phase, skeins, whole, hasJob, image]

/-- A recovery of partition 0 whose work has stopped, with no skein to replace. -/
def stoppedRecovery : Recovery := { part := 0, cls := 1, phase := 1 }

/-- Formed partition 0 has an active job, a complete image of it, a recovery that has stopped the work, and a held translation. -/
def recoveringWithTranslation : State :=
  { (State.reset.fset .glbReadyStatus 0 2).fset .ringPstatusFormed 0 1 with
    parts := [(0, { mask := 1 })], jobs := [(0, { isOpen := true })], images := [(0, { complete := true })],
    recoveries := [stoppedRecovery], atc := [(1, 0, 0)] }

/-- Refutes O44: the clause of RECOVERY_REPLACEMENT_DONE that chooses an image changes nothing but the recovery, yet the model also drops the
translations held for the partition, as R464 step 3 asks; the state above holds one. -/
theorem not_faultsAreHandled : ¬ Obligations.FaultsAreHandled := by
  intro h
  obtain ⟨-, -, -, -, -, -, -, recoveries, -⟩ := h recoveringWithTranslation
  have found : recoveringWithTranslation.recovery 0 = some stoppedRecovery := rfl
  have mill : recoveringWithTranslation.millUp = true := by decide
  have job : (recoveringWithTranslation.activeJob 0).isSome = true := by decide
  have image : recoveringWithTranslation.imageFor stoppedRecovery = some 0 := by decide
  obtain ⟨-, -, -, -, withImage, -⟩ := recoveries 0 stoppedRecovery found mill
  have claimed := congrArg State.atc (Host.Outcome.next.inj (withImage 0 rfl rfl job image))
  have actual := congrArg State.atc (State.recoveryReplaced_of_image found mill rfl rfl job image)
  have same : [((1, 0, 0) : Nat × Nat × Nat)] = [] := claimed.symm.trans actual
  cases same

end Sys2Proof.Machine

/-! ## Sort requests (R175 to R177, R193) -/

namespace Sys2Proof.Machine

/-- A carding instruction whose turn has come leaves the state that its row's effect gives. -/
theorem State.next_cardRow {s u v : State} {t pc len w : Nat} {row : CRow} (h : s.atCard t row u pc len w)
    {f : State → Nat → Nat → Nat → State} (effect : f u pc len w = v) : (Host.Outcome.next (s.cardRow t row f) : Res) = .next v :=
  congrArg Host.Outcome.next ((State.cardRow_of_at h f).trans effect)

/-- An access of a thread that succeeds goes on with its bytes. -/
@[simp] theorem State.after_ok (s u : State) (t : Nat) (write : Bool) (b : List Byte) (k : State → List Byte → State) :
    s.after t write (u, .ok b) k = k u b := rfl

/-! ### XC.SORT -/

section
variable {s u : State} {t : ThreadId} {pc len w : Nat} (turn : s.atCard t.num .sort u pc len w)
include turn

theorem execXcSort_of_unaligned (odd : (u.thread t.num).rx (bitField w 15 5) % 64 ≠ 0) :
    execXcSort t s = .next (u.stopThread t.num 1) :=
  State.next_cardRow turn (if_pos odd)

theorem execXcSort_of_full (aligned : (u.thread t.num).rx (bitField w 15 5) % 64 = 0)
    (full : 8 ≤ (u.sorts.filter fun r => r.skein = t.num / 256).length) : execXcSort t s = .next s :=
  State.next_cardRow turn ((if_neg (not_not.2 aligned)).trans (if_pos full))

theorem execXcSort_of_room {v y : State} {d b : List Byte} (aligned : (u.thread t.num).rx (bitField w 15 5) % 64 = 0)
    (room : (u.sorts.filter fun r => r.skein = t.num / 256).length < 8)
    (request : u.cread t.num ((u.thread t.num).rx (bitField w 15 5)) 64 = (v, .ok d))
    (pending : v.cwrite t.num ((u.thread t.num).rx (bitField w 15 5) + 36) (List.replicate 4 0xFF) = (y, .ok b)) :
    execXcSort t s = .next (State.cretire
      { y with sorts := y.sorts ++ [{ skein := t.num / 256, thread := t.num, va := (u.thread t.num).rx (bitField w 15 5), data := d }] }
      t.num (y.thread t.num) (pc + len) 0) := by
  refine State.next_cardRow turn ((if_neg (not_not.2 aligned)).trans ((if_neg (Nat.not_le.2 room)).trans ?_))
  simp only [Thread.ops, request, State.after_ok, pending]

end

/-! ### SORT_DONE -/

section
variable {s : State} {q : Fin 64} {r : SortReq} (oldest : s.sorts.find? (fun r => r.skein = q.val) = some r)
  (free : s.waitsFor (.sort q.val) = false) (unsorted : r.writes = none)
include oldest free unsorted

theorem execSortDone_of_bad (bad : sortBad r.data = true) : execSortDone q s = .next (s.sortEnd r 1) := by
  simp [execSortDone, oldest, free, unsorted, bad]

theorem execSortDone_of_read {v : State} {b : List Byte} (good : sortBad r.data = false)
    (row : s.cread r.thread (fld r.data 0 8) (fld r.data 24 4 * (fmtWidth (byteAt r.data 30) / 8)) = (v, .ok b)) :
    execSortDone q s =
      .next (v.sortGo r (sortWrites r ((List.range (fld r.data 24 4)).map fun i => elemOf (byteAt r.data 30) b i)) 24) := by
  simp [execSortDone, oldest, free, unsorted, good, row]

end

/-! ### The writes of a request -/

/-- With no write left the request leaves the network. -/
@[simp] theorem State.sortGo_nil (s : State) (r : SortReq) (n : Nat) : s.sortGo r [] (n + 1) = { s with sorts := s.sorts.erase r } := rfl

/-- A write that succeeds is followed by the next one. -/
theorem State.sortGo_cons_of_ok {s v : State} {r : SortReq} {a : Nat} {bs d : List Byte} (wrote : s.cwrite r.thread a bs = (v, .ok d))
    (rest : List (Nat × List Byte)) (n : Nat) : s.sortGo r ((a, bs) :: rest) (n + 1) = v.sortGo r rest n := by
  simp only [State.sortGo, wrote]

/-- Settles O24: XC.SORT by the alignment of its address and the room in the network, SORT_DONE by the check of its request, and the writes of a
request one by one. -/
theorem sortRequests : Obligations.SortRequests := by
  intro t s u v y pc len w d b
  refine ⟨fun turn => ⟨execXcSort_of_unaligned turn, execXcSort_of_full turn, execXcSort_of_room turn⟩,
    fun q r oldest free unsorted => ⟨execSortDone_of_bad oldest free unsorted, execSortDone_of_read oldest free unsorted⟩,
    fun r n => ⟨State.sortGo_nil s r n, fun a bs rest wrote => State.sortGo_cons_of_ok wrote rest n⟩⟩

end Sys2Proof.Machine

/-! ## Carding instructions (R178 to R185) -/

namespace Sys2Proof.Machine

/-! ### Integer registers of a thread -/

@[simp] theorem Thread.rx_zero (h : Thread) : h.rx 0 = 0 := rfl

@[simp] theorem Thread.wx_zero (h : Thread) (v : Nat) : h.wx 0 v = h := rfl

theorem Thread.rx_wx_same (h : Thread) {r : Nat} (v : Nat) (hr : r ≠ 0) : (h.wx r v).rx r = v % 2 ^ 64 := by
  simp [Thread.rx, Thread.wx, hr]

theorem Thread.rx_wx_ne (h : Thread) {q r : Nat} (v : Nat) (hq : q ≠ r) : (h.wx r v).rx q = h.rx q := by
  by_cases hr : r = 0
  · simp [hr]
  · simp [Thread.rx, Thread.wx, hr, hq]

/-! ### Ordinary instructions -/

section
variable {u : State} {t pc len w : Nat}

theorem State.ordinary_of_addi (opcode : w % 128 = 0x13) (funct3 : bitField w 12 3 = 0) :
    u.ordinary t pc len w = u.draw.cretire t
      ((u.thread t).wx (bitField w 7 5) (((u.thread t).rx (bitField w 15 5) + sx 12 (w / 2 ^ 20)) % 2 ^ 64)) (pc + len) 0 := by
  simp only [State.ordinary, opcode, scalarOp, funct3, State.finish, aluOp]
  rfl

theorem State.ordinary_of_scalarMem {v : State} (opcode : w % 128 = 0x03 ∨ w % 128 = 0x23) (access : u.scalarMem t pc len w = some v) :
    u.ordinary t pc len w = v := by
  rcases opcode with load | store
  · simp only [State.ordinary, load, access]
  · simp only [State.ordinary, store, access]

theorem State.ordinary_of_ld {v : State} {b : List Byte} (opcode : w % 128 = 0x03) (funct3 : bitField w 12 3 = 3)
    (read : u.cread t (((u.thread t).rx (bitField w 15 5) + sx 12 (w / 2 ^ 20)) % 2 ^ 64) 8 = (v, .ok b)) :
    u.ordinary t pc len w = v.cretire t ((u.thread t).wx (bitField w 7 5) (sx 64 (ofBytes b))) (pc + len) 0 := by
  simp only [sx, Nat.reducePow] at read
  refine State.ordinary_of_scalarMem (.inl opcode) ?_
  simp [State.scalarMem, opcode, funct3, read]

theorem State.ordinary_of_sd {v : State} (opcode : w % 128 = 0x23) (funct3 : bitField w 12 3 = 3)
    (wrote : u.cwrite t (((u.thread t).rx (bitField w 15 5) + sx 12 (bitField w 7 5 + bitField w 25 7 * 32)) % 2 ^ 64)
      (toBytes 8 ((u.thread t).rx (bitField w 20 5))) = (v, .ok [])) :
    u.ordinary t pc len w = v.cretire t (v.thread t) (pc + len) 0 := by
  simp only [sx, Nat.reducePow] at wrote
  refine State.ordinary_of_scalarMem (.inr opcode) ?_
  simp [State.scalarMem, opcode, funct3, wrote]

end

/-! ### ECALL and EBREAK -/

section
variable {s u : State} {t : ThreadId} {pc len w : Nat}

theorem execEcall_of_zero (turn : s.atCard t.num .ecall u pc len w) (zero : (u.thread t.num).rx 10 = 0) :
    execEcall t s = .next ((u.cretire t.num (u.thread t.num) (pc + len) 0).stopThread t.num 0) :=
  State.next_cardRow turn (if_pos zero)

theorem execEcall_of_code (turn : s.atCard t.num .ecall u pc len w) (code : (u.thread t.num).rx 10 ≠ 0) :
    execEcall t s = .next ((u.fset .crdExit (t.num / 8) ((u.thread t.num).rx 10 % 2 ^ 32)).stopThread t.num 7) :=
  State.next_cardRow turn (if_neg code)

theorem execEbreak_of_debugger (turn : s.atCard t.num .ebreak u pc len w) (full : u.fget .secDbgApplied 0 = 2)
    (selected : u.fget .secDbgJtag 0 = 1) :
    execEbreak t s = .next (u.cretire t.num { u.thread t.num with wait := .break } (pc + len) 0) :=
  State.next_cardRow turn (by simp [full, selected])

theorem execEbreak_of_alone (turn : s.atCard t.num .ebreak u pc len w) (alone : u.fget .secDbgApplied 0 ≠ 2 ∨ u.fget .secDbgJtag 0 ≠ 1) :
    execEbreak t s = .next (u.stopThread t.num 6) :=
  State.next_cardRow turn (if_neg (by simpa [Classical.or_iff_not_imp_left] using alone))

end

/-- Settles O19: the instruction at the pc acts in its own row, by the equation of its kind; the laws of `Thread.rx` and `Thread.wx`. -/
theorem cardingInstructionsRun : Obligations.CardingInstructionsRun := by
  refine ⟨fun t s u pc len w => ⟨fun turn => ⟨State.next_cardRow turn rfl, ?addi, ?ld, ?sd⟩,
      fun turn => ⟨execEcall_of_zero turn, execEcall_of_code turn⟩,
      fun turn => ⟨execEbreak_of_debugger turn, execEbreak_of_alone turn⟩⟩,
    fun h r q v => ⟨h.rx_zero, h.wx_zero v, h.rx_wx_same v, h.rx_wx_ne v⟩⟩
  case addi => exact fun opcode funct3 => State.next_cardRow turn (State.ordinary_of_addi opcode funct3)
  case ld => exact fun v b opcode funct3 read => State.next_cardRow turn (State.ordinary_of_ld opcode funct3 read)
  case sd => exact fun v opcode funct3 wrote => State.next_cardRow turn (State.ordinary_of_sd opcode funct3 wrote)

end Sys2Proof.Machine

/-! ## Xcard flag instructions (R187, R189) -/

namespace Sys2Proof.Machine

/-! ### The operands of a flag instruction (R187) -/

section
variable {s : State} {t w : Nat} {useMask : Bool} (k : State → Nat → Nat → State)

theorem State.flagOp_of_bad (bad : 7 < ((s.thread t).ops w).1 ∨ useMask = true ∧ 0xFFFF < ((s.thread t).ops w).2) :
    s.flagOp t w useMask k = s.stopThread t 1 :=
  if_pos (by simpa using bad)

theorem State.flagOp_of_legal (core : ((s.thread t).ops w).1 ≤ 7) (mask : useMask = true → ((s.thread t).ops w).2 ≤ 0xFFFF) :
    s.flagOp t w useMask k = k s (8 * (t / 256) + ((s.thread t).ops w).1) ((s.thread t).ops w).2 :=
  if_neg (by simpa using ⟨core, mask⟩)

end

/-! ### FSET and FCLR: one equation for each outcome of a flag write -/

section
variable {s u : State} {t pc len w : Nat} {row : CRow} (turn : s.atCard t row u pc len w) (f : Nat → Nat → Nat)
include turn

theorem State.flagWrite_of_bad (bad : 7 < ((u.thread t).ops w).1 ∨ 0xFFFF < ((u.thread t).ops w).2) :
    s.flagWrite t row f = u.stopThread t 1 :=
  (State.cardRow_of_at turn _).trans (State.flagOp_of_bad _ (bad.imp_right (.intro rfl)))

theorem State.flagWrite_of_handsOff (core : ((u.thread t).ops w).1 ≤ 7) (mask : ((u.thread t).ops w).2 ≤ 0xFFFF)
    (busy : u.handsOff t = true) : s.flagWrite t row f = s :=
  (State.cardRow_of_at turn _).trans ((State.flagOp_of_legal _ core fun _ => mask).trans (if_pos busy))

theorem State.flagWrite_of_free (core : ((u.thread t).ops w).1 ≤ 7) (mask : ((u.thread t).ops w).2 ≤ 0xFFFF)
    (free : u.handsOff t = false) : s.flagWrite t row f =
      (u.fset .mcrFlags (8 * (t / 256) + ((u.thread t).ops w).1)
        (f (u.fget .mcrFlags (8 * (t / 256) + ((u.thread t).ops w).1)) ((u.thread t).ops w).2)).cretire t (u.thread t) (pc + len) 0 :=
  (State.cardRow_of_at turn _).trans ((State.flagOp_of_legal _ core fun _ => mask).trans (if_neg (Bool.eq_false_iff.1 free)))

end

/-! ### FRD, FWAIT and its wake -/

section
variable {s u : State} {t : ThreadId} {pc len w : Nat}

theorem execXcFrd_of_legal (turn : s.atCard t.num .frd u pc len w) (core : ((u.thread t.num).ops w).1 ≤ 7) :
    execXcFrd t s = .next (u.cretire t.num ((u.thread t.num).wx (bitField w 7 5)
      (u.fget .mcrFlags (8 * (t.num / 256) + ((u.thread t.num).ops w).1))) (pc + len) 0) :=
  State.next_cardRow turn (State.flagOp_of_legal _ core nofun)

theorem execXcFrd_of_bad (turn : s.atCard t.num .frd u pc len w) (bad : 7 < ((u.thread t.num).ops w).1) :
    execXcFrd t s = .next (u.stopThread t.num 1) :=
  State.next_cardRow turn (State.flagOp_of_bad _ (.inl bad))

theorem execXcFwait_of_bad (turn : s.atCard t.num .fwait u pc len w)
    (bad : 7 < ((u.thread t.num).ops w).1 ∨ 0xFFFF < ((u.thread t.num).ops w).2) : execXcFwait t s = .next (u.stopThread t.num 1) :=
  State.next_cardRow turn (State.flagOp_of_bad _ (bad.imp_right (.intro rfl)))

section
variable (turn : s.atCard t.num .fwait u pc len w) (core : ((u.thread t.num).ops w).1 ≤ 7)
  (mask : ((u.thread t.num).ops w).2 ≤ 0xFFFF)
include turn core mask

theorem execXcFwait_of_set (allSet : u.fget .mcrFlags (8 * (t.num / 256) + ((u.thread t.num).ops w).1) &&& ((u.thread t.num).ops w).2 =
      ((u.thread t.num).ops w).2) :
    execXcFwait t s = .next (u.cretire t.num ((u.thread t.num).wx (bitField w 7 5)
      (u.fget .mcrFlags (8 * (t.num / 256) + ((u.thread t.num).ops w).1))) (pc + len) 0) :=
  State.next_cardRow turn ((State.flagOp_of_legal _ core fun _ => mask).trans (if_pos allSet))

theorem execXcFwait_of_clear (someClear : u.fget .mcrFlags (8 * (t.num / 256) + ((u.thread t.num).ops w).1) &&& ((u.thread t.num).ops w).2 ≠
      ((u.thread t.num).ops w).2) :
    execXcFwait t s = .next (u.setThread t.num fun x =>
      { x with wait := .flags (8 * (t.num / 256) + ((u.thread t.num).ops w).1) ((u.thread t.num).ops w).2 (bitField w 7 5) }) :=
  State.next_cardRow turn ((State.flagOp_of_legal _ core fun _ => mask).trans (if_neg someClear))

end

theorem execFwaitWake_of_set {c m rd : Nat} (waits : (s.thread t.num).wait = .flags c m rd) (active : (s.ctask t.num).active = true)
    (runs : s.frozen (s.threadPart t.num) = false) (allSet : s.fget .mcrFlags c &&& m = m) :
    execFwaitWake t s = .next (s.cretire t.num { (s.thread t.num).wx rd (s.fget .mcrFlags c) with wait := .none }
      (s.fget .crdPc t.num + 4) 0) := by
  simp [execFwaitWake, waits, active, runs, allSet]

end

/-- Settles O20: FSET and FCLR are the two flag writes; FRD, FWAIT and its wake by their own equations. -/
theorem xcardFlags : Obligations.XcardFlags := by
  intro t s u pc len w
  refine ⟨fun turn => ⟨?set, ?setWaits, ?setBad⟩, fun turn => ⟨?clear, ?clearWaits, ?clearBad⟩,
    fun turn => ⟨execXcFrd_of_legal turn, execXcFrd_of_bad turn⟩,
    fun turn => ⟨execXcFwait_of_set turn, execXcFwait_of_clear turn, execXcFwait_of_bad turn⟩,
    fun c m rd => execFwaitWake_of_set⟩
  case set => exact fun core mask free => congrArg Host.Outcome.next (State.flagWrite_of_free turn _ core mask free)
  case setWaits => exact fun core mask busy => congrArg Host.Outcome.next (State.flagWrite_of_handsOff turn _ core mask busy)
  case setBad => exact fun bad => congrArg Host.Outcome.next (State.flagWrite_of_bad turn _ bad)
  case clear => exact fun core mask free => congrArg Host.Outcome.next (State.flagWrite_of_free turn _ core mask free)
  case clearWaits => exact fun core mask busy => congrArg Host.Outcome.next (State.flagWrite_of_handsOff turn _ core mask busy)
  case clearBad => exact fun bad => congrArg Host.Outcome.next (State.flagWrite_of_bad turn _ bad)

end Sys2Proof.Machine

/-! ## Xcard statistics instructions (R187, R199 to R202) -/

namespace Sys2Proof.Machine

/-! ### The operands of a statistics instruction (R187) -/

section
variable {s : State} {t w : Nat} {record : Bool} (k : State → Nat → StatAcc → Nat → State)

theorem State.statOp_of_bad (bad : 3 < ((s.thread t).ops w).2 ∨ record = true ∧ ((s.thread t).ops w).1 % 64 ≠ 0) :
    s.statOp t w record k = s.stopThread t 1 :=
  if_pos (by simpa using bad)

theorem State.statOp_of_legal (acc : ((s.thread t).ops w).2 ≤ 3) (aligned : record = true → ((s.thread t).ops w).1 % 64 = 0) :
    s.statOp t w record k =
      k s ((s.thread t).ops w).2 (SMap.get {} (s.thread t).stats ((s.thread t).ops w).2) ((s.thread t).ops w).1 :=
  if_neg (by simpa using ⟨acc, aligned⟩)

end

section
variable {s u : State} {t : ThreadId} {pc len w : Nat}

/-! ### STCLR -/

theorem execXcStclr_of_legal (turn : s.atCard t.num .stclr u pc len w) (acc : ((u.thread t.num).ops w).2 ≤ 3) :
    execXcStclr t s = .next (u.cretire t.num ((u.thread t.num).setStat ((u.thread t.num).ops w).2 {}) (pc + len) 0) :=
  State.next_cardRow turn (State.statOp_of_legal _ acc nofun)

theorem execXcStclr_of_bad (turn : s.atCard t.num .stclr u pc len w) (bad : 3 < ((u.thread t.num).ops w).2) :
    execXcStclr t s = .next (u.stopThread t.num 1) :=
  State.next_cardRow turn (State.statOp_of_bad _ (.inl bad))

/-! ### STSAVE -/

theorem execXcStsave_of_written {v : State} (turn : s.atCard t.num .stsave u pc len w) (acc : ((u.thread t.num).ops w).2 ≤ 3)
    (aligned : ((u.thread t.num).ops w).1 % 64 = 0)
    (wrote : u.cwrite t.num ((u.thread t.num).ops w).1
      (SMap.get {} (u.thread t.num).stats ((u.thread t.num).ops w).2 : StatAcc).record = (v, .ok [])) :
    execXcStsave t s = .next (v.cretire t.num (v.thread t.num) (pc + len) 0) := by
  refine State.next_cardRow turn ((State.statOp_of_legal _ acc fun _ => aligned).trans ?_)
  simp only [wrote, State.after_ok]

theorem execXcStsave_of_bad (turn : s.atCard t.num .stsave u pc len w)
    (bad : 3 < ((u.thread t.num).ops w).2 ∨ ((u.thread t.num).ops w).1 % 64 ≠ 0) : execXcStsave t s = .next (u.stopThread t.num 1) :=
  State.next_cardRow turn (State.statOp_of_bad _ (bad.imp_right (.intro rfl)))

/-! ### STMERGE -/

section
variable {v : State} {b : List Byte} (turn : s.atCard t.num .stmerge u pc len w) (acc : ((u.thread t.num).ops w).2 ≤ 3)
  (aligned : ((u.thread t.num).ops w).1 % 64 = 0) (read : u.cread t.num ((u.thread t.num).ops w).1 192 = (v, .ok b))
include turn acc aligned read

theorem execXcStmerge_of_record {r : StatAcc} (record : statOf b = some r) :
    execXcStmerge t s = .next (v.cretire t.num ((v.thread t.num).setStat ((u.thread t.num).ops w).2
      ((SMap.get {} (u.thread t.num).stats ((u.thread t.num).ops w).2 : StatAcc).merge r)) (pc + len) 0) := by
  refine State.next_cardRow turn ((State.statOp_of_legal _ acc fun _ => aligned).trans ?_)
  simp only [read, State.after_ok, record]

theorem execXcStmerge_of_malformed (malformed : statOf b = none) : execXcStmerge t s = .next (v.stopThread t.num 1) := by
  refine State.next_cardRow turn ((State.statOp_of_legal _ acc fun _ => aligned).trans ?_)
  simp only [read, State.after_ok, malformed]

end

theorem execXcStmerge_of_bad (turn : s.atCard t.num .stmerge u pc len w)
    (bad : 3 < ((u.thread t.num).ops w).2 ∨ ((u.thread t.num).ops w).1 % 64 ≠ 0) : execXcStmerge t s = .next (u.stopThread t.num 1) :=
  State.next_cardRow turn (State.statOp_of_bad _ (bad.imp_right (.intro rfl)))

/-! ### STFIN -/

/-- What STFIN makes of its accumulator: mean, deviation, and whether FLUSH replaced a value (R202). -/
def State.stfinOf (u : State) (t w : Nat) : Nat × Nat × Bool :=
  (SMap.get {} (u.thread t).stats ((u.thread t).ops w).2 : StatAcc).final (u.cardFlush (t / 8)) (u.thread t).xceps

theorem execXcStfin_of_written {v : State} (turn : s.atCard t.num .stfin u pc len w) (acc : ((u.thread t.num).ops w).2 ≤ 3)
    (wrote : u.cwrite t.num ((u.thread t.num).ops w).1 (toBytes 4 (u.stfinOf t.num w).1 ++ toBytes 4 (u.stfinOf t.num w).2.1) = (v, .ok [])) :
    execXcStfin t s =
      .next ((v.cretire t.num (v.thread t.num) (pc + len) 0).noteFlush (t.num / 8) (u.stfinOf t.num w).2.2) := by
  refine State.next_cardRow turn ((State.statOp_of_legal (record := false) _ acc nofun).trans ?_)
  rw [State.stfinOf] at wrote ⊢
  simp only [wrote, State.after_ok]

theorem execXcStfin_of_bad (turn : s.atCard t.num .stfin u pc len w) (bad : 3 < ((u.thread t.num).ops w).2) :
    execXcStfin t s = .next (u.stopThread t.num 1) :=
  State.next_cardRow turn (State.statOp_of_bad _ (.inl bad))

end

/-- Settles O22: each instruction by the check of its operands, and by what its access of memory gives. -/
theorem xcardStatistics : Obligations.XcardStatistics := by
  intro t s u pc len w
  refine ⟨fun turn => ⟨execXcStclr_of_legal turn, execXcStclr_of_bad turn⟩,
    fun turn => ⟨fun v => execXcStsave_of_written turn, execXcStsave_of_bad turn⟩, fun turn => ⟨?merge, execXcStmerge_of_bad turn⟩,
    fun turn => ⟨fun v => execXcStfin_of_written turn, execXcStfin_of_bad turn⟩⟩
  case merge =>
    exact fun v b acc aligned read =>
      ⟨fun r => execXcStmerge_of_record turn acc aligned read, execXcStmerge_of_malformed turn acc aligned read⟩

end Sys2Proof.Machine

/-! ## Xcard vector instructions (R188, R192, R194, R197 to R199) -/

namespace Sys2Proof.Machine

section
variable {s u : State} {t : ThreadId} {pc len w : Nat} {c : VC}

/-! ### VSF and VFBA -/

theorem execXcVsf_of_illegal (turn : s.atCard t.num .vsf u pc len w) (illegal : xvc (u.thread t.num) w [bitField w 20 5] true = none) :
    execXcVsf t s = .next (u.stopThread t.num 1) :=
  State.next_cardRow turn (by simp only [illegal])

theorem execXcVsf_of_legal (turn : s.atCard t.num .vsf u pc len w) (legal : xvc (u.thread t.num) w [bitField w 20 5] true = some c) :
    execXcVsf t s = .next (u.xcElts t.num pc len w c (c.actives.map fun i =>
      vsfElt (u.cardFlush (t.num / 8)) (fnOf (bitField w 26 3)) (ofmtCode (bitField w 29 3)) (c.h.velt (bitField w 20 5) 32 i))) :=
  State.next_cardRow turn (by simp only [legal])

theorem execXcVfba_of_illegal (turn : s.atCard t.num .vfba u pc len w)
    (illegal : xvc (u.thread t.num) w [bitField w 20 5, bitField w 15 5] true = none) : execXcVfba t s = .next (u.stopThread t.num 1) :=
  State.next_cardRow turn (by simp only [illegal])

theorem execXcVfba_of_legal (turn : s.atCard t.num .vfba u pc len w)
    (legal : xvc (u.thread t.num) w [bitField w 20 5, bitField w 15 5] true = some c) :
    execXcVfba t s = .next (u.xcElts t.num pc len w c (c.actives.map fun i =>
      vfbaElt (u.cardFlush (t.num / 8)) (bitField w 26 3) (ofmtCode (bitField w 29 3)) (c.h.velt (bitField w 15 5) 32 i)
        (c.h.velt (bitField w 20 5) 32 i) (c.h.velt (bitField w 7 5) 32 i))) :=
  State.next_cardRow turn (by simp only [legal])

/-! ### VCVT -/

theorem execXcVcvt_of_illegal (turn : s.atCard t.num .vcvt u pc len w) (illegal : xvc (u.thread t.num) w [bitField w 20 5] true = none) :
    execXcVcvt t s = .next (u.stopThread t.num 1) :=
  State.next_cardRow turn (by simp only [illegal])

/-- The conversions of VCVT on the active elements, from the state in which its thread has left its place at the lanes. -/
def State.vcvtElts (u : State) (t w : Nat) (c : VC) : State × List (Nat × Bool) :=
  (u.leaveLanes (t + 1)).vcvtGo (t / 256) (((u.thread t).ops w).1 % 64) (bitAt w 30) (u.cardFlush (t / 8)) (bitField w 26 4)
    (c.actives.map fun i => c.h.velt (bitField w 20 5) 32 i) []

section
variable (turn : s.atCard t.num .vcvt u pc len w) (legal : xvc (u.thread t.num) w [bitField w 20 5] true = some c)
include turn legal

theorem execXcVcvt_of_pending
    (pending : (bitAt w 30 && u.lanePending (t.num / 256) (((u.thread t.num).ops w).1 % 64) (t.num + 1)) = true) :
    execXcVcvt t s = .next (s.joinLane (t.num / 256) (((u.thread t.num).ops w).1 % 64) (t.num + 1)) := by
  refine State.next_cardRow turn ?_
  simp only [legal]
  exact if_pos pending

theorem execXcVcvt_of_served
    (served : (bitAt w 30 && u.lanePending (t.num / 256) (((u.thread t.num).ops w).1 % 64) (t.num + 1)) = false) :
    execXcVcvt t s =
      .next (((u.vcvtElts t.num w c).1.xcElts t.num pc len w c (u.vcvtElts t.num w c).2).laneServed u (t.num / 256)) := by
  refine State.next_cardRow turn ?_
  simp only [legal]
  exact if_neg (Bool.eq_false_iff.1 served)

end

/-! ### VRND -/

theorem execXcVrnd_of_illegal (turn : s.atCard t.num .vrnd u pc len w) (illegal : xvc (u.thread t.num) w [] true = none) :
    execXcVrnd t s = .next (u.stopThread t.num 1) :=
  State.next_cardRow turn (by simp only [illegal])

/-- The words that VRND draws for `n` elements, with the state after the draws (R217). -/
def State.vrndWords (u : State) (t w n : Nat) : State × List Nat :=
  (u.leaveLanes (t + 1)).drawWords (t / 256) ((u.thread t).ops w).1 (kindWords (bitField w 26 3) * n)

/-- The elements of VRND from the words drawn (R217). -/
def vrndElts (kind n : Nat) (words : List Nat) : List Nat :=
  (List.range n).map fun i => kindElt kind (words.getD (kindWords kind * i) 0) (words.getD (kindWords kind * i + 1) 0)

section
variable (turn : s.atCard t.num .vrnd u pc len w) (legal : xvc (u.thread t.num) w [] true = some c)
include turn legal

theorem execXcVrnd_of_noLane (lane : 64 ≤ ((u.thread t.num).ops w).1) : execXcVrnd t s = .next (u.stopThread t.num 1) := by
  refine State.next_cardRow turn ?_
  simp only [legal]
  exact if_pos lane

theorem execXcVrnd_of_pending (lane : ((u.thread t.num).ops w).1 < 64)
    (pending : u.lanePending (t.num / 256) ((u.thread t.num).ops w).1 (t.num + 1) = true) :
    execXcVrnd t s = .next (s.joinLane (t.num / 256) ((u.thread t.num).ops w).1 (t.num + 1)) := by
  refine State.next_cardRow turn ?_
  simp only [legal]
  exact (if_neg (Nat.not_le.2 lane)).trans (if_pos pending)

theorem execXcVrnd_of_served (lane : ((u.thread t.num).ops w).1 < 64)
    (served : u.lanePending (t.num / 256) ((u.thread t.num).ops w).1 (t.num + 1) = false) :
    execXcVrnd t s = .next (((u.vrndWords t.num w c.actives.length).1.cretire t.num (c.putActive (bitField w 7 5)
      (vrndElts (bitField w 26 3) c.actives.length (u.vrndWords t.num w c.actives.length).2)) (pc + len) 0).laneServed u (t.num / 256)) := by
  refine State.next_cardRow turn ?_
  simp only [legal]
  exact (if_neg (Nat.not_le.2 lane)).trans (if_neg (Bool.eq_false_iff.1 served))

end

/-! ### VSTAT -/

theorem execXcVstat_of_illegal (turn : s.atCard t.num .vstat u pc len w) (illegal : xvc (u.thread t.num) w [bitField w 20 5] false = none) :
    execXcVstat t s = .next (u.stopThread t.num 1) :=
  State.next_cardRow turn (by simp only [illegal])

/-- The accumulator that VSTAT names once it holds the active elements, and whether one of them overflowed it (R199). -/
def VC.vstatSum (c : VC) (h : Thread) (w : Nat) : StatAcc × Bool :=
  c.actives.foldl (fun x e => ((x.1.add (c.h.velt (bitField w 20 5) 32 e)).1, x.2 || (x.1.add (c.h.velt (bitField w 20 5) 32 e)).2))
    (SMap.get {} h.stats ((h.ops w).1 % 4), false)

/-- The state after VSTAT but for the overflow flag. -/
def State.vstatDone (u : State) (t pc len w : Nat) (c : VC) : State :=
  (u.cretire t { (u.thread t).setStat (((u.thread t).ops w).1 % 4) (c.vstatSum (u.thread t) w).1 with vstart := 0 } (pc + len) 0).fadd
    .crdSfuElem (t / 8) c.actives.length

theorem execXcVstat_of_legal (turn : s.atCard t.num .vstat u pc len w) (legal : xvc (u.thread t.num) w [bitField w 20 5] false = some c) :
    execXcVstat t s = .next (if (c.vstatSum (u.thread t.num) w).2 then
      (u.vstatDone t.num pc len w c).fset .crdStatusStovf (t.num / 8) 1 else u.vstatDone t.num pc len w c) := by
  refine State.next_cardRow turn ?_
  simp only [legal]
  rfl

end

/-- Settles O23: each instruction by the check of its settings, and a draw by what precedes it at its lane. -/
theorem xcardVectors : Obligations.XcardVectors := by
  intro t s u pc len w c
  exact ⟨fun turn => ⟨execXcVsf_of_illegal turn, execXcVsf_of_legal turn⟩,
    fun turn => ⟨execXcVfba_of_illegal turn, execXcVfba_of_legal turn⟩,
    fun turn => ⟨execXcVcvt_of_illegal turn, fun legal => ⟨execXcVcvt_of_pending turn legal, execXcVcvt_of_served turn legal⟩⟩,
    fun turn => ⟨execXcVrnd_of_illegal turn, fun legal =>
      ⟨execXcVrnd_of_noLane turn legal, execXcVrnd_of_pending turn legal, execXcVrnd_of_served turn legal⟩⟩,
    fun turn => ⟨execXcVstat_of_illegal turn, execXcVstat_of_legal turn⟩⟩

end Sys2Proof.Machine

/-! ## Tile hand-offs (R190, R191) -/

namespace Sys2Proof.Machine

/-- The hand-offs of a carding core whose lines are not all written, in order (R190). -/
def State.busyHandoffs (s : State) (n : Nat) : List Handoff := s.handoffs.filter fun h => h.thread / 8 = n && !h.done

/-! ### XC.THO -/

section
variable {s u : State} {t : ThreadId} {pc len w : Nat} (turn : s.atCard t.num .tho u pc len w)
include turn

theorem execXcTho_of_unaligned (odd : ((u.thread t.num).ops w).1 % 64 ≠ 0) : execXcTho t s = .next (u.stopThread t.num 1) :=
  State.next_cardRow turn (if_pos (by simp [odd]))

section
variable {va : Nat} (address : ((u.thread t.num).ops w).1 = va) (aligned : va % 64 = 0) (above : localWindow ≤ va) (below : va < 2 ^ 48)
  {d : List Byte} (desc : u.ld (localMem (t.num / 8) + (va - localWindow)) 64 = d)
include address aligned above below desc

/-- XC.THO at an aligned address of the local window: the checks of its descriptor, in order. -/
theorem execXcTho_of_window : execXcTho t s = .next (
    if !handoffOk d then u.stopThread t.num 1
    else if u.handoffInWindow (t.num / 8) d then u.draw.faultThread t.num 4 (Config.putFaultVa u.fresh)
    else if (u.busyHandoffs (t.num / 8)).length ≥ 8 then s
    else (State.syncHandoffs { u with handoffs := u.handoffs ++ [{ thread := t.num, desc := d }] } (t.num / 8)).cretire t.num
      (u.thread t.num) (pc + len) 0) := by
  subst address desc
  exact State.next_cardRow turn (if_neg (by simpa [aligned] using ⟨above, below⟩))

theorem execXcTho_of_malformed (malformed : handoffOk d = false) : execXcTho t s = .next (u.stopThread t.num 1) := by
  rw [execXcTho_of_window turn address aligned above below desc]
  simp [malformed]

theorem execXcTho_of_deckle (ok : handoffOk d = true) (deckle : u.handoffInWindow (t.num / 8) d = true) :
    execXcTho t s = .next (u.draw.faultThread t.num 4 (Config.putFaultVa u.fresh)) := by
  rw [execXcTho_of_window turn address aligned above below desc]
  simp [ok, deckle]

theorem execXcTho_of_full (ok : handoffOk d = true) (clear : u.handoffInWindow (t.num / 8) d = false)
    (full : 8 ≤ (u.busyHandoffs (t.num / 8)).length) : execXcTho t s = .next s := by
  rw [execXcTho_of_window turn address aligned above below desc]
  simp [ok, clear, full]

theorem execXcTho_of_room (ok : handoffOk d = true) (clear : u.handoffInWindow (t.num / 8) d = false)
    (room : (u.busyHandoffs (t.num / 8)).length < 8) : execXcTho t s = .next
      ((State.syncHandoffs { u with handoffs := u.handoffs ++ [{ thread := t.num, desc := d }] } (t.num / 8)).cretire t.num
        (u.thread t.num) (pc + len) 0) := by
  rw [execXcTho_of_window turn address aligned above below desc]
  simp [ok, clear, room]

end

end

/-! ### XC.TWAIT and HANDOFF_COMPLETE -/

section
variable {s u : State} {t : ThreadId} {pc len w : Nat} (turn : s.atCard t.num .twait u pc len w)
include turn

theorem execXcTwait_of_free (free : u.handsOff t.num = false) :
    execXcTwait t s = .next (u.cretire t.num (u.thread t.num) (pc + len) 0) :=
  State.next_cardRow turn (if_neg (Bool.eq_false_iff.1 free))

theorem execXcTwait_of_busy (busy : u.handsOff t.num = true) : execXcTwait t s = .next s :=
  State.next_cardRow turn (if_pos busy)

end

/-- The state once the lines of a hand-off of core `k` are moved and the hand-off is marked (R191). -/
def State.handoffMoved (s : State) (k : Nat) (h : Handoff) : State :=
  let m := s.handoffMove k h.desc (fld h.desc 16 2 * fld h.desc 18 2)
  { m with handoffs := markDone h m.handoffs }

theorem execHandoffComplete_of_found {s : State} {k : Fin 2048} {slot : Fin 8} {h : Handoff}
    (found : (s.busyHandoffs k)[slot.val]? = some h) :
    execHandoffComplete k slot s = .next
      ((((s.handoffMoved k h).fadd .crdHoBytes k (64 * (fld h.desc 16 2 * fld h.desc 18 2))).handoffFlags h.thread
        (s.handoffMoved k h).handoffs).syncHandoffs k) := by
  rw [State.busyHandoffs] at found
  simp only [execHandoffComplete, found]
  rfl

/-- Settles O21: XC.THO by the checks of its address and descriptor in order, XC.TWAIT by the open hand-offs of its thread, and the end of a
hand-off. -/
theorem tileHandOffs : Obligations.TileHandOffs := by
  intro t s u pc len w
  refine ⟨fun turn => ⟨execXcTho_of_unaligned turn, fun aligned above below => ⟨?malformed, ?deckle, ?full, ?room⟩⟩,
    fun turn => ⟨execXcTwait_of_free turn, execXcTwait_of_busy turn⟩, fun k slot h => execHandoffComplete_of_found⟩
  case malformed => exact execXcTho_of_malformed turn rfl aligned above below rfl
  case deckle => exact execXcTho_of_deckle turn rfl aligned above below rfl
  case full => exact execXcTho_of_full turn rfl aligned above below rfl
  case room => exact execXcTho_of_room turn rfl aligned above below rfl

end Sys2Proof.Machine

/-! ## Lane commands and noise windows (R207 to R209, R215, R224) -/

namespace Sys2Proof.Machine

/-! ### A write of SKN_WHORL_CMD (R215) -/

/-- A command row takes the writes whose OP bit is its own; a 32-bit write has zeros above (R576). -/
theorem State.whorlAccess_of_op {s : State} {a : Access} {wide seek : Bool} {v k : Nat} (reached : s.trigger a .sknWhorlCmdLane = some k)
    (op : bitAt (if wide then v else v % 2 ^ 32) 6 = seek) :
    s.whorlAccess a wide v seek = s.whorlWrite k (if wide then v else v % 2 ^ 32) := by
  simp only [State.whorlAccess, reached]
  exact if_pos op

/-! ### WHORL_CMD_COMPLETE (R215) -/

section
variable {s : State} {k : Nat} {c : WhorlCmd} (oldest : whorlNext k [] s.whorlCmds = some c)
include oldest

theorem State.whorlComplete_of_seek (seek : c.seek = true) : s.whorlComplete k =
    (({ s with whorlCmds := s.whorlCmds.erase c } : State).syncWhorl k).setLane k c.lane
      { s.lane k c.lane with s := laneJump (lanePoly c.lane) (s.lane k c.lane).base c.count } c.count := by
  simp only [State.whorlComplete, oldest]
  exact if_pos seek

theorem State.whorlComplete_of_jump (jump : c.seek = false) : s.whorlComplete k =
    (({ s with whorlCmds := s.whorlCmds.erase c } : State).syncWhorl k).setLane k c.lane
      { s.lane k c.lane with s := laneJump (lanePoly c.lane) (s.lane k c.lane).s c.count }
      (s.fget .sknWhorlTick (64 * k + c.lane) + c.count) := by
  simp only [State.whorlComplete, oldest]
  exact if_neg (Bool.eq_false_iff.1 jump)

end

/-! ### NOISE_WINDOW (R207 to R209) -/

section
variable {s : State} {v : Nat} (working : s.noiseFailed = false)
include working

theorem State.noiseWindow_of_ok (ok : s.windowOk v = true) : s.noiseWindow v =
    { s with
      noiseBad := 0, noiseOut := sha384 (toBytes 128 v)
      noiseRun := (bitRuns v 1024 s.noiseRun s.noiseBit 0).1, noiseBit := v.testBit 1023 } := by
  simp [State.noiseWindow, working, ok]

theorem State.noiseWindow_of_bad (bad : s.windowOk v = false) (few : s.noiseBad < 2) :
    s.noiseWindow v = { s with noiseBad := s.noiseBad + 1, noiseRun := 0 } := by
  have notThird : ¬ 2 ≤ s.noiseBad := by omega
  simp [State.noiseWindow, working, bad, notThird]

theorem State.noiseWindow_of_third (bad : s.windowOk v = false) (third : 2 ≤ s.noiseBad) :
    s.noiseWindow v = ({ s with noiseBad := 3, noiseRun := 0 } : State).noiseFail := by
  simp [State.noiseWindow, working, bad, third]

end

/-- Settles O25: a written command by its OP bit, the oldest command that may go on by its kind, and a noise window by its health tests and the
failures in a row before it. -/
theorem lanesJumpAndSeek : Obligations.LanesJumpAndSeek := by
  refine fun s => ⟨fun a wide v k reached => ⟨?writeJump, ?writeSeek⟩, fun k c oldest => ⟨?seek, ?jump⟩,
    fun raw working => ⟨?passes, ?discarded, ?third⟩⟩
  case writeJump => exact fun op => congrArg Host.Outcome.next (State.whorlAccess_of_op reached op)
  case writeSeek => exact fun op => congrArg Host.Outcome.next (State.whorlAccess_of_op reached op)
  case seek => exact fun seek => congrArg (fun t => Host.Outcome.next (State.pumpSkein t k)) (State.whorlComplete_of_seek oldest seek)
  case jump => exact fun jump => congrArg (fun t => Host.Outcome.next (State.pumpSkein t k)) (State.whorlComplete_of_jump oldest jump)
  case passes =>
    exact fun ok => ⟨_, congrArg Host.Outcome.next (State.noiseWindow_of_ok working ok), rfl, rfl, working⟩
  case discarded => exact fun bad few => congrArg Host.Outcome.next (State.noiseWindow_of_bad working bad few)
  case third => exact fun bad third => congrArg Host.Outcome.next (State.noiseWindow_of_third working bad third)

end Sys2Proof.Machine

/-! ## Bytes of memory (R226) -/

namespace Sys2Proof.Machine

theorem cellsGet_congr {m k : List Host.Cell} {a n : Nat} (alike : ∀ q, a ≤ q → q < a + n → SMap.get 0 m q = SMap.get 0 k q) :
    cellsGet m a n = cellsGet k a n := by
  induction n generalizing a with
  | zero => rfl
  | succ n ih =>
    rw [cellsGet, cellsGet, alike a (by omega) (by omega), ih fun q above below => alike q (by omega) (by omega)]

theorem cellsGet_cellsSet_same (m : List Host.Cell) (a : Nat) (bs : List Byte) : cellsGet (cellsSet m a bs) a bs.length = bs := by
  induction bs generalizing m a with
  | nil => rfl
  | cons b bs ih =>
    rw [List.length_cons, cellsGet, cellsSet, ih, cellsSet_get_lt _ _ (Nat.lt_succ_self a), SMap.get_set, if_pos rfl]

theorem cellsGet_cellsSet_of_disjoint (m : List Host.Cell) {a b n : Nat} {bs : List Byte} (apart : b + n ≤ a ∨ a + bs.length ≤ b) :
    cellsGet (cellsSet m a bs) b n = cellsGet m b n :=
  cellsGet_congr fun q above below => apart.elim (fun h => cellsSet_get_lt m bs (by omega)) fun h => cellsSet_get_ge m bs (by omega)

/-- Memories in canonical form are equal where they read alike byte by byte. -/
theorem State.mem_eq_of_ld_eq {s t : State} (hs : s.memWf = true) (ht : t.memWf = true) (alike : ∀ b, s.ld b 1 = t.ld b 1) :
    s.mem = t.mem := by
  rw [State.memWf, Bool.and_eq_true] at hs ht
  exact SMap.ext_of_wf hs.1 ht.1 fun q => List.head_eq_of_cons_eq (alike q)

/-- Settles O57: the laws of a read after a store, byte by byte of the stored list, and the extensionality of canonical maps. -/
theorem storesReadBack : Obligations.StoresReadBack := by
  intro s a bs
  refine ⟨cellsGet_cellsSet_same _ _ _, ?others, rfl, ?canonical, ?extensional⟩
  case others => exact fun b n apart => cellsGet_cellsSet_of_disjoint _ apart
  case canonical => exact fun wf => State.memWf_st wf a bs
  case extensional => exact fun t => State.mem_eq_of_ld_eq

end Sys2Proof.Machine

/-! ## Translation waits (R230, R553 to R555) -/

namespace Sys2Proof.Machine

section
variable {s : State} {n : Nat} {w : TransWait} (waits : s.waits[n]? = some w)
include waits

/-- A DEMAND page whose object needs no flash that is not ready: its access goes on, or its requester meets the unserved fault. -/
theorem State.faultServed_of_demand {t : State} {ok : Bool} (up : s.millUp = true) (kind : w.kind = .demand)
    (readable : s.flashDown = false ∨ ∀ x ∈ (s.part w.part).maps, x.va ≤ w.va → w.va < x.va + x.size →
      s.needsFlash w.part x.obj (if x.tier = 3 then 1 else x.tier) = false)
    (served : s.serveDemand w.part w.va = (t, ok)) : s.faultServed n = if ok then t.resume w else s.unserved w := by
  have noWait : (s.flashDown && ((s.part w.part).maps.any fun x => x.va ≤ w.va && w.va < x.va + x.size &&
      s.needsFlash w.part x.obj (if x.tier = 3 then 1 else x.tier))) = false := by
    rw [Bool.and_eq_false_iff]
    refine readable.imp id fun h => List.any_eq_false.mpr fun x hx => ?_
    simp only [Bool.and_eq_true, decide_eq_true_eq, not_and, Bool.not_eq_true]
    exact fun ⟨above, below⟩ => h x hx above below
  simp only [State.faultServed, waits, up, kind, served, noWait]
  cases ok <;> rfl

theorem State.faultServed_of_refill {dpa : Nat} (up : s.millUp = true) (kind : w.kind = .refill dpa) :
    s.faultServed n = (s.refill dpa).resume w := by
  simp [State.faultServed, waits, up, kind]

theorem execAtsTranslationCompletion_of_granted {page : Nat} (host : BitVec 52) (kind : w.kind = .ats)
    (asked : s.translate w.part w.va w.write = .ats page) :
    execAtsTranslationCompletion n (some host) s = .next (State.resume { s with
      atc := (w.part + 1, page, host.toNat * 4096 % 2 ^ 64) :: s.atc.filter fun t => !(t.1 = w.part + 1 && t.2.1 = page) } w) := by
  simp [execAtsTranslationCompletion, waits, kind, asked]

theorem execAtsTranslationCompletion_of_refused {page : Nat} (kind : w.kind = .ats)
    (asked : s.translate w.part w.va w.write = .ats page) : execAtsTranslationCompletion n none s = .next (s.askPri w) := by
  simp [execAtsTranslationCompletion, waits, kind, asked]

theorem execHostReadError_of_waiting (er : HostError) (host : w.kind.onHost = true) :
    execHostReadError n er s = .next (((s.pciError (hostErrCounter er)).unserved w).nextPri w.part) := by
  simp [execHostReadError, waits, host]

end

/-- An error that meets no access to host memory ends the next read of host memory (log 6). -/
theorem execHostReadError_of_none {s : State} {n : Nat} (er : HostError) (unmet : ((s.waits[n]?).all fun x => !x.kind.onHost) = true) :
    execHostReadError n er s = .next { s with hostErr := some er } := by
  cases waits : s.waits[n]? with
  | none => simp [execHostReadError, waits]
  | some x =>
    rw [waits, Option.all_some, Bool.not_eq_true'] at unmet
    simp [execHostReadError, waits, unmet]

section
variable {s : State} {f : Func} {prg : BitVec 9} {w : TransWait} (group : s.priWait (funcNum f) prg.toNat = some w)
include group

theorem execPageRequestGroupResponse_of_waiting (success : Bool) :
    execPageRequestGroupResponse f prg success s = .next (if success then (s.resume w).nextPri w.part else s.priFails w) := by
  simp [execPageRequestGroupResponse, group]

theorem execPriTimeout_of_waiting : execPriTimeout f prg s = .next (s.priFails w) := by
  simp [execPriTimeout, group]

end

theorem execPageRequestGroupResponse_of_late {s : State} {f : Func} {prg : BitVec 9} (late : s.priWait (funcNum f) prg.toNat = none)
    (success : Bool) : execPageRequestGroupResponse f prg success s = .next (s.pciError .pciPriLate) := by
  simp [execPageRequestGroupResponse, late]

/-- Settles O28: each event by the wait that it meets, or by there being none. -/
theorem translationWaitsEnd : Obligations.TranslationWaitsEnd := by
  intro s n w
  refine ⟨fun waits => ⟨?demand, ?refill, ?ats, ?hostError⟩, ?noWait, ?response, ?late, fun f page => rfl, rfl⟩
  case demand =>
    intro t ok up kind readable served
    have := State.faultServed_of_demand waits up kind readable served
    exact ⟨fun h => congrArg Host.Outcome.next (this.trans (if_pos h)),
      fun h => congrArg Host.Outcome.next (this.trans (if_neg (Bool.eq_false_iff.1 h)))⟩
  case refill => exact fun dpa up kind => congrArg Host.Outcome.next (State.faultServed_of_refill waits up kind)
  case ats =>
    exact fun page host kind asked => ⟨execAtsTranslationCompletion_of_granted waits host kind asked,
      execAtsTranslationCompletion_of_refused waits kind asked⟩
  case hostError =>
    intro er f host counter
    have counted : f = hostErrCounter er := by
      rcases counter with ⟨rfl, rfl⟩ | ⟨rfl | rfl, rfl⟩ | ⟨rfl, rfl⟩ <;> rfl
    rw [counted]
    exact execHostReadError_of_waiting waits er host
  case noWait => exact fun er => execHostReadError_of_none er
  case response =>
    exact fun f prg group => ⟨execPageRequestGroupResponse_of_waiting group true, execPageRequestGroupResponse_of_waiting group false,
      execPriTimeout_of_waiting group⟩
  case late => exact fun f prg ok late => execPageRequestGroupResponse_of_late late ok

end Sys2Proof.Machine

/-! ## Power samples, the brake and temperatures (R241, R498 to R502, R564) -/

namespace Sys2Proof.Machine

section
variable {s : State} (started : s.started = true)
include started

/-- The state that a power sample leaves, before its 10 µs of throttling are counted (R498). -/
theorem State.powerSample_of_started (w v : Nat) : s.powerSample w v =
    let u := ((s.fset .pwrInputW 0 w).fset .pwrInputV 0 v).setPwr fun x => { x with samples := (w :: x.samples).take 100, hold := x.hold - 1 }
    let t := (if s.fget .pwrStateStage 0 ≠ 0 then u else u.fastRule.capRule.raiseRule.hotRule).refreshClocks
    if t.throttle ≠ 0 then t.fadd .pwrThrotUs 0 10 else t := by
  simp only [State.powerSample, started, Bool.not_true, Bool.false_eq_true, if_false]

theorem execDieTempChange_of_source {src : BitVec 8} (temp : BitVec 8) (source : src.toNat < 19) :
    execDieTempChange src temp s = .next (s.measureTemp src.toNat temp.toNat) := by
  simp [execDieTempChange, started, source]

section
variable (k : Fin 8) {temp : BitVec 8}

theorem execStackTempChange_of_cool (cool : temp.toNat < 85) :
    execStackTempChange k temp s = .next ((((s.fset .tierStackTemp k temp.toNat).fset .tierStackHotref k 0).fset
      .tierStackThrot k 0).measureTemp (8 + k.val) temp.toNat) := by
  simp [execStackTempChange, started, show ¬ 85 ≤ temp.toNat by omega, show ¬ 95 ≤ temp.toNat by omega]

theorem execStackTempChange_of_warm (warm : 85 ≤ temp.toNat) (below : temp.toNat < 95) :
    execStackTempChange k temp s = .next ((((s.fset .tierStackTemp k temp.toNat).fset .tierStackHotref k 1).fset
      .tierStackThrot k 0).measureTemp (8 + k.val) temp.toNat) := by
  simp [execStackTempChange, started, warm, show ¬ 95 ≤ temp.toNat by omega]

theorem execStackTempChange_of_hot (hot : 95 ≤ temp.toNat) :
    execStackTempChange k temp s = .next (((((s.fset .tierStackTemp k temp.toNat).fset .tierStackHotref k 1).fset
      .tierStackThrot k 1).fset .tierStackWashot k 1).measureTemp (8 + k.val) temp.toNat) := by
  simp [execStackTempChange, started, hot, show 85 ≤ temp.toNat by omega]

end

end

/-- Settles O46: a sample by whether a cause of throttling is in force after it, the brake by its equations, and a stack's temperature by the
two limits of R241. -/
theorem samplesBrakeAndTemperatures : Obligations.SamplesBrakeAndTemperatures := by
  intro s
  refine ⟨fun w v started => ⟨fun idle => ?free, fun cause => ?throttled⟩, rfl, rfl,
    fun src temp started => execDieTempChange_of_source started temp,
    fun k temp started => ⟨execStackTempChange_of_cool started k, execStackTempChange_of_warm started k,
      execStackTempChange_of_hot started k⟩⟩
  case free => exact congrArg Host.Outcome.next ((State.powerSample_of_started started ..).trans (if_neg (not_not.mpr idle)))
  case throttled => exact congrArg Host.Outcome.next ((State.powerSample_of_started started ..).trans (if_pos cause))

end Sys2Proof.Machine

/-! ## Partition and object commands (R246, R249, R254, R384, R386, R387) -/

namespace Sys2Proof.Machine

/-! ### A command that is applied -/

theorem State.runCommand_of_answer {s t : State} {m : Mbx} {op : Nat} {r : MbxReq} {a : Ans} {f : State → Nat → MbxReq → State × Ans}
    (turn : s.cmdTurn m op r) (applied : f s (mbxNum m) r = (t, a)) : s.runCommand m op f = t.answer (mbxNum m) r a := by
  rw [State.runCommand_of_turn turn, State.commanded, applied]

/-- A command marked L that moves bytes runs once a stream context carries them (R254). -/
theorem tcmd_of_running {f : State → Nat → MbxReq → State × Ans} {s u t : State} {m : Nat} {r : MbxReq} {pl : List Byte}
    (checked : f s m r = (u, .running pl)) (carried : s.takeTier m r = some t) : tcmd f s m r = (t, .running []) := by
  simp only [tcmd, checked, carried]

/-- A command on a formation that succeeds acts on the state without the mirror and the recovery of the formation before it (R476). -/
theorem withMirror_of_logged {f : State → Nat → MbxReq → State × Ans} {s u : State} {m : Nat} {r : MbxReq} {pl : List Byte}
    (succeeds : f s m r = (u, .logged pl)) : withMirror f s m r = f (s.partChanged (byteAt r.data 5)) m r := by
  simp only [withMirror, succeeds]

/-! ### What responses, interrupts and log entries leave alone -/

@[simp] theorem State.raise_parts (s : State) (n v : Nat) : (s.raise n v).parts = s.parts := by
  unfold State.raise
  split <;> rfl

@[simp] theorem State.fget_raise (s : State) (n v : Nat) (f : Fld) (i : Nat) : (s.raise n v).fget f i = s.fget f i :=
  State.fget_of_regs (s.raise_regs n v) f i

@[simp] theorem State.logCmd_objs (s : State) (m : Nat) (r : MbxReq) (cls : Nat) (old new : List Byte) :
    (s.logCmd m r cls old new).objs = s.objs := rfl

@[simp] theorem State.syncInflight_parts (s : State) (m : Nat) : (s.syncInflight m).parts = s.parts := by
  unfold State.syncInflight
  split <;> rfl

/-- The fields that a response moves (R373, R375, R378). -/
def rspFields : List Fld := [.mbxStatusInflight, .mbxStale, .mbxRsptail]

@[simp] theorem State.writeResponse_parts (s : State) (m : Nat) (r : MbxReq) : (s.writeResponse m r).parts = s.parts := by
  unfold State.writeResponse
  dsimp only
  split_ifs <;> simp

theorem State.fget_writeResponse_ne (s : State) (m : Nat) (r : MbxReq) {f : Fld} (i : Nat) (h : f ∉ rspFields) :
    (s.writeResponse m r).fget f i = s.fget f i := by
  simp only [rspFields, List.mem_cons, List.not_mem_nil, or_false, not_or] at h
  unfold State.writeResponse State.syncInflight
  dsimp only
  split_ifs <;> simp [h]

@[simp] theorem State.flushMbx_parts (s : State) (m fuel : Nat) : (s.flushMbx m fuel).parts = s.parts := by
  induction fuel generalizing s with
  | zero => rfl
  | succ fuel ih =>
    unfold State.flushMbx
    split
    · rfl
    · split
      · rw [ih, State.writeResponse_parts]
      · rfl

theorem State.fget_flushMbx_ne (s : State) (m fuel : Nat) {f : Fld} (i : Nat) (h : f ∉ rspFields) :
    (s.flushMbx m fuel).fget f i = s.fget f i := by
  induction fuel generalizing s with
  | zero => rfl
  | succ fuel ih =>
    unfold State.flushMbx
    split
    · rfl
    · split
      · rw [ih, State.fget_writeResponse_ne _ _ _ _ h]
      · rfl

@[simp] theorem State.raiseGen_parts (s : State) (m : Nat) : (s.raiseGen m).parts = s.parts := by
  unfold State.raiseGen
  split
  · rfl
  · simp

@[simp] theorem State.formed_raiseGen (s : State) (m p : Nat) : (s.raiseGen m).formed p = s.formed p := by
  unfold State.raiseGen
  split
  · rfl
  · simp [State.formed, State.fget_flushMbx_ne, rspFields]

/-! ### Partition records and formations (R384) -/

theorem State.foldl_parts {α : Type} {f : State → α → State} (keeps : ∀ t x, (f t x).parts = t.parts) (s : State) (l : List α) :
    (l.foldl f s).parts = s.parts :=
  List.foldlRecOn (motive := fun t : State => t.parts = s.parts) l f rfl fun t h x _ => (keeps t x).trans h

@[simp] theorem State.showPartition_parts (s : State) (p : Nat) : (s.showPartition p).parts = s.parts :=
  (State.foldl_parts (fun _ _ => by rfl) _ _).trans (State.foldl_parts (fun _ _ => by rfl) s _)

@[simp] theorem State.part_showPartition (s : State) (p q : Nat) : (s.showPartition p).part q = s.part q :=
  State.part_of_parts (s.showPartition_parts p) q

@[simp] theorem State.part_raiseGen (s : State) (m p : Nat) : (s.raiseGen m).part p = s.part p := State.part_of_parts (s.raiseGen_parts m) p

@[simp] theorem State.part_logCmd (s : State) (m : Nat) (r : MbxReq) (cls : Nat) (old new : List Byte) (p : Nat) :
    (s.logCmd m r cls old new).part p = s.part p := rfl

@[simp] theorem State.formed_logCmd (s : State) (m : Nat) (r : MbxReq) (cls : Nat) (old new : List Byte) (p : Nat) :
    (s.logCmd m r cls old new).formed p = s.formed p := rfl

@[simp] theorem State.formed_fset_same (s : State) (p b : Nat) : (s.fset .ringPstatusFormed p b).formed p = (b % 2 == 1) := by
  simp [State.formed]

theorem State.formed_fset_ne (s : State) {f : Fld} (i v p : Nat) (other : .ringPstatusFormed ≠ f) : (s.fset f i v).formed p = s.formed p := by
  rw [State.formed, State.fget_fset_fld _ _ _ _ other, State.formed]

/-- A formation with these skeins is not refused and waits for nothing: they are free, in service and not under test, and no record of the
partition waits for the page of its completion. -/
def State.canForm (s : State) (p mask : Nat) : Prop :=
  (mask &&& s.testSkeins) = 0 ∧ (mask &&& s.outSkeins) = 0 ∧
    (mask &&& s.parts.foldl (fun a e => if e.1 = p then a else a ||| e.2.mask) 0) = 0 ∧ s.askAllCpls p = none

theorem cmdPartForm_of_canForm {s : State} {r : MbxReq} (m : Nat) {p mask : Nat} (part : byteAt r.data 5 = p) (skeins : fld r.data 16 8 = mask)
    (can : s.canForm p mask) : ∃ t, cmdPartForm s m r = (t, .logged (toBytes 8 mask)) ∧ t.formed p = true ∧
      (t.part p).mask = mask ∧ (t.part p).dcm = byteAt r.data 25 ∧ (t.part p).dsm = byteAt r.data 26 := by
  obtain ⟨untested, inService, free, told⟩ := can
  simp only [cmdPartForm, part, skeins, untested, inService, free, told, ne_eq, not_true, if_false]
  refine ⟨_, rfl, ?_⟩
  rw [State.formed_logCmd, State.part_logCmd, State.formed_raiseGen, State.part_raiseGen]
  split
  · simp [State.formed_fset_ne]
  · simp

theorem cmdPartDissolve_of_told {s : State} {r : MbxReq} (m : Nat) {p : Nat} (part : byteAt r.data 5 = p) (told : s.askAllCpls p = none) :
    ∃ t, cmdPartDissolve s m r = (t, .logged []) ∧ t.formed p = false ∧ (t.part p).mask = 0 ∧ (t.part p).maps = [] := by
  unfold cmdPartDissolve
  simp only [part, told]
  generalize State.releaseSkeins _ _ = released
  refine ⟨_, rfl, ?_⟩
  simp [State.formed_fset_ne]

section
variable {s : State} {m : Mbx} {r : MbxReq} {p : Nat} (part : byteAt r.data 5 = p)
include part

theorem execPartForm_of_turn {mask : Nat} (skeins : fld r.data 16 8 = mask) (turn : s.cmdTurn m 0x201 r) (can : s.canForm p mask)
    (after : (s.partChanged p).canForm p mask) :
    ∃ t : State, execPartForm m s = .next (t.answer (mbxNum m) r (.logged (toBytes 8 mask))) ∧ t.formed p = true ∧
      (t.part p).mask = mask ∧ (t.part p).dcm = byteAt r.data 25 ∧ (t.part p).dsm = byteAt r.data 26 := by
  obtain ⟨u, succeeds, -⟩ := cmdPartForm_of_canForm (mbxNum m) part skeins can
  obtain ⟨t, formed, kept⟩ := cmdPartForm_of_canForm (mbxNum m) part skeins after
  rw [← part, ← withMirror_of_logged succeeds] at formed
  exact ⟨t, congrArg Host.Outcome.next (State.runCommand_of_answer turn formed), kept⟩

theorem execPartDissolve_of_turn (turn : s.cmdTurn m 0x202 r) (told : s.askAllCpls p = none) (after : (s.partChanged p).askAllCpls p = none) :
    ∃ t : State, execPartDissolve m s = .next (t.answer (mbxNum m) r (.logged [])) ∧ t.formed p = false ∧ (t.part p).mask = 0 ∧
      (t.part p).maps = [] := by
  obtain ⟨u, succeeds, -⟩ := cmdPartDissolve_of_told (mbxNum m) part told
  obtain ⟨t, dissolved, kept⟩ := cmdPartDissolve_of_told (mbxNum m) part after
  rw [← part, ← withMirror_of_logged succeeds] at dissolved
  exact ⟨t, congrArg Host.Outcome.next (State.runCommand_of_answer turn dissolved), kept⟩

end

/-! ### What leaves the objects alone -/

@[simp] theorem State.ensureRoot_objs (s : State) (p : Nat) : (s.ensureRoot p).1.objs = s.objs := by
  unfold State.ensureRoot
  split <;> rfl

@[simp] theorem State.pteSlot_objs (s : State) (table va level target fuel : Nat) : (s.pteSlot table va level target fuel).1.objs = s.objs := by
  induction fuel generalizing s table level with
  | zero => rfl
  | succ fuel ih =>
    unfold State.pteSlot
    dsimp only
    split_ifs
    · rfl
    · exact ih ..
    · exact ih ..

@[simp] theorem State.putLeaf_objs (s : State) (p va level e : Nat) : (s.putLeaf p va level e).objs = s.objs :=
  (State.pteSlot_objs ..).trans (s.ensureRoot_objs p)

@[simp] theorem State.mapGo_objs (s : State) (p va dpa : Nat) (w : Bool) (size fuel : Nat) : (s.mapGo p va dpa w size fuel).objs = s.objs := by
  induction fuel generalizing s va dpa size with
  | zero => rfl
  | succ fuel ih =>
    unfold State.mapGo
    split_ifs
    · rfl
    · rw [ih, State.putLeaf_objs]
    · rw [ih, State.putLeaf_objs]

@[simp] theorem State.mapRange_objs (s : State) (p va dpa size : Nat) (w : Bool) : (s.mapRange p va dpa size w).objs = s.objs :=
  State.mapGo_objs ..

@[simp] theorem State.unmapGo_objs (s : State) (p va np size fuel : Nat) : (s.unmapGo p va np size fuel).objs = s.objs := by
  induction fuel generalizing s va size with
  | zero => rfl
  | succ fuel ih =>
    unfold State.unmapGo
    split_ifs
    · rfl
    · exact (ih ..).trans (State.putLeaf_objs ..)
    · exact (ih ..).trans (State.putLeaf_objs ..)

@[simp] theorem State.unmapRange_objs (s : State) (p va size : Nat) (demand : Bool) : (s.unmapRange p va size demand).objs = s.objs := by
  unfold State.unmapRange
  split_ifs <;> simp

@[simp] theorem State.mapCopy_objs (s : State) (p i tier va : Nat) (c : Copy) : (s.mapCopy p i tier va c).objs = s.objs := by
  unfold State.mapCopy
  dsimp only
  split_ifs
  · rfl
  · rw [State.setPart_objs, State.unmapRange_objs, State.ensureRoot_objs]
  · rw [State.setPart_objs, State.mapRange_objs]

theorem State.foldl_objs {α : Type} {f : State → α → State} (keeps : ∀ t x, (f t x).objs = t.objs) (s : State) (l : List α) :
    (l.foldl f s).objs = s.objs :=
  List.foldlRecOn (motive := fun t : State => t.objs = s.objs) l f rfl fun t h x _ => (keeps t x).trans h

@[simp] theorem State.dropMaps_objs (s : State) (p : Nat) (f : PMap → Bool) (demand : Bool) : (s.dropMaps p f demand).objs = s.objs :=
  State.foldl_objs (f := fun t (x : PMap) => t.unmapRange p x.va x.size demand) (fun t _ => t.unmapRange_objs ..) s _

@[simp] theorem State.soil_objs (s : State) (a : Nat) : (s.soil a).objs = s.objs := by
  unfold State.soil
  split_ifs <;> rfl

@[simp] theorem State.soilRange_objs (s : State) (a n : Nat) : (s.soilRange a n).objs = s.objs := by
  unfold State.soilRange
  generalize List.range _ = granules
  induction granules generalizing s with
  | nil => rfl
  | cons i granules ih => rw [List.foldl_cons, ih, State.soil_objs]

@[simp] theorem State.zeroCopy_objs (s : State) (tier base bytes : Nat) : (s.zeroCopy tier base bytes).objs = s.objs := by
  unfold State.zeroCopy
  split_ifs
  · rfl
  · exact State.soilRange_objs ..

@[simp] theorem State.touchFlash_objs (s : State) : s.touchFlash.objs = s.objs := by
  unfold State.touchFlash
  split_ifs <;> rfl

@[simp] theorem State.freePlace_objs (s : State) (i : Nat) : (s.freePlace i).objs = s.objs := by
  unfold State.freePlace
  split_ifs <;> rfl

@[simp] theorem State.uncharge_objs (s : State) (p tier bytes : Nat) : (s.uncharge p tier bytes).objs = s.objs := by
  rw [State.uncharge, State.fset_objs]

@[simp] theorem State.trimBlocks_objs (s : State) (base n : Nat) : (s.trimBlocks base n).objs = s.objs := rfl

@[simp] theorem State.freeCopy_objs (s : State) (bytes : Nat) (c : Copy) : (s.freeCopy bytes c).objs = s.objs := by
  unfold State.freeCopy
  split <;> simp

/-! ### Objects that are deleted (R246, R386) -/

/-- The object has been deleted: no handle names it. -/
def State.objRetired (s : State) (i : Nat) : Prop := (s.obj i).retired = true

section
variable {s : State} {i : Nat} (retired : s.objRetired i)
include retired

theorem State.objRetired_of_objs {t : State} (objs : t.objs = s.objs) : t.objRetired i := by
  unfold State.objRetired State.obj at *
  rwa [objs]

theorem State.objRetired_setObj (j : Nat) {g : Obj → Obj} (keeps : ∀ o, (g o).retired = o.retired) : (s.setObj j g).objRetired i := by
  by_cases h : i = j
  · rw [h] at retired ⊢
    rw [State.objRetired, State.obj_setObj_same, keeps]
    exact retired
  · rw [State.objRetired, State.obj_setObj_ne _ _ h]
    exact retired

theorem State.objRetired_setPart (p : Nat) (g : Partition → Partition) : (s.setPart p g).objRetired i := retired

theorem State.objRetired_sweep (j : Nat) : (s.sweep j).objRetired i :=
  State.objRetired_setObj (State.objRetired_of_objs retired (State.foldl_objs (fun t c => t.freeCopy_objs (s.obj j).bytes c) s _)) j
    fun _ => by rfl

theorem State.objRetired_foldl {α : Type} {f : State → α → State} (keeps : ∀ t x, t.objRetired i → (f t x).objRetired i) (l : List α) :
    (l.foldl f s).objRetired i :=
  List.foldlRecOn (motive := fun t : State => t.objRetired i) l f retired fun t h x _ => keeps t x h

theorem State.objRetired_settleMaps (p : Nat) : (s.settleMaps p).objRetired i := by
  refine State.objRetired_foldl (State.objRetired_setPart (State.objRetired_foldl (State.objRetired_foldl retired ?due _) ?held _) _ _)
    ?asked _
  case due =>
    intro t x h
    split
    · exact State.objRetired_of_objs h (State.mapCopy_objs ..)
    · exact State.objRetired_of_objs h (State.dropMaps_objs ..)
  case held => exact fun t j h => State.objRetired_sweep (State.objRetired_setObj h j fun _ => by rfl) j
  case asked =>
    intro t x h
    split
    · exact State.objRetired_of_objs h (State.mapCopy_objs ..)
    · exact h

theorem State.objRetired_leaveCopy (now : Bool) (p j id : Nat) : (s.leaveCopy now p j id).1.objRetired i := by
  unfold State.leaveCopy
  dsimp only
  split
  · exact retired
  · refine State.objRetired_sweep ?_ j
    have left {g : Obj → Obj} (keeps : ∀ o, (g o).retired = o.retired) (tier bytes : Nat) :
        ((s.uncharge p tier bytes).setObj j g).objRetired i :=
      State.objRetired_setObj (State.objRetired_of_objs retired (s.uncharge_objs p tier bytes)) j keeps
    split
    · exact State.objRetired_settleMaps (left (fun _ => by rfl) _ _) p
    · exact left (fun _ => by rfl) _ _

end

theorem cmdObjDelete_of_creator {s : State} {m : Nat} {r : MbxReq} {i : Nat} (named : s.lookup m (fld r.data 16 4) = .inl i)
    (creator : (s.obj i).creator = m) : ∃ t, cmdObjDelete s m r = (t, .logged []) ∧ t.objRetired i := by
  simp only [cmdObjDelete, named, creator, ne_eq, not_true, decide_false, Bool.and_false, Bool.false_eq_true, if_false]
  refine ⟨_, rfl, State.objRetired_of_objs (State.objRetired_sweep ?_ i) (State.logCmd_objs ..)⟩
  refine State.objRetired_foldl (State.objRetired_foldl ?deleted (fun t c h => State.objRetired_foldl h ?left _) _) ?unmapped _
  case deleted => exact congrArg Obj.retired (State.obj_setObj_same s i _)
  case left =>
    intro u f h
    split
    · exact h
    · exact State.objRetired_leaveCopy h ..
  case unmapped => exact fun t e h => State.objRetired_setPart (State.objRetired_of_objs h (State.dropMaps_objs ..)) _ _

/-! ### The commands on objects whose checks pass (R246, R386) -/

section
variable {s : State} {m : Nat} {r : MbxReq}

section
variable {i : Nat} (named : s.lookup m (fld r.data 16 4) = .inl i)
include named

theorem cmdObjPromote_of_served {u : State} {made : Bool} (readable : (s.flashDown && s.needsFlash (byteAt r.data 5) i (byteAt r.data 20)) = false)
    (served : s.promote (byteAt r.data 5) i (byteAt r.data 20) = (u, .inl made)) : ∃ v pl, cmdObjPromote s m r = (v, .running pl) := by
  simp only [cmdObjPromote, named, readable, served, Bool.false_eq_true, if_false]
  exact ⟨_, _, rfl⟩

section
variable {c : Copy} (held : (s.obj i).refCopy (byteAt r.data 20) (byteAt r.data 5) = some c)
include held

theorem cmdObjEvict_of_held : cmdObjEvict s m r =
    ((s.dropRef (byteAt r.data 5) i c.id).1, .now 0 [if (s.dropRef (byteAt r.data 5) i c.id).2 then 1 else 0]) := by
  simp only [cmdObjEvict, named, held]

theorem cmdObjPin_of_held : cmdObjPin s m r = (s.setObj i fun o => { o with copies := setCopy o.copies c.id fun x =>
    { x with refs := x.refs.map fun f => if f.part = byteAt r.data 5 then { f with pinned := byteAt r.data 21 = 1 } else f } }, .now 0 []) := by
  simp only [cmdObjPin, named, held]

theorem cmdObjStage_of_checked {u : State} {data : List Byte} (inside : fld r.data 24 8 + fld r.data 32 8 ≤ ceilDiv (s.obj i).bytes 4096 * 4096)
    (writable : byteAt r.data 20 = 3 → s.fget .ftlStatusState 0 ≠ 3 ∧ s.returnErase = false ∧ s.fget .pwrStateStage 0 = 0)
    (read : s.cmdRead m (byteAt r.data 5) (fld r.data 40 6) (fld r.data 32 8) = (u, .inl data)) :
    cmdObjStage s m r = (u, .running []) := by
  by_cases flash : byteAt r.data 20 = 3
  · obtain ⟨ready, noErase, noShutdown⟩ := writable flash
    rw [flash] at held
    simp [cmdObjStage, named, Nat.not_lt.mpr inside, flash, ready, noErase, noShutdown, held, read]
  · simp [cmdObjStage, named, Nat.not_lt.mpr inside, flash, held, read]

end

/-- The rights that OBJ_SHARE leaves, and its entry (R386). -/
theorem cmdObjShare_of_creator (creator : (s.obj i).creator = m) (op : byteAt r.data 21 ≤ 1) :
    let g := byteAt r.data 20
    let was : Nat := if (s.obj i).grants.contains g then 1 else 0
    let grants (l : List Nat) : List Nat := if byteAt r.data 21 = 0 then (if l.contains g then l else g :: l) else l.filter (· ≠ g)
    let side (b : Nat) : List Byte := toBytes 4 (s.handle i) ++ toBytes 1 g ++ toBytes 1 b
    cmdObjShare s m r = ((s.setObj i fun o => { o with grants := grants o.grants }).logCmd m r 0xE (side was) (side (1 - byteAt r.data 21)),
      .logged []) := by
  have grant : 1 - byteAt r.data 21 = 1 ↔ byteAt r.data 21 = 0 := by omega
  simp only [cmdObjShare, named, creator, grant, ne_eq, not_true, decide_false, Bool.and_false, Bool.false_eq_true, if_false]

end

/-- OBJ_CREATE with a free index, within the quota and with room for the copy (R386). -/
theorem cmdObjCreate_of_room {u : State} {p tier bytes kind base pl : Nat} (part : byteAt r.data 5 = p) (htier : byteAt r.data 17 = tier)
    (size : fld r.data 24 8 = bytes) (hkind : byteAt r.data 16 = kind) (index : s.freeIndex < 2 ^ 24)
    (fewMaps : kind = 3 → (s.objs.filter fun e => e.2.kind = 3 && !e.2.retired && e.2.creator = p).length < 64)
    (quota : s.withinQuota p tier bytes = true) (flash : tier = 3 → s.fget .ftlStatusState 0 ≠ 3 ∧ s.returnErase = false)
    (room : s.allocCopy p tier bytes = (u, .inl (base, pl))) :
    let i := s.freeIndex
    let gen := if (s.obj i).used then ((s.obj i).gen + 1) % 256 else 0
    let c : Copy := { id := 0, tier := tier, version := 0, base := base, placement := pl }
    let o : Obj := { used := true, gen := gen, kind := kind, format := byteAt r.data 18, bytes := bytes, creator := p, copies := [c],
                     nextCopy := 1, born := s.stamp, va := if kind = 3 then fld r.data 32 6 else 0 }
    let t := ((((u.zeroCopy tier base bytes).setObj i fun _ => o).tick.addRef p i 0 tier).mapAsked p i tier (fld r.data 32 6) c)
    let h := toBytes 4 (t.handle i)
    cmdObjCreate s m r = (t.logCmd m r 0xE [] (h ++ [BitVec.ofNat 8 kind, BitVec.ofNat 8 tier, BitVec.ofNat 8 (byteAt r.data 18), 0] ++
      toBytes 8 bytes), .logged h) := by
  have indexed : (decide (s.freeIndex ≥ 2 ^ 24) || (decide (kind = 3) &&
      decide ((s.objs.filter fun e => e.2.kind = 3 && !e.2.retired && e.2.creator = p).length ≥ 64))) = false := by
    simp only [Bool.or_eq_false_iff, Bool.and_eq_false_imp, decide_eq_true_eq, decide_eq_false_iff_not, not_le]
    exact ⟨index, fewMaps⟩
  have ready : (decide (tier = 3) && decide (s.fget .ftlStatusState 0 = 3)) = false := by
    simp only [Bool.and_eq_false_imp, decide_eq_true_eq, decide_eq_false_iff_not]
    exact fun h => (flash h).1
  have noErase : (decide (tier = 3) && s.returnErase) = false := by
    simp only [Bool.and_eq_false_imp, decide_eq_true_eq]
    exact fun h => (flash h).2
  simp only [cmdObjCreate, part, htier, size, hkind, indexed, quota, ready, noErase, room, Bool.not_true, Bool.false_eq_true, if_false]

/-- CH_MAPOUT of a live channel (R242, R244). -/
theorem cmdChMapout_of_live {ch : Nat} (channel : byteAt r.data 16 = ch) (live : s.fget .tierChLive ch ≠ 0) :
    let x := s.mapOut ch 4
    let side (t : State) (c : Nat) : List Byte := toBytes 2 (t.fget .tierCapLive 0) ++ toBytes 1 ch ++ toBytes 1 c
    cmdChMapout s m r = (((x.1.logFault { cls := 3, action := 6, unit := unitWord 4 ch, detail := ch }).logCmd m r 0x10 (side s 0)
      (side x.1 4 ++ toBytes 4 x.2)).devEvent 0x985 [BitVec.ofNat 8 ch, 4], .logged (toBytes 4 x.2)) := by
  simp only [cmdChMapout, channel, live, if_false]

end

/-- Settles O35: each command whose turn has come is answered with what its function gives once its checks pass; the facts on formations and
deleted objects are kept by everything that the commands do after. -/
theorem partitionAndObjectCommandsAct : Obligations.PartitionAndObjectCommandsAct := by
  intro m r s
  have applied {op : Nat} {t : State} {a : Ans} {f : State → Nat → MbxReq → State × Ans} (turn : s.cmdTurn m op r)
      (h : f s (mbxNum m) r = (t, a)) : Host.Outcome.next (s.runCommand m op f) = (.next (t.answer (mbxNum m) r a) : Res) :=
    congrArg Host.Outcome.next (State.runCommand_of_answer turn h)
  refine ⟨fun turn can after => ?form, fun turn told after => ?dissolve, fun u base pl turn index fewMaps quota flash room => ?create,
    fun i named => ⟨?share, ?promote, ?evict, ?pin, ?stage, ?delete⟩, ?load, fun turn live => ?mapout⟩
  case form => exact execPartForm_of_turn rfl rfl turn can after
  case dissolve => exact execPartDissolve_of_turn rfl turn told after
  case create => exact applied turn (cmdObjCreate_of_room rfl rfl rfl rfl index fewMaps quota flash room)
  case share => exact fun turn _ creator op => applied turn (cmdObjShare_of_creator named creator op)
  case promote =>
    intro u made t turn readable served carried
    obtain ⟨v, pl, checked⟩ := cmdObjPromote_of_served named readable served
    exact applied turn (tcmd_of_running checked carried)
  case evict => exact fun c turn held => applied turn (cmdObjEvict_of_held named held)
  case pin => exact fun c turn held => applied turn (cmdObjPin_of_held named held)
  case stage =>
    exact fun c u data t turn inside writable held read carried =>
      applied turn (tcmd_of_running (cmdObjStage_of_checked named held inside writable read) carried)
  case delete =>
    intro turn _ creator
    obtain ⟨t, deleted, retired⟩ := cmdObjDelete_of_creator named creator
    exact ⟨t, applied turn deleted, retired⟩
  case load => exact fun u pl t turn checked carried => applied turn (tcmd_of_running checked carried)
  case mapout =>
    exact congrArg (fun t => Host.Outcome.next (State.endUnplaced t)) (State.runCommand_of_answer turn (cmdChMapout_of_live rfl live))

end Sys2Proof.Machine

/-! ## Stream descriptors (R257 to R263, R266, R267, R271, R274) -/

namespace Sys2Proof.Machine

/-! ### The descriptor that a context has reached -/

section
variable {s u : State} {x : Nat} (runs : s.ctxRuns x = true) (fetched : s.fetchDesc x = (u, true))
include runs fetched

/-- A MOVE row meets a MOVE that is malformed, or a descriptor that no operation names (R258). -/
theorem State.doMove_of_malformed
    (bad : byteAt (u.ctx x).desc 0 ≠ 2 ∧
      (byteAt (u.ctx x).desc 0 = 1 → (u.ctx x).go = false ∧ u.mvBad (u.ctx x).part (u.ctx x).desc = true)) :
    s.doMove x = u.descMalformed x := by
  obtain ⟨notBarset, move⟩ := bad
  by_cases kind : byteAt (u.ctx x).desc 0 = 1
  · obtain ⟨new, malformed⟩ := move kind
    simp [State.doMove, runs, fetched, kind, new, malformed]
  · simp [State.doMove, runs, fetched, kind, notBarset]

/-- A MOVE whose lines begin: its engine grants lines until this context has none left to issue (R263, R271). -/
theorem State.doMove_of_begins {v : State} (kind : byteAt (u.ctx x).desc 0 = 1) (new : (u.ctx x).go = false)
    (formed : u.mvBad (u.ctx x).part (u.ctx x).desc = false) (ready : u.ssbReady x (u.ctx x).desc = (v, some true))
    (undecided : deckSsb (u.ctx x).desc = 0 ∨ v.ssbRead (u.ctx x).part (deckSsb (u.ctx x).desc) 1 1 ≠ 2) :
    let w := v.setCtx x fun q => { q with go := true }
    let z := w.engineRun (x / 136) x (w.linesLeft (x / 136))
    s.doMove x = if z.drains = 0 then z else z.syncDrain := by
  rcases undecided with noBlock | other
  · simp [State.doMove, runs, fetched, kind, new, formed, ready, noBlock]
  · simp [State.doMove, runs, fetched, kind, new, formed, ready, other]

/-- A BARSET row meets a BARSET that is malformed, or a descriptor that no operation names (R258, R260). -/
theorem State.doBarset_of_malformed
    (bad : byteAt (u.ctx x).desc 0 ≠ 1 ∧ (byteAt (u.ctx x).desc 0 = 2 → barsetBad (u.ctx x).desc = true)) :
    s.doBarset x = u.descMalformed x := by
  obtain ⟨notMove, barset⟩ := bad
  by_cases kind : byteAt (u.ctx x).desc 0 = 2
  · simp [State.doBarset, runs, fetched, kind, barset kind]
  · simp [State.doBarset, runs, fetched, kind, notMove]

section
variable (kind : byteAt (u.ctx x).desc 0 = 2) (formed : barsetBad (u.ctx x).desc = false)
include kind formed

theorem State.doBarset_of_idle (idle : u.activeJob (u.ctx x).part = none) : s.doBarset x = u.nextDesc x := by
  simp [State.doBarset, runs, fetched, kind, formed, idle]

/-- A BARSET of a running job sets its barrier, which is full at once where its arrivals already reach EXP (R260, R274). -/
theorem State.doBarset_of_active {k : Nat} (active : u.activeJob (u.ctx x).part = some k) :
    let c := u.ctx x
    let b := byteAt c.desc 4
    let v := u.setBarrier k b fun q => { q with exp := fld c.desc 2 2, step := bitAt (byteAt c.desc 1) 0 }
    let q : Barrier := SMap.get {} (v.job k).barriers b
    s.doBarset x = if v.barExp c.part q ≤ q.count then (v.barrierFull c.part k b).nextDesc x else v.nextDesc x := by
  simp [State.doBarset, runs, fetched, kind, formed, active, apply_ite (fun t => State.nextDesc t x)]

end

end

/-- An issued MOVE takes its actions, its slice's end among them, and the chain goes on (R261, R266, R267). -/
theorem State.doDescriptorComplete_of_issued {s v : State} {x : Nat} (busy : (s.ctx x).busy = true) (unended : (s.ctx x).ended = none)
    (issued : (s.ctx x).issued = true) (chain : x % 136 < 128) (ready : s.ssbReady x (s.ctx x).desc = (v, some true)) :
    let c := s.ctx x
    s.doDescriptorComplete x =
      ((v.descActions c.part c.desc 0 (mvLines c.desc)).sliceDone c.part (deckSsb c.desc)).nextDesc x := by
  simp [State.doDescriptorComplete, busy, unended, issued, ready, Nat.not_le.2 chain]

/-- A granted line that moves is counted, and the last one makes the descriptor issued (R263, R271). -/
theorem State.grantLine_of_moved {s u : State} {x : Nat} (moved : ((s.noteGrant x).noteMerge x).moveLine x = (u, .none)) :
    s.grantLine x = (u.setCtx x fun q =>
      { q with next := (s.ctx x).next + 1, issued := (s.ctx x).next + 1 = mvLines (s.ctx x).desc }).countBytes x 1 := by
  simp [State.grantLine, moved]

/-- Settles O26: each row by the descriptor that its context has fetched, and a grant by the line that it moves. -/
theorem descriptorsRun : Obligations.DescriptorsRun := by
  have moves {e : Fin 4} {n : Fin 136} {s t : State} (h : s.doMove (136 * e.val + n.val) = t) :
      exec (.move e n) s = .next t.takeGuilts := congrArg (fun z => Host.Outcome.next (State.takeGuilts z)) h
  have sets {e : Fin 4} {n : Fin 136} {s t : State} (h : s.doBarset (136 * e.val + n.val) = t) :
      exec (.barset e n) s = .next t.takeGuilts := congrArg (fun z => Host.Outcome.next (State.takeGuilts z)) h
  refine ⟨fun e n s u => ⟨fun runs fetched => ⟨?begins, ?badMove, ?unnamed, ?badBarset, ?idle, ?active⟩, ?complete⟩, ?granted⟩
  case begins =>
    exact fun v kind new formed ready undecided => moves (State.doMove_of_begins runs fetched kind new formed ready undecided)
  case badMove =>
    exact fun kind new bad => moves (State.doMove_of_malformed runs fetched ⟨by simp [kind], fun _ => ⟨new, bad⟩⟩)
  case unnamed =>
    exact fun notMove notBarset => ⟨moves (State.doMove_of_malformed runs fetched ⟨notBarset, fun h => absurd h notMove⟩),
      sets (State.doBarset_of_malformed runs fetched ⟨notMove, fun h => absurd h notBarset⟩)⟩
  case badBarset => exact fun kind bad => sets (State.doBarset_of_malformed runs fetched ⟨by simp [kind], fun _ => bad⟩)
  case idle => exact fun kind formed idle => sets (State.doBarset_of_idle runs fetched kind formed idle)
  case active =>
    intro k kind formed active
    have acts := State.doBarset_of_active runs fetched kind formed active
    exact ⟨fun short => sets (acts.trans (if_neg (Nat.not_le.2 short))), fun full => sets (acts.trans (if_pos full))⟩
  case complete =>
    intro v busy unended issued chain ready
    exact congrArg Host.Outcome.next (State.doDescriptorComplete_of_issued busy unended issued (by omega) ready)
  case granted => exact fun x s u => State.grantLine_of_moved

end Sys2Proof.Machine

/-! ## Barriers, slices and drains of streams (R264, R265, R272 to R278, R281) -/

namespace Sys2Proof.Machine

/-- An arrival counts at its barrier, which is full once COUNT reaches EXP (R273, R274). -/
theorem State.arrive_of_active {s : State} {p k : Nat} (b : Nat) (active : s.activeJob p = some k) :
    let v := s.setBarrier k b fun x => { x with count := x.count + 1 }
    let x : Barrier := SMap.get {} (v.job k).barriers b
    s.arrive p b = if v.barExp p x ≤ x.count then v.barrierFull p k b else v := by
  simp only [State.arrive, active, ge_iff_le]

theorem execStrmPArrive_of_carding {s : State} {part : Fin 64} {dpa p : Nat} {bar : BitVec 8}
    (reached : s.trigger (.carding part dpa) .strmPArrive = some p) : execStrmPArrive (.carding part dpa) bar s = .next (s.arrive p bar.toNat) := by
  simp only [execStrmPArrive, reached]

theorem State.streamUnserved_of_waiting {s : State} {x : Nat} {w : TransWait}
    (waits : (s.waits.find? fun w => w.req == .stream x) = some w) :
    s.streamUnserved x = s.stopDesc x (s.unservedStatus (s.ctx x) w) := by
  simp only [State.streamUnserved, waits]

/-! ### Deadlines (R272) -/

theorem State.sliceDeadline_of_first {s : State} {p ssb : Nat} (formed : s.formed p = true) (named : ssb ≠ 0)
    (late : s.sliceLate p ssb = true) (first : s.late.contains (p, ssb) = false) :
    s.sliceDeadline p ssb = { s.fadd .strmPLate p 1 with late := (p, ssb) :: s.late } := by
  simp only [State.sliceDeadline, formed, named, late, first, ne_eq, not_false_eq_true, decide_true, Bool.not_false, Bool.and_self,
    if_true]

theorem State.sliceDeadline_of_counted {s : State} {p ssb : Nat} (counted : s.late.contains (p, ssb) = true) :
    s.sliceDeadline p ssb = s := by
  simp only [State.sliceDeadline, counted, Bool.not_true, Bool.and_false, Bool.false_eq_true, if_false]

/-! ### The end of the grace (R276 to R278) -/

/-- The slice's decision is held until the slice ends, and its stall is counted (R276, R278). -/
def State.holdSlice (s : State) (p : Nat) (q : SliceReq) : State :=
  ({ s with slices := s.slices.map fun x => if x = q then { x with held := true } else x } : State).fadd .strmPStalled p 1

section
variable {s : State} {p ssb : Nat} {q : SliceReq}
  (asked : (s.slices.find? fun q => q.part = p && q.ssb = ssb && !q.held) = some q) (running : s.ssbRead p ssb 0 1 = 0xFF)
include asked running

/-- Policy and slice allow SHADOW: the slice's remaining lines are cancelled (R276, R277). -/
theorem State.graceExpiry_of_shadow (policy : s.fget .strmPModeSa p = 1) (shadow : s.ssbRead p ssb 2 1 = 1) :
    s.graceExpiry p ssb =
      (({ s with slices := s.slices.erase q } : State).decide' p ssb q.slice 2).cancelSlice p ssb := by
  simp [State.graceExpiry, asked, running, policy, shadow]

/-- SHADOW is not allowed: the slice stalls, and counts as UNAVAIL where only the slice forbids it (R276, R278). -/
theorem State.graceExpiry_of_stall (denied : s.fget .strmPModeSa p = 1 → s.ssbRead p ssb 2 1 ≠ 1) :
    s.graceExpiry p ssb =
      if s.fget .strmPModeSa p = 1 then (s.holdSlice p q).fadd .strmPUnavail p 1 else s.holdSlice p q := by
  by_cases policy : s.fget .strmPModeSa p = 1
  · simp [State.graceExpiry, State.holdSlice, asked, running, policy, denied policy]
  · simp [State.graceExpiry, State.holdSlice, asked, running, policy]

end

/-- Settles O27: an arrival by EXP, a deadline by what is counted already, the end of the grace by what policy and slice allow. -/
theorem streamBarriersSlicesAndStops : Obligations.StreamBarriersSlicesAndStops := by
  intro s
  refine ⟨?arrival, ?unserved, fun p ssb formed named late => ⟨?firstLate, ?counted⟩,
    fun p ssb q asked running => ⟨?shadow, ?unavailable, ?stall⟩, rfl⟩
  case arrival =>
    rintro _ bar p k ⟨_, _, rfl⟩ reached active
    have arrives := (execStrmPArrive_of_carding reached).trans (congrArg Host.Outcome.next (State.arrive_of_active bar.toNat active))
    exact ⟨fun short => arrives.trans (congrArg Host.Outcome.next (if_neg (Nat.not_le.2 short))),
      fun full => arrives.trans (congrArg Host.Outcome.next (if_pos full))⟩
  case unserved => exact fun e n w waits => congrArg Host.Outcome.next (State.streamUnserved_of_waiting waits)
  case firstLate => exact fun first => congrArg Host.Outcome.next (State.sliceDeadline_of_first formed named late first)
  case counted => exact fun counted => congrArg Host.Outcome.next (State.sliceDeadline_of_counted counted)
  case shadow => exact fun policy shadow => congrArg Host.Outcome.next (State.graceExpiry_of_shadow asked running policy shadow)
  case unavailable =>
    exact fun policy denied => congrArg Host.Outcome.next
      ((State.graceExpiry_of_stall asked running fun _ => denied).trans (if_pos policy))
  case stall =>
    exact fun policy => congrArg Host.Outcome.next
      ((State.graceExpiry_of_stall asked running fun allowed => absurd allowed policy).trans (if_neg policy))

end Sys2Proof.Machine

/-! ## The flash store's own work (R287, R294 to R299, R301 to R307) -/

namespace Sys2Proof.Machine

/-! ### Journal, commit and the loaded map (R301 to R305) -/

theorem execFtlCommitDone_of_committing {s : State} (running : s.committing = true) :
    let since := if s.journal.isNone || s.commitOf = some s.flashNow then none else s.commitOf
    execFtlCommitDone s = .next ((({ s with journal := since, committing := false, commitOf := none, commitDone := true } : State).fadd
      .ftlCommits 0 1).passStage4) := by
  simp only [execFtlCommitDone, running, if_true]

/-- The map is loaded into the FTL reserve once LPDDR is ready; lost journal entries take T3 back to the last write of the journal
(R304, R305). -/
theorem execFtlMapLoadDone_of_loading {s : State} (jlost : Bool) (unloaded : s.fget .ftlStatusState 0 = 0)
    (up : bitAt (s.fget .glbReadyStatus 0) 14 = true) :
    execFtlMapLoadDone jlost s = .next (State.flashReady (State.ftlOpen
      (if jlost && s.fget .ftlStatusDirtystart 0 = 1 && s.journal.isSome then s.loseJournal.fset .ftlStatusJlost 0 1
        else { s with journal := none }))) := by
  simp [execFtlMapLoadDone, unloaded, up]

/-! ### Media upkeep (R294, R296, R297) -/

section
variable {s : State} (runs : s.ftlRuns = true)
include runs

theorem execFtlJournalWrite_of_runs : execFtlJournalWrite s = .next { s with journal := none } := by
  simp only [execFtlJournalWrite, runs, if_true]

theorem execReadDisturbRefresh_of_runs (block : Nat) :
    execReadDisturbRefresh block s = .next (s.ftlRelocate.fadd .ftlRdReloc 0 1) := by
  simp only [execReadDisturbRefresh, runs, if_true]

/-- What a scan finds in a block decides by the bounds 60 and 85: it stays, moves, or moves at once (R296, R297). -/
theorem execRetentionScan_of_runs (block corrected : Nat) :
    execRetentionScan block corrected s = .next
      (if corrected ≤ 60 then s
        else if 85 < corrected then s.ftlRelocate.fadd .ftlUrgent 0 1 else s.ftlRelocate.fadd .ftlRetReloc 0 1) := by
  simp [execRetentionScan, runs]

theorem execStaticWearLevelling_of_runs (ch : Fin 16) : execStaticWearLevelling ch s = .next s.ftlRelocate := by
  simp only [execStaticWearLevelling, runs, if_true]

theorem execProgramEraseFailure_of_runs (block : Nat) :
    execProgramEraseFailure block s = .next
      (((s.draw.fadd .ftlProgBytes 0 (Config.flashMoved s.fresh)).fadd .ftlGrownBad 0 1).fadd .ftlChBad
        (Config.blockChannel block) 1).ftlHealth.ftlWorn := by
  simp only [execProgramEraseFailure, runs, if_true]

end

/-! ### A channel lost and its stripes laid anew (R287, R298, R307) -/

theorem State.fget_layBlocks_ne (s : State) (lbas : List Nat) {f : Fld} (i : Nat) (h : f ≠ .ftlProgBytes) :
    (s.layBlocks lbas).fget f i = s.fget f i := by
  simp [State.layBlocks, State.setFtl, h]

/-- Stripes laid on other channels move no register but the count of programmed bytes (R287, R298). -/
theorem State.fget_rebuildStripes_ne (s : State) {f : Fld} (i : Nat) (h : f ≠ .ftlProgBytes) :
    s.rebuildStripes.fget f i = s.fget f i := by
  simp [State.rebuildStripes, State.fget_layBlocks_ne, h]

@[simp] theorem State.fset_flashTwice (s : State) (f : Fld) (i v : Nat) : (s.fset f i v).flashTwice = s.flashTwice := rfl

@[simp] theorem State.rebuildStripes_flashTwice (s : State) : s.rebuildStripes.flashTwice = s.flashTwice := by
  simp [State.rebuildStripes, State.layBlocks, State.setFtl, State.fadd]

/-- A rebuild that ends after one loss: STATE leaves DEGRADED, for READONLY where the spares have run low (R298, R307). -/
theorem execFlashRebuildDone_of_degraded {s : State} (runs : s.ftlRuns = true) (rebuilds : s.fget .ftlStatusRebuild 0 ≠ 0)
    (once : s.flashTwice = false) (degraded : s.fget .ftlStatusState 0 = 2) :
    execFlashRebuildDone s = .next
      ((s.rebuildStripes.fset .ftlStatusRebuild 0 0).fset .ftlStatusState 0 (if s.worn then 3 else 1)) := by
  simp [execFlashRebuildDone, State.worn, State.fget_rebuildStripes_ne, runs, rebuilds, once, degraded]

/-- A channel leaves the stripes laid from now on, and shows as lost (R298). -/
def State.dropChannel (s : State) (c : Nat) : State :=
  (({ s with flashLost := s.flashLost ||| 2 ^ c, flashStale := 2 ^ c, ftl := { s.ftl with fresh := s.ftl.next } } : State).fset
    .ftlChstatus 0 (s.fget .ftlChstatus 0 ||| 2 ^ c)).fset .ftlChLost c 1

@[simp] theorem State.dropChannel_state (s : State) (c : Nat) :
    (s.dropChannel c).fget .ftlStatusState 0 = s.fget .ftlStatusState 0 := by
  unfold State.dropChannel
  rw [State.fget_fset_fld _ _ _ _ (by decide), State.fget_fset_fld _ _ _ _ (by decide)]
  exact State.fget_of_regs rfl _ _

/-- A first loss goes by STATE: nothing more before the map is loaded or after a failure; the store fails without its metadata; it
rebuilds otherwise (R298). -/
theorem State.flashChannelLost_of_first {s : State} {c : Nat} (works : s.flashLost.testBit c = false) (rebuilt : s.flashStale = 0) :
    let u := s.dropChannel c
    let st := u.fget .ftlStatusState 0
    let v := if st = 0 || st = 4 then u
      else if metaLost u.flashLost then (u.fset .ftlStatusState 0 4).setReady 15 false
      else (u.fset .ftlStatusState 0 (if st = 3 then 3 else 2)).fset .ftlStatusRebuild 0 1
    s.flashChannelLost c = (v.logFault { cls := 0xC, unit := unitWord 6 c }).hardFault none (unitWord 6 c) 0xC := by
  simp only [State.flashChannelLost, works, rebuilt, ne_eq, not_true, decide_false, Bool.or_false, Nat.zero_or, Bool.false_eq_true,
    if_false]
  rfl

/-- A first loss of a store that is in use: it fails without its metadata, and rebuilds otherwise (R298, R307). -/
theorem State.flashChannelLost_of_open {s : State} {c : Nat} (works : s.flashLost.testBit c = false) (rebuilt : s.flashStale = 0)
    (loaded : s.fget .ftlStatusState 0 ≠ 0) (alive : s.fget .ftlStatusState 0 ≠ 4) :
    let u := s.dropChannel c
    let v := if metaLost u.flashLost then (u.fset .ftlStatusState 0 4).setReady 15 false
      else (u.fset .ftlStatusState 0 (if s.fget .ftlStatusState 0 = 3 then 3 else 2)).fset .ftlStatusRebuild 0 1
    s.flashChannelLost c = (v.logFault { cls := 0xC, unit := unitWord 6 c }).hardFault none (unitWord 6 c) 0xC := by
  simp [State.flashChannelLost_of_first works rebuilt, loaded, alive]

/-! ### Package temperatures (R299) -/

/-- The package in front: the first of the hottest. -/
def hottestPackage (m : SMap Nat) : Nat :=
  (List.range 16).foldl (fun b i => if SMap.get 0 m i > SMap.get 0 m b then i else b) 0

theorem hottestPackage_lt (m : SMap Nat) : hottestPackage m < 16 :=
  List.foldlRecOn (motive := fun b => b < 16) _ _ (by decide) fun b inside i mem => by
    have : i < 16 := List.mem_range.1 mem
    split <;> assumption

/-- A package has reached 80 degrees. -/
def packagesHot (m : SMap Nat) : Bool := (List.range 16).any fun i => SMap.get 0 m i ≥ 80

/-- The temperatures of the packages and the registers that show the hottest of them (R299). -/
def State.showPackages (s : State) (m : SMap Nat) : State :=
  ((({ s with pkgTemps := m } : State).fset .ftlTemp 0 (SMap.get 0 m (hottestPackage m))).fset .ftlTempPkg 0 (hottestPackage m)).fset
    .ftlTempThrot 0 (if packagesHot m then 1 else 0)

theorem State.showPackages_pkg (s : State) (m : SMap Nat) : (s.showPackages m).fget .ftlTempPkg 0 = hottestPackage m := by
  rw [State.showPackages, State.fget_fset_fld _ _ _ _ (by decide), State.fget_fset_same]
  exact Nat.mod_eq_of_lt (hottestPackage_lt m)

theorem State.showPackages_throt (s : State) (m : SMap Nat) :
    (s.showPackages m).fget .ftlTempThrot 0 = if packagesHot m then 1 else 0 := by
  rw [State.showPackages, State.fget_fset_same]
  split <;> rfl

section
variable (s : State) (c temp : Nat)

theorem State.flashTemp_eq :
    let m := SMap.set 0 s.pkgTemps c temp
    let u := s.showPackages m
    let v := if packagesHot m then u.fset .ftlTempWashot 0 1 else u
    s.flashTemp c temp = { v with temps := SMap.set 0 v.temps 16 (SMap.get 0 m (hottestPackage m)) } := rfl

theorem State.flashTemp_pkgTemps : (s.flashTemp c temp).pkgTemps = SMap.set 0 s.pkgTemps c temp := by
  rw [State.flashTemp_eq]
  dsimp only
  split <;> rfl

/-- WASHOT, which stays when THROT goes, is all that a change writes besides (R299). -/
theorem State.fget_flashTemp_ne {f : Fld} (i : Nat) (h : f ≠ .ftlTempWashot) :
    (s.flashTemp c temp).fget f i = (s.showPackages (SMap.set 0 s.pkgTemps c temp)).fget f i := by
  let m := SMap.set 0 s.pkgTemps c temp
  let u := s.showPackages m
  have shown : (s.flashTemp c temp).regs = (if packagesHot m then u.fset .ftlTempWashot 0 1 else u).regs := rfl
  rw [State.fget_of_regs shown]
  split
  · exact State.fget_fset_fld _ _ _ _ h
  · rfl

end

/-- Settles O29: a row of the running store by what it does while the FTL runs, a lost channel by STATE, a temperature by the registers
that show it. -/
theorem flashUpkeep : Obligations.FlashUpkeep := by
  refine ⟨fun s => ⟨?commit, ?load, fun runs => ⟨?journal, ?disturb, ?fresh, ?worn, ?urgent, ?level, ?bad, ?rebuild⟩, rfl⟩,
    fun ch s => ⟨?known, ?lost, ?temp⟩⟩
  case commit => exact execFtlCommitDone_of_committing
  case load =>
    intro jl unloaded up
    have loads := execFtlMapLoadDone_of_loading jl unloaded up
    exact ⟨fun held => loads.trans (by rw [held]; rfl), fun lost => loads.trans (by rw [lost]; rfl)⟩
  case journal => exact execFtlJournalWrite_of_runs runs
  case disturb => exact execReadDisturbRefresh_of_runs runs
  case fresh => exact fun b c low => (execRetentionScan_of_runs runs b c).trans (by rw [if_pos low])
  case worn => exact fun b c above low => (execRetentionScan_of_runs runs b c).trans (by rw [if_neg (by omega), if_neg (by omega)])
  case urgent => exact fun b c above => (execRetentionScan_of_runs runs b c).trans (by rw [if_neg (by omega), if_pos above])
  case level => exact execStaticWearLevelling_of_runs runs
  case bad => exact execProgramEraseFailure_of_runs runs
  case rebuild =>
    intro rebuilds once degraded
    refine ⟨_, execFlashRebuildDone_of_degraded runs rebuilds once degraded, ?_, ?_, rfl⟩
    · rw [State.fget_fset_fld _ _ _ _ (by decide), State.fget_fset_same]
      rfl
    · rw [State.fget_fset_same]
      split <;> rfl
  case known => exact fun gone => congrArg Host.Outcome.next (if_pos gone)
  case lost =>
    exact fun works rebuilt loaded alive => congrArg Host.Outcome.next (State.flashChannelLost_of_open works rebuilt loaded alive)
  case temp =>
    exact fun temp => ⟨_, rfl, State.flashTemp_pkgTemps s ch temp.toNat,
      (State.fget_flashTemp_ne s ch temp.toNat 0 (by decide)).trans (State.showPackages_pkg s _),
      (State.fget_flashTemp_ne s ch temp.toNat 0 (by decide)).trans (State.showPackages_throt s _)⟩

end Sys2Proof.Machine

/-! ## Fabric, session and module commands (R314, R387, R388, R419, R436, R437, R476, R480, R490, R493, R539) -/

namespace Sys2Proof.Machine

/-! ### Fabric commands (R419, R436, R447) -/

/-- What FAB_PORT has changed before the port itself moves: its encryption request and the partner it expects. -/
def State.portAsked (s : State) (r : MbxReq) : State :=
  (s.fset .flkPortEncreq (byteAt r.data 16) (byteAt r.data 18)).setPort (byteAt r.data 16) fun q => { q with expect := fld r.data 20 2 }

/-- FAB_PORT that leaves the state `t`, with its entry (R575). -/
def State.portCommanded (s : State) (m : Nat) (r : MbxReq) (t : State) : State × Ans :=
  (t.logCmd m r 0xD (s.portSide (byteAt r.data 16)) (t.portSide (byteAt r.data 16)), .logged [])

/-- FAB_PORT asks for another encryption or another partner than the port has. -/
def State.portDiffers (s : State) (r : MbxReq) : Prop :=
  s.fget .flkPortEncreq (byteAt r.data 16) ≠ byteAt r.data 18 ∨ (s.port (byteAt r.data 16)).expect ≠ fld r.data 20 2

section
variable {s : State} {m : Nat} {r : MbxReq}

theorem cmdFabPort_of_disabled (disable : byteAt r.data 17 ≠ 1) (off : s.fget .flkPortState (byteAt r.data 16) = 0) :
    cmdFabPort s m r = s.portCommanded m r (s.portAsked r) := by
  simp [cmdFabPort, State.portCommanded, State.portAsked, disable, off]

theorem cmdFabPort_of_disabling (disable : byteAt r.data 17 ≠ 1) (on : s.fget .flkPortState (byteAt r.data 16) ≠ 0) :
    cmdFabPort s m r = s.portCommanded m r ((s.portAsked r).portLeave (byteAt r.data 16) 0 1) := by
  simp [cmdFabPort, State.portCommanded, State.portAsked, disable, on]

section
variable (enable : byteAt r.data 17 = 1)
include enable

/-- A port that is UP shakes hands again for another encryption or partner (R451). -/
theorem cmdFabPort_of_up_differs (up : s.fget .flkPortState (byteAt r.data 16) = 4) (differs : s.portDiffers r) :
    cmdFabPort s m r = s.portCommanded m r ((s.portAsked r).startHandshake (byteAt r.data 16) true) := by
  unfold State.portDiffers at differs
  simp [cmdFabPort, State.portCommanded, State.portAsked, enable, up, differs]

theorem cmdFabPort_of_up_same (up : s.fget .flkPortState (byteAt r.data 16) = 4) (same : ¬s.portDiffers r) :
    cmdFabPort s m r = s.portCommanded m r (s.portAsked r) := by
  unfold State.portDiffers at same
  simp [cmdFabPort, State.portCommanded, State.portAsked, enable, up, same]

/-- A port that is disabled or DOWN starts its bring-up with no failed attempt held against it (R419). -/
theorem cmdFabPort_of_down (down : s.fget .flkPortState (byteAt r.data 16) < 2) :
    cmdFabPort s m r = s.portCommanded m r (((((s.portAsked r).fset .flkPortState (byteAt r.data 16) 1).setPort (byteAt r.data 16)
      fun q => { q with fails := [], held := false }).portTrain (byteAt r.data 16))) := by
  have notUp : s.fget .flkPortState (byteAt r.data 16) ≠ 4 := by omega
  simp [cmdFabPort, State.portCommanded, State.portAsked, enable, notUp, Nat.not_le.mpr down]

end

/-- A table that is read and well formed replaces the routes whole (R436). -/
theorem cmdFabRoute_of_formed {u : State} {b : List Byte}
    (read : s.cmdRead m (byteAt r.data 5) (fld r.data 16 6) (8 * fld r.data 24 2) = (u, .inl b))
    (formed : routesBad ((List.range (fld r.data 24 2)).map fun i => fld b (8 * i) 8) = false) :
    let l := (List.range (fld r.data 24 2)).map fun i => fld b (8 * i) 8
    cmdFabRoute s m r =
      ((({ u with routes := l } : State).fabSubmit []).logCmd m r 0xD (routeSide s.routes) (routeSide l), .logged []) := by
  simp only [cmdFabRoute, read, formed, Bool.false_eq_true, if_false]

/-- FAB_QUARANTINE that leaves the state `t`, with its entry (R575). -/
def State.quarantineCommanded (s : State) (m : Nat) (r : MbxReq) (t : State) : State × Ans :=
  let dev := fld r.data 16 2
  let side (t : State) : List Byte := toBytes 2 dev ++ toBytes 1 (if t.quarantined dev then 1 else 0)
  (t.logCmd m r 0xD (side s) (side t), .logged [])

theorem cmdFabQuarantine_of_off (off : byteAt r.data 18 = 0) :
    let dev := fld r.data 16 2
    let v := s.fget .flkQuar (dev / 32)
    cmdFabQuarantine s m r =
      s.quarantineCommanded m r ((s.fset .flkQuar (dev / 32) (v - (v &&& 2 ^ (dev % 32)))).fabSubmit []) := by
  simp [cmdFabQuarantine, State.quarantineCommanded, off]

/-- Requests to the device and collectives that include it end UNREACHABLE at once (R447). -/
theorem cmdFabQuarantine_of_on (on : byteAt r.data 18 = 1) :
    let dev := fld r.data 16 2
    let u := s.fset .flkQuar (dev / 32) (s.fget .flkQuar (dev / 32) ||| 2 ^ (dev % 32))
    let w := (u.fadd .flkUnreach 0 ((u.fabReqs.filter fun x => x.dst = dev && x.answer.isNone).length)).answerReqs (fun x => x.dst = dev) 5
    cmdFabQuarantine s m r = s.quarantineCommanded m r
      ((w.colls.filter fun c => c.group.any fun e => e.1 = dev).foldl (fun (t : State) c => t.collEnd c.part c.dva 5) w).collDrive := by
  simp only [cmdFabQuarantine, on]
  rfl

end

/-! ### Session commands (R313 to R315, R387) -/

section
variable {s : State} {m : Nat} {r : MbxReq}

/-- VSESS_OPEN with a free session, within the quota and with room for the store (R313, R315). -/
theorem cmdVsessOpen_of_room {u : State} {pl : Nat}
    (fewOwn : ((s.vsess.filter fun e => e.2.isOpen).filter fun e => e.2.part = byteAt r.data 5).length < 64)
    (few : (s.vsess.filter fun e => e.2.isOpen).length < 1024)
    (quota : s.withinQuota (byteAt r.data 5) 1 (storeBytes ((r.data.drop 16).take 128)) = true)
    (room : s.allocT1 (byteAt r.data 5) (storeBytes ((r.data.drop 16).take 128)) = (u, .inl pl)) :
    let p := byteAt r.data 5
    let b := (r.data.drop 16).take 128
    let i := ((List.range 1024).find? fun i => !(s.vs i).isOpen).getD 0
    let gen := if (s.vs i).used then ((s.vs i).gen + 1) % 256 else 0
    let h := toBytes 4 (gen * 2 ^ 24 + i)
    let t := ((u.charge p 1 (storeBytes b)).setVs i fun _ =>
      { used := true, isOpen := true, gen := gen, part := p, block := b, store := pl, bytes := storeBytes b }).syncVid p
    cmdVsessOpen s m r = (t.logCmd m r 0xF [] (h ++ [BitVec.ofNat 8 (byteAt b 0), BitVec.ofNat 8 (byteAt b 1), 0, 0] ++
      toBytes 8 (storeBytes b)), .logged (padTo 8 h ++ toBytes 8 (storeBytes b))) := by
  have free : (decide (((s.vsess.filter fun e => e.2.isOpen).filter fun e => e.2.part = byteAt r.data 5).length ≥ 64) ||
      decide ((s.vsess.filter fun e => e.2.isOpen).length ≥ 1024)) = false := by
    simp only [Bool.or_eq_false_iff, decide_eq_false_iff_not, not_le]
    exact ⟨fewOwn, few⟩
  simp only [cmdVsessOpen, free, quota, room, Bool.not_true, Bool.false_eq_true, if_false]

/-- Every job of a session is being stopped once each that was not has been marked ABORTED. -/
theorem stopping_of_marked {l : List VideoJob} {i : Nat} {j : VideoJob}
    (mem : j ∈ l.map fun (j : VideoJob) => if j.sess = i && !j.stopping then { j with stopping := true, stop := 5 } else j)
    (own : j.sess = i) : j.stopping = true := by
  obtain ⟨k, -, rfl⟩ := List.mem_map.mp mem
  by_cases marked : (k.sess = i && !k.stopping) = true
  · rw [if_pos marked]
  · rw [if_neg marked] at own ⊢
    simpa [own] using marked

section
variable {i : Nat} (named : s.sessLookup (byteAt r.data 5) (fld r.data 16 4) = .inl i)
include named

/-- VSESS_CLOSE leaves no job of the session that goes on (R314, R336). -/
theorem cmdVsessClose_of_named : ∃ t : State, cmdVsessClose s m r = (t.setVs i fun v => { v with closing := true }, .running []) ∧
    ∀ j ∈ t.videos, j.sess = i → j.stopping = true := by
  simp only [cmdVsessClose, named]
  exact ⟨_, rfl, fun _ mem own => stopping_of_marked mem own⟩

theorem cmdVsessReset_of_running (runs : (s.vframes.any fun f => f.sess = i) = true) :
    let h := toBytes 4 (fld r.data 16 4)
    cmdVsessReset s m r = ((s.setVs i fun v => { v with resetDue := true }).logCmd m r 0xF h h, .logged []) := by
  simp only [cmdVsessReset, named, runs, if_true]

theorem cmdVsessReset_of_idle (idle : (s.vframes.any fun f => f.sess = i) = false) :
    let h := toBytes 4 (fld r.data 16 4)
    cmdVsessReset s m r = (((s.setVs i fun v => { v with resetDue := true }).frameBoundary i).logCmd m r 0xF h h, .logged []) := by
  simp only [cmdVsessReset, named, idle, Bool.false_eq_true, if_false]

end

end

/-! ### Power states and self-test (R388, R490, R493, R539) -/

section
variable {s : State} {m : Nat} {r : MbxReq}

section
variable (idle : s.pwrSeq = none) (noShutdown : s.fget .pwrStateStage 0 = 0)
include idle noShutdown

theorem cmdPwrSet_of_same (same : byteAt r.data 16 = s.fget .pwrState 0) :
    let f := s.fget .pwrState 0
    cmdPwrSet s m r = (s.logCmd m r 0xA (toBytes 1 f) (toBytes 1 f), .logged (toBytes 1 f)) := by
  simp [cmdPwrSet, idle, noShutdown, same]

theorem cmdPwrSet_of_wake (wake : byteAt r.data 16 < s.fget .pwrState 0) :
    let t := byteAt r.data 16
    cmdPwrSet s m r = ({ (s.fset .pwrStateBusy 0 1).fset .pwrStateTarget 0 t with
      pwrSeq := some { request := some (m, r.stamp), target := t, wake := true } }, .running []) := by
  simp [cmdPwrSet, idle, noShutdown, wake.ne, wake]

theorem cmdPwrSet_of_deeper (deeper : s.fget .pwrState 0 < byteAt r.data 16) :
    let t := byteAt r.data 16
    cmdPwrSet s m r = (({ (s.fset .pwrStateBusy 0 1).fset .pwrStateTarget 0 t with
      pwrSeq := some { request := some (m, r.stamp), target := t, todo := powerBlocks t } } : State).prepare 1, .running []) := by
  simp [cmdPwrSet, idle, noShutdown, deeper.ne', deeper.not_gt]

end

/-- BIST_RUN in P0, with none running and no quadrant stopped (R538, R539). -/
theorem cmdBistRun_of_idle (idle : s.bist = none) (p0 : s.fget .pwrState 0 = 0) (runs : s.quadStop = 0)
    (noShutdown : s.fget .pwrStateStage 0 = 0) (granted : s.bistRefusal m r.data = none) :
    cmdBistRun s m r = (s.bistStart m r, .running []) := by
  simp [cmdBistRun, idle, p0, runs, noShutdown, granted]

/-! ### Mirror and checkpoints (R476, R480) -/

/-- The bytes of a partition's mirror in an entry of the change log (R575). -/
def mirrorSide (q : Partition) : List Byte := toBytes 1 q.mirrorOn ++ [0] ++ toBytes 2 q.mirrorDev ++ toBytes 1 q.mirrorPart

/-- The partner of a partition's mirror is the one that MIRROR_SET names. -/
def State.mirrorName (t : State) (r : MbxReq) : State := t.setPart (byteAt r.data 5) fun q =>
  { q with mirrorOn := byteAt r.data 16, mirrorDev := fld r.data 18 2, mirrorPart := byteAt r.data 20, mirrorNamed := true,
           mirrorShut := false }

/-- MIRROR_SET that leaves the state `t`, with its entry. -/
def State.mirrorCommanded (s : State) (m : Nat) (r : MbxReq) (t : State) : State × Ans :=
  (t.logCmd m r 9 (mirrorSide (s.part (byteAt r.data 5))) (mirrorSide (t.part (byteAt r.data 5))), .logged [])

theorem cmdMirrorSet_of_same (dev : (s.part (byteAt r.data 5)).mirrorDev = fld r.data 18 2)
    (part : (s.part (byteAt r.data 5)).mirrorPart = byteAt r.data 20) :
    cmdMirrorSet s m r = s.mirrorCommanded m r (s.mirrorName r) := by
  simp [cmdMirrorSet, State.mirrorCommanded, State.mirrorName, mirrorSide, dev, part]

/-- Another partner: what the old one holds is given up first (R476). -/
theorem cmdMirrorSet_of_other
    (other : (s.part (byteAt r.data 5)).mirrorDev ≠ fld r.data 18 2 ∨ (s.part (byteAt r.data 5)).mirrorPart ≠ byteAt r.data 20) :
    cmdMirrorSet s m r = s.mirrorCommanded m r ((s.freeMirror (byteAt r.data 5)).mirrorName r) := by
  simp [cmdMirrorSet, State.mirrorCommanded, State.mirrorName, mirrorSide, other]

theorem cmdCkptRestore_of_own {i : Nat} (own : s.ownImage (byteAt r.data 5) (fld r.data 16 8) = some i)
    (still : s.recovering (byteAt r.data 5) = false) (job : s.activeJob (byteAt r.data 5) = some (s.image i).job) :
    cmdCkptRestore s m r =
      (s.startRecovery { part := byteAt r.data 5, image := some i, request := some (m, r.stamp) }, .running []) := by
  simp [cmdCkptRestore, own, still, job]

theorem cmdCkptRestore_of_region {x : Nat} (notOwn : s.ownImage (byteAt r.data 5) (fld r.data 16 8) = none)
    (held : s.regionImage (byteAt r.data 5) (fld r.data 16 8) = some x) (closed : s.jobOpen (byteAt r.data 5) = false) :
    cmdCkptRestore s m r =
      (s, if s.takeoverFits (byteAt r.data 5) (s.takenImage (byteAt r.data 5) x) = true then .running [] else .now 5 []) := by
  simp only [cmdCkptRestore, notOwn, held, closed, Bool.false_eq_true, if_false]
  split <;> rfl

end

/-- Settles O36: each command whose turn has come is answered with what its function gives once its checks pass. -/
theorem fabricAndSessionCommandsAct : Obligations.FabricAndSessionCommandsAct := by
  intro m r s
  have applied {op : Nat} {t : State} {a : Ans} {f : State → Nat → MbxReq → State × Ans} (turn : s.cmdTurn m op r)
      (h : f s (mbxNum m) r = (t, a)) : Host.Outcome.next (s.runCommand m op f) = (.next (t.answer (mbxNum m) r a) : Res) :=
    congrArg Host.Outcome.next (State.runCommand_of_answer turn h)
  refine ⟨fun turn => ⟨?disabled, ?disabling, ?differs, ?same, ?down⟩, fun u b turn read formed => ?route,
    fun turn => ⟨fun off => ?free, fun on => ?quarantine⟩, fun u pl turn fewOwn few quota room => ?openSession,
    fun i named => ⟨fun turn => ?close, fun turn => ⟨fun runs => ?resetLater, fun idle => ?resetNow⟩⟩,
    fun turn idle noShutdown => ⟨?stay, ?wake, ?deeper⟩, fun turn idle p0 runs noShutdown granted => ?test,
    fun turn => ⟨?samePartner, ?otherPartner⟩, fun i turn own still job => ?recover, fun x turn notOwn held closed => ?takeover⟩
  case disabled => exact fun disable off => applied turn (cmdFabPort_of_disabled disable off)
  case disabling => exact fun disable on => applied turn (cmdFabPort_of_disabling disable on)
  case differs => exact fun enable up differs => applied turn (cmdFabPort_of_up_differs enable up differs)
  case same => exact fun enable up same => applied turn (cmdFabPort_of_up_same enable up same)
  case down => exact fun enable down => applied turn (cmdFabPort_of_down enable down)
  case route => exact applied turn (cmdFabRoute_of_formed read formed)
  case free => exact applied turn (cmdFabQuarantine_of_off off)
  case quarantine => exact applied turn (cmdFabQuarantine_of_on on)
  case openSession => exact applied turn (cmdVsessOpen_of_room fewOwn few quota room)
  case close =>
    obtain ⟨t, closes, stopped⟩ := cmdVsessClose_of_named (m := mbxNum m) named
    exact ⟨t, applied turn closes, stopped⟩
  case resetLater => exact applied turn (cmdVsessReset_of_running named runs)
  case resetNow => exact applied turn (cmdVsessReset_of_idle named idle)
  case stay => exact fun same => applied turn (cmdPwrSet_of_same idle noShutdown same)
  case wake => exact fun wake => applied turn (cmdPwrSet_of_wake idle noShutdown wake)
  case deeper => exact fun deeper => applied turn (cmdPwrSet_of_deeper idle noShutdown deeper)
  case test => exact applied turn (cmdBistRun_of_idle idle p0 runs noShutdown granted)
  case samePartner => exact fun dev part => applied turn (cmdMirrorSet_of_same dev part)
  case otherPartner => exact fun other => applied turn (cmdMirrorSet_of_other other)
  case recover => exact applied turn (cmdCkptRestore_of_own own still job)
  case takeover => exact applied turn (cmdCkptRestore_of_region notOwn held closed)

end Sys2Proof.Machine

/-! ## Doorbells and controls of rings (R339, R342, R345, R489) -/

namespace Sys2Proof.Machine

/-! ### Doorbells -/

section
variable {s : State} {g v : Nat}

/-- A ring that is DISABLED, or that a DISABLE empties, counts a doorbell and ignores it (R339, R345). -/
theorem State.doorbell_of_disabled (off : s.fget .ringState g = 0 ∨ (s.ring g).disabling = true) :
    s.doorbell g v = s.fadd .ringDbign g 1 := by
  unfold State.doorbell
  split
  · rfl
  · rename_i goesOn
    simp only [off.resolve_right goesOn]

section
variable (stays : (s.ring g).disabling = false)
include stays

theorem State.doorbell_of_held (held : s.fget .ringState g = 2) :
    s.doorbell g v = s.setRing g fun r => { r with heldDb := r.heldDb ++ [v] } := by
  simp [State.doorbell, stays, held]

/-- On an ACTIVE ring a new tail within its slots moves P; one beyond them makes the ring guilty (R342, R367). -/
theorem State.doorbell_of_active (active : s.fget .ringState g = 1) (new : v ≠ (s.ring g).tail) :
    s.doorbell g v = if (v + 2 ^ 32 - s.fget .ringHead g) % 2 ^ 32 ≤ s.ringSlots g then s.setRing g fun r => { r with tail := v }
      else s.markGuilty g 5 (s.fget .ringHead g) := by
  simp [State.doorbell, State.actDoorbell, stays, active, new]

end

end

theorem execRingDb_of_trigger {a : Access} {v : BitVec 32} {g : Nat} {s : State} (hit : s.trigger a .ringDb = some g) :
    exec (.ringDb a v) s = .next (s.doorbell g v.toNat) := congrArg Host.Outcome.next (by simp only [hit])

/-- Settles O5: a doorbell by the ring's state, and on an ACTIVE ring by the distance from HEAD. -/
theorem doorbellOfRing : Obligations.DoorbellOfRing := by
  refine ⟨fun a v g s hit => ⟨?published, ?held, ?disabled⟩, ?beyond⟩
  case published =>
    intro active stays inside new
    rw [execRingDb_of_trigger hit, State.doorbell_of_active stays active new, if_pos inside]
  case held => exact fun held stays => (execRingDb_of_trigger hit).trans (by rw [State.doorbell_of_held stays held])
  case disabled => exact fun off => (execRingDb_of_trigger hit).trans (by rw [State.doorbell_of_disabled off])
  case beyond =>
    intro a v g s hit active stays beyond new
    rw [execRingDb_of_trigger hit, State.doorbell_of_active stays active new, if_neg (by omega)]

/-! ### Restarts of a ring -/

/-- A control operation acts on the ring that its access names. -/
theorem State.next_ringCtl {s t : State} {a : Access} {g : Nat} {f : State → Nat → State} (hit : s.trigger a .ringCtl = some g)
    (acts : f s g = t) : (.next (s.ringCtl a f) : Res) = .next t := by
  simp only [State.ringCtl, hit, acts]

section
variable (s : State) (g : Nat)

@[simp] theorem State.syncRing_ring (h : Nat) : (s.syncRing g).ring h = s.ring h := rfl
@[simp] theorem State.syncRing_mem : (s.syncRing g).mem = s.mem := rfl

@[simp] theorem State.fget_syncRing {f : Fld} (i : Nat) (h : f ≠ .ringStateInflight) : (s.syncRing g).fget f i = s.fget f i :=
  State.fget_fset_fld _ _ _ _ h

@[simp] theorem State.restartRing_mem : (s.restartRing g).mem = s.mem := rfl

theorem State.restartRing_ring : (s.restartRing g).ring g =
    { s.ring g with tail := s.fget .ringStart g, recs := [], replay := [], heldDb := [] } := by
  simp [State.restartRing]

theorem State.restartRing_ring_ne {h : Nat} (other : h ≠ g) : (s.restartRing g).ring h = s.ring h := by
  simp [State.restartRing, State.ring_setRing_ne, other]

/-- The fields that a restart writes. -/
def restartFields : List Fld := [.ringHead, .ringState, .ringStateInflight]

theorem State.fget_restartRing_ne {f : Fld} (i : Nat) (h : f ∉ restartFields) : (s.restartRing g).fget f i = s.fget f i := by
  simp only [restartFields, List.mem_cons, List.not_mem_nil, or_false, not_or] at h
  simp [State.restartRing, h]

theorem State.restartRing_state :
    (s.restartRing g).fget .ringState g = if s.inQuads (g / 16) s.quadStop then 2 else 1 := by
  simp only [State.restartRing, State.fget_syncRing _ _ _ (show Fld.ringState ≠ .ringStateInflight by decide), State.setRing_fget,
    State.fget_fset_same]
  split <;> rfl

theorem State.restartRing_head : (s.restartRing g).fget .ringHead g = s.fget .ringStart g % 2 ^ 32 := by
  simp [State.restartRing]

/-- HEAD and the state of another ring stay. -/
theorem State.fget_restartRing_other {f : Fld} {h : Nat} (shown : f ≠ .ringStateInflight) (other : h ≠ g) (hg : g < 1024) (hh : h < 1024) :
    (s.restartRing g).fget f h = s.fget f h := by
  have keeps (t : State) (k : Fld) (v : Nat) : (t.fset k g v).fget f h = t.fget f h := by
    by_cases same : f = k
    · subst same
      exact State.fget_fset_idx _ _ _ (by omega) (by omega) other
    · exact State.fget_fset_fld _ _ _ _ same
  simp only [State.restartRing, State.fget_syncRing _ _ _ shown, State.setRing_fget, keeps]

end

section
variable {s : State} {g : Nat}

theorem State.enableRing_of_disabled (disabled : s.fget .ringState g = 0) (formed : s.formed (g / 16) = true)
    (skein : (s.part (g / 16)).mask ≠ 0) : s.enableRing g = s.restartRing g := by
  simp [State.enableRing, disabled, formed, skein]

/-- ENABLE does nothing in another state, and in a partition that is not formed or has no skein (R345; log entry 54). -/
theorem State.enableRing_of_not (cannot : s.fget .ringState g ≠ 0 ∨ s.formed (g / 16) = false ∨ (s.part (g / 16)).mask = 0) :
    s.enableRing g = s := by
  refine if_neg fun can => ?_
  simp only [Bool.and_eq_true, decide_eq_true_eq] at can
  obtain ⟨⟨disabled, formed⟩, skein⟩ := can
  rcases cannot with other | unformed | none
  · exact other disabled
  · simp [formed] at unformed
  · exact skein none

theorem State.rearmRing_of_guilty (guilty : s.fget .ringState g = 3) :
    s.rearmRing g = ((s.restartRing g).fset .ringStateErr g 0).fset .ringPstatusGuilty (g / 16)
      (s.fget .ringPstatusGuilty (g / 16) &&& (0xFFFF - 2 ^ (g % 16))) := if_pos guilty

theorem State.rearmRing_of_not_guilty (other : s.fget .ringState g ≠ 3) : s.rearmRing g = s := if_neg other

end

/-- Settles O6: ENABLE and REARM are one restart, read field by field. -/
theorem enableAndRearmRestartRing : Obligations.EnableAndRearmRestartRing := by
  intro a g s hit inside state
  refine ⟨fun disabled formed skein => ?enabled, fun disabled cannot => ?idle, fun guilty => ?rearmed⟩
  case enabled =>
    refine ⟨s.restartRing g, State.next_ringCtl hit (State.enableRing_of_disabled disabled formed skein), s.restartRing_state g,
      s.restartRing_head g, ?_, ?_, rfl, s.fget_restartRing_ne g g (by decide), fun h other => ⟨s.restartRing_ring_ne g other, fun hh =>
        ⟨s.fget_restartRing_other g (by decide) other inside hh, s.fget_restartRing_other g (by decide) other inside hh⟩⟩⟩
    · rw [State.restartRing_ring]
    · rw [State.restartRing_ring]
  case idle => exact State.next_ringCtl hit (State.enableRing_of_not (.inr cannot))
  case rearmed =>
    refine ⟨_, State.next_ringCtl hit (State.rearmRing_of_guilty guilty), ?_, ?_, ?_, ?_, rfl, fun h other => ⟨?_, fun hh => ⟨?_, ?_⟩⟩⟩
    · simpa using s.restartRing_state g
    · simpa using s.restartRing_head g
    · simp [State.restartRing_ring]
    · simp
    · exact s.restartRing_ring_ne g other
    · simpa using s.fget_restartRing_other g (by decide : Fld.ringState ≠ .ringStateInflight) other inside hh
    · simpa using s.fget_restartRing_other g (by decide : Fld.ringHead ≠ .ringStateInflight) other inside hh

/-! ### FLUSH and DISABLE -/

/-- A ring that runs: ACTIVE or HELD. -/
def State.ringRuns (s : State) (g : Nat) : Prop := s.fget .ringState g = 1 ∨ s.fget .ringState g = 2

section
variable {s : State} {g : Nat}

/-- FLUSH and DISABLE are ignored in another state than ACTIVE and HELD (R345). -/
theorem State.ringRuns_iff : s.ringRuns g ↔ ¬ (s.fget .ringState g ≠ 1 && s.fget .ringState g ≠ 2) = true := by
  simp only [State.ringRuns, Bool.and_eq_true, decide_eq_true_eq]
  omega

theorem State.flushRing_of_not_running (stopped : ¬ s.ringRuns g) : s.flushRing g = s := if_pos (by simpa [State.ringRuns_iff] using stopped)

theorem State.disableRing_of_not_running (stopped : ¬ s.ringRuns g) : s.disableRing g = s :=
  if_pos (by simpa [State.ringRuns_iff] using stopped)

variable (runs : s.ringRuns g)
include runs

theorem State.flushRing_of_runs : s.flushRing g =
    ((({ s with waits := s.waits.filter fun w => w.req ≠ Requester.fetch g } : State).setRing g fun r =>
      { r with recs := r.recs.filter (fun x => s.begun g x), replay := [] }).fset .ringHead g (s.ring g).tail).syncRing g :=
  if_neg (State.ringRuns_iff.mp runs)

theorem State.flushRing_mem : (s.flushRing g).mem = s.mem := by
  rw [State.flushRing_of_runs runs]
  rfl

theorem State.flushRing_recs : ((s.flushRing g).ring g).recs = (s.ring g).recs.filter (s.begun g) := by
  rw [State.flushRing_of_runs runs, State.syncRing_ring, State.ring_fset, State.ring_setRing_same]
  rfl

theorem State.flushRing_head : (s.flushRing g).fget .ringHead g = (s.ring g).tail % 2 ^ 32 := by
  rw [State.flushRing_of_runs runs]
  simp

theorem State.flushRing_state : (s.flushRing g).fget .ringState g = s.fget .ringState g := by
  rw [State.flushRing_of_runs runs]
  simp

theorem State.disableRing_of_runs : s.disableRing g =
    if ((s.flushRing g).ring g).recs.isEmpty then (s.flushRing g).fset .ringState g 0
    else (s.flushRing g).setRing g fun r => { r with disabling := true, heldDb := [] } := if_neg (State.ringRuns_iff.mp runs)

theorem State.disableRing_of_none (none : (s.ring g).recs.filter (s.begun g) = []) :
    s.disableRing g = (s.flushRing g).fset .ringState g 0 := by
  rw [State.disableRing_of_runs runs, State.flushRing_recs runs, none]
  rfl

theorem State.disableRing_of_some (some : (s.ring g).recs.filter (s.begun g) ≠ []) :
    s.disableRing g = (s.flushRing g).setRing g fun r => { r with disabling := true, heldDb := [] } := by
  rw [State.disableRing_of_runs runs, State.flushRing_recs runs, if_neg (by simpa using some)]

end

/-- Settles O7: DISABLE is FLUSH, and then a state of the ring that goes by the records still in flight. -/
theorem flushDisableClrerr : Obligations.FlushDisableClrerr := by
  refine ⟨fun a g s hit inside => ⟨fun runs => ⟨?flush, ?disable⟩, State.next_ringCtl hit rfl⟩, fun a g s hit => ⟨fun other => ?enable,
    fun other => ?rearm, fun stopped => ⟨?flushIgnored, ?disableIgnored⟩⟩⟩
  case flush =>
    exact ⟨_, State.next_ringCtl hit rfl, State.flushRing_head runs, State.flushRing_recs runs, State.flushRing_state runs, State.flushRing_mem runs⟩
  case disable =>
    by_cases none : (s.ring g).recs.filter (s.begun g) = []
    · refine ⟨_, State.next_ringCtl hit (State.disableRing_of_none runs none), ?_, State.flushRing_mem runs, fun _ => by simp,
        fun some => absurd none some⟩
      simpa using State.flushRing_head runs
    · exact ⟨_, State.next_ringCtl hit (State.disableRing_of_some runs none), State.flushRing_head runs, State.flushRing_mem runs,
        fun empty => absurd empty none, fun _ => ⟨State.flushRing_state runs, by simp⟩⟩
  case enable => exact State.next_ringCtl hit (State.enableRing_of_not (.inl other))
  case rearm => exact State.next_ringCtl hit (State.rearmRing_of_not_guilty other)
  case flushIgnored => exact State.next_ringCtl hit (State.flushRing_of_not_running (not_or.mpr stopped))
  case disableIgnored => exact State.next_ringCtl hit (State.disableRing_of_not_running (not_or.mpr stopped))

end Sys2Proof.Machine

/-! ## Records that are fetched, started or skipped (R316, R343, R347, R353 to R359, R411) -/

namespace Sys2Proof.Machine

/-! ### Fetch and SKIPONERR -/

/-- Arbitration grants the fetch to a partition and then to one of its rings (R411). -/
theorem State.recordFetch_of_granted {s : State} {p g : Nat}
    (part : leastRecent (fun p => (s.part p).fetchStamp)
      ((List.range 64).filter fun p => (List.range 16).any fun r => s.canFetch (16 * p + r)) = some p)
    (ring : s.bestRing (·.fetchStamp) (((List.range 16).map (16 * p + ·)).filter s.canFetch) = some g) : s.recordFetch = s.fetchRec g := by
  simp only [State.recordFetch, part, ring]

section
variable {s u : State} {g : Nat} (slot : (s.ring g).replay = [])
include slot

/-- With no record to replay, the next slot of the ring is read, and its record is taken (R340, R343). -/
theorem State.fetchRec_of_read {d : List Byte}
    (read : s.vread (g / 16) (s.fget .ringBase g * 4096 + 64 * (s.fget .ringHead g % s.ringSlots g)) 64 = (u, .ok d)) :
    s.fetchRec g = (u.fadd .ringHead g 1).takeRec g
      { idx := s.fget .ringHead g, gen := s.fget .ringStateGen g, data := d,
        reported := (s.ring g).reported.contains (s.fget .ringHead g) } := by
  simp only [State.fetchRec, slot, read]

theorem State.fetchRec_of_fault {a : Nat} {ro : Bool}
    (fault : s.vread (g / 16) (s.fget .ringBase g * 4096 + 64 * (s.fget .ringHead g % s.ringSlots g)) 64 = (u, .bad a ro)) :
    s.fetchRec g = u.markGuilty g 6 (s.fget .ringHead g) := by
  simp only [State.fetchRec, slot, fault]

theorem State.fetchRec_of_wait {a : Nat} {k : WaitKind}
    (waits : s.vread (g / 16) (s.fget .ringBase g * 4096 + 64 * (s.fget .ringHead g % s.ringSlots g)) 64 = (u, .wait a k)) :
    s.fetchRec g = u.enterWait ⟨.fetch g, g / 16, a, false, k⟩ := by
  simp only [State.fetchRec, slot, waits]

end

/-- A record under SKIPONERR whose turn comes while ERR is set ends SKIPPED, whatever its type would do (R353). -/
theorem State.startRec_of_skipped {s : State} {p r ty : Nat} {x : Rec} (next : s.nextStart (16 * p + r) = some x)
    (free : s.waitsFor (.record (16 * p + r) x.idx) = false) (skipped : s.skips (16 * p + r) x = true) (type : byteAt x.data 0 = ty)
    (f : State → Nat → Rec → State) : s.startRec p r ty f = s.endRec (16 * p + r) x.idx 0x12 0 0 0 := by
  simp [State.startRec, next, free, skipped, type]

/-- Settles O10: the fetch by what the read of the slot gives, and SKIPONERR before the effect of any type. -/
theorem recordsAreFetchedOrSkipped : Obligations.RecordsAreFetchedOrSkipped := by
  refine ⟨?fetched, ?skipped⟩
  case fetched =>
    intro p g s part ring slot h va
    have granted {t : State} (fetch : s.fetchRec g = t) : exec .recordFetch s = .next t :=
      congrArg Host.Outcome.next ((State.recordFetch_of_granted part ring).trans fetch)
    exact ⟨fun u d read => granted (State.fetchRec_of_read slot read), fun u a ro fault => granted (State.fetchRec_of_fault slot fault),
      fun u a k waits => granted (State.fetchRec_of_wait slot waits)⟩
  case skipped =>
    intro p r x s g next free skipped c row
    simp only [List.mem_cons, Prod.mk.injEq, List.not_mem_nil, or_false] at row
    rcases row with ⟨type, rfl⟩ | ⟨type, rfl⟩ | ⟨type, rfl⟩ | ⟨type, rfl⟩ | ⟨type, rfl⟩ | ⟨type, rfl⟩ | ⟨type, rfl⟩ | ⟨type, rfl⟩ |
      ⟨type, rfl⟩ <;> exact congrArg Host.Outcome.next (State.startRec_of_skipped next free skipped type _)

/-! ### SIGNAL_LOCAL -/

section
variable {s : State} {g : Nat} {x : Rec}

theorem State.signalLocal_of_reported (reported : x.reported = true) : s.signalLocal g x = s.endRec g x.idx 0 0 0 0 := if_pos reported

/-- A signal to a slot ends DONE or STALE by what the write of the slot answers (R355, R356). -/
theorem State.signalLocal_of_slot (slot : byteAt x.data 12 = 1) (fresh : x.reported = false) : s.signalLocal g x =
    (s.slotWrite (g / 16) (byteAt x.data 14) (byteAt x.data 13) (fld x.data 24 8)).1.endRec g x.idx
      (if (s.slotWrite (g / 16) (byteAt x.data 14) (byteAt x.data 13) (fld x.data 24 8)).2 then 0 else 8) 0 0 0 := by
  simp [State.signalLocal, slot, fresh]

end

theorem State.slotWrite_of_match {s : State} {p slot v : Nat} (op : Nat) (same : s.fget .ringSlotGen (256 * p + slot) = bitField v 56 8) :
    s.slotWrite p slot op v = (s.fset .ringSlotValue (256 * p + slot)
      (signalOp op 56 (s.fget .ringSlotValue (256 * p + slot)) (bitField v 0 56)), true) := if_pos same

theorem State.slotWrite_of_stale {s : State} {p slot v : Nat} (op : Nat) (other : s.fget .ringSlotGen (256 * p + slot) ≠ bitField v 56 8) :
    s.slotWrite p slot op v = (s.fsat .ringSlotstale (256 * p + slot) 1, false) := if_neg other

/-- The partition of ring `r` of partition `p`. -/
theorem ring_part (p : Nat) (r : Fin 16) : (16 * p + r.val) / 16 = p := by omega

/-- Settles O9: the record's turn, and the write of its slot by the slot's generation. -/
theorem signalLocalOnSlot : Obligations.SignalLocalOnSlot := by
  intro p r x s g i v turn slot fresh
  have starts : exec (.signalLocal p r) s = .next (s.signalLocal g x) := congrArg Host.Outcome.next (State.startRec_of_turn turn _)
  rw [State.signalLocal_of_slot slot fresh, ring_part] at starts
  refine ⟨fun same => ?_, fun other => ?_⟩
  · rw [starts, State.slotWrite_of_match _ same]
    rfl
  · rw [starts, State.slotWrite_of_stale _ other]
    rfl

/-! ### The record whose turn has come -/

section
variable {s : State} {g : Nat} {x : Rec}

/-- A GRAPH with room in its engine, in a job, whose nodes can be read, runs: its first nodes are readied (R359, R365). -/
theorem State.startGraph_of_read {u v : State} {k : Nat} {nodes : List Node} (few : (s.engineLoad (s.homeQuad (g / 16))).1 < 64)
    (room : (s.engineLoad (s.homeQuad (g / 16))).2 + fld x.data 24 4 ≤ 1048576) (job : s.graphJob g x = (u, .inl (some k)))
    (read : u.readNodes (g / 16) (fld x.data 16 6) (fld x.data 24 4) (fld x.data 24 4) [] = (v, .inl nodes)) :
    let y : Graph := { ring := g, idx := x.idx, gen := x.gen, nodes := nodes, stamp := v.stamp }
    s.startGraph g x = (({ v.tick with graphs := v.graphs ++ [y] } : State).started' g x.idx).readyAll g x.idx
      ((List.range (fld x.data 24 4)).filter fun i => (y.node i).pending = 0) := by
  have fits : ¬ ((s.engineLoad (s.homeQuad (g / 16))).1 ≥ 64 ∨
      (s.engineLoad (s.homeQuad (g / 16))).2 + fld x.data 24 4 > 1048576) := by omega
  simp [State.startGraph, fits, job, read]

theorem State.startCopy_of_allowed (allowed : s.workAllowed g = true) : s.startCopy g x = (s.started' g x.idx).startChain
    { engine := s.homeQuad (g / 16), part := g / 16, job := s.jobOf g, of := .record g x.idx x.gen, dva := 0,
      desc := copyDesc (fld x.data 16 6) (fld x.data 24 6) (fld x.data 32 8 / 64) } := by
  simp [State.startCopy, allowed]

theorem State.startStream_of_allowed (allowed : s.workAllowed g = true) : s.startStream g x = (s.started' g x.idx).startChain
    { engine := byteAt x.data 12, part := g / 16, job := s.jobOf g, of := .record g x.idx x.gen, dva := fld x.data 16 6 } := by
  simp [State.startStream, allowed]

section
variable (acked : s.writesOpen g = false) (fresh : x.reported = false)
include acked fresh

theorem State.signalPeer_of_nameless (unset : s.ownDev = none) : s.signalPeer g x = s.endRec g x.idx 0x10 0 0 0 := by
  simp [State.signalPeer, acked, fresh, unset]

/-- A signal to this module itself is applied at once (R357). -/
theorem State.signalPeer_of_own (own : s.ownDev = some (fld x.data 14 2)) :
    let q := s.peerSignal (fld x.data 14 2) (byteAt x.data 16) (byteAt x.data 13) (byteAt x.data 12) (fld x.data 24 8)
    s.signalPeer g x = q.1.endRec g x.idx q.2 0 0 0 := by
  simp [State.signalPeer, acked, fresh, own]

theorem State.signalPeer_of_other {own : Nat} (set : s.ownDev = some own) (other : own ≠ fld x.data 14 2) :
    s.signalPeer g x = (s.started' g x.idx).fabSubmit
      [{ owner := .signal g x.idx x.gen, dst := fld x.data 14 2, ty := 2, spart := g / 16, dpart := byteAt x.data 16,
         opf := byteAt x.data 12 + 256 * byteAt x.data 13, payload := toBytes 8 (fld x.data 24 8) }] := by
  simp [State.signalPeer, acked, fresh, set, other.symm]

end

theorem State.pollWait_of_no {u : State} (h : s.waitCond (g / 16) x.data = (u, .no)) :
    s.pollWait g x = (u.started' g x.idx).fset .ringStateWaiting g 1 := by
  simp only [State.pollWait, h]

/-- A VIDEO job whose descriptor names an open session and is well formed joins its queue (R316). -/
theorem State.startVideo_of_open {u : State} {e : List Byte} (allowed : s.workAllowed g = true)
    (read : s.vread (g / 16) (fld x.data 16 6) 128 = (u, .ok e)) (isOpen : (u.vs (fld e 4 4 % 2 ^ 24)).isOpen = true)
    (stays : (u.vs (fld e 4 4 % 2 ^ 24)).closing = false) (gen : (u.vs (fld e 4 4 % 2 ^ 24)).gen = fld e 4 4 / 2 ^ 24)
    (own : (u.vs (fld e 4 4 % 2 ^ 24)).part = g / 16) (formed : u.vidBad (g / 16) e (u.vs (fld e 4 4 % 2 ^ 24)) = false) :
    s.startVideo g x = State.syncVid { u.started' g x.idx with videos :=
      u.videos ++ [{ ring := g, idx := x.idx, gen := x.gen, sess := fld e 4 4 % 2 ^ 24, desc := e }] } (g / 16) := by
  simp only [State.startVideo, allowed, read, isOpen, stays, gen, own, formed, Bool.not_true, ne_eq, not_true, decide_false,
    Bool.or_false, Bool.false_eq_true, if_false]

end

/-- Settles O8: each record's turn, and the equation of its type in the state that the statement names. -/
theorem recordsStart : Obligations.RecordsStart := by
  intro p r x s g d
  have starts {ty : Nat} {f : State → Nat → Rec → State} {t : State} (turn : s.recTurn g ty x) (h : f s g x = t) :
      (.next (s.startRec p r ty f) : Res) = .next t := congrArg Host.Outcome.next ((State.startRec_of_turn turn f).trans h)
  refine ⟨fun turn few room u k v nodes job read => ?graph, fun turn allowed => ?copy, fun turn reported => ?signalLocal,
    fun turn acked fresh => ⟨?nameless, ?own, ?other⟩, fun u turn holds => ?holds, fun u turn no => ?waits, fun turn => starts turn rfl,
    fun turn allowed => ?stream, ?video, fun turn => starts turn rfl⟩
  case graph => exact starts turn (State.startGraph_of_read few room job read)
  case copy => exact starts turn (State.startCopy_of_allowed allowed)
  case signalLocal => exact starts turn (State.signalLocal_of_reported reported)
  case nameless => exact fun unset => starts turn (State.signalPeer_of_nameless acked fresh unset)
  case own => exact fun own => starts turn (State.signalPeer_of_own acked fresh own)
  case other => exact fun _ set other => starts turn (State.signalPeer_of_other acked fresh set other)
  case holds => exact starts turn (State.pollWait_of_holds holds)
  case waits => exact starts turn (State.pollWait_of_no no)
  case stream => exact starts turn (State.startStream_of_allowed allowed)
  case video =>
    intro u e turn allowed read v isOpen stays gen own formed
    exact starts turn (State.startVideo_of_open allowed read isOpen stays gen own formed)

/-! ## Tasks end and jobs switch (R361 to R364, R404 to R407, R411) -/

section
variable {s : State}

/-- The rings of a partition that have a task to dispatch. -/
def State.dispatchRings (s : State) (p : Nat) : List Nat :=
  ((List.range 16).map (16 * p + ·)).filter fun g => s.mayDispatch p g && !(s.goNodes p g).isEmpty

/-- Arbitration grants the dispatch to a partition, a ring and the first of its nodes (R364, R411). -/
theorem State.taskDispatch_of_granted {q p g n : Nat} {x : Graph} {l : List (Graph × Nat)}
    (part : leastRecent (fun p => (s.part p).dispStamp)
      ((List.range 64).filter fun p => s.formed p && s.homeQuad p = q && !(s.dispatchRings p).isEmpty) = some p)
    (ring : s.bestRing (·.dispStamp) (s.dispatchRings p) = some g) (first : s.goNodes p g = (x, n) :: l) :
    s.taskDispatch q = s.dispatchNode p g x n := by
  simp only [State.dispatchRings] at part ring
  simp only [State.taskDispatch, part, ring, first]

/-- A node whose slices are decided starts its next task on a free target, and counts it (R361, R364). -/
theorem State.dispatchNode_of_started {p g n : Nat} {x : Graph} {u v : State} {extra : List (Nat × Byte)} {tg : Target}
    (decided : s.decideSlices p (x.node n).slices [] = (u, .inl (some extra)))
    (free : (u.setGraph g x.idx fun y => y.setNode n fun k => { k with slices := [], patch := k.patch ++ extra }).target p (x.node n).data
      (x.node n).next = some tg)
    (starts : (u.setGraph g x.idx fun y => y.setNode n fun k => { k with slices := [], patch := k.patch ++ extra }).launch p g x n
      (x.node n).next (x.node n) tg ((x.node n).patch ++ extra) = (v, .done)) :
    s.dispatchNode p g x n = ((((v.tick.setGraph g x.idx fun y =>
      { y.setNode n fun k => { k with next := k.next + 1 } with running := y.running + 1 }).setRing g fun k =>
        { k with age := 0, dispStamp := v.stamp }).setPart p fun k => { k with dispStamp := v.stamp }).trace 2 p (g % 16) 0
          (toBytes 4 n ++ toBytes 4 (x.node n).next)) := by
  simp only [State.dispatchNode, decided, free, starts]

theorem State.taskComplete_of_matrix {c : Fin 512} {o : Nat} (active : (s.mtask c).active = true) (ended : (s.mtask c).outcome = some o) :
    s.taskComplete (.matrix c) = (s.setMtask c fun _ => {}).taskEnded (s.mtask c) o 0 := by
  simp only [State.taskComplete, active, ended]

theorem State.taskComplete_of_carding {t : ThreadId} {o : Nat} (active : (s.ctask t.num).active = true)
    (ended : (s.ctask t.num).outcome = some o) :
    s.taskComplete (.carding t) = (s.setCtask t.num fun _ => {}).taskEnded (s.ctask t.num) o 1 := by
  rw [ThreadId.num] at active ended
  simp only [State.taskComplete, active, ended, ThreadId.num]

section
variable {p : Nat}

section
variable {k : Nat} {free : Bool} (serving : s.serving p = true) (thawed : s.frozen p = false) (boundary : s.atBoundary p = some free)
  (next : s.switchTo p free = some k) (quiet : s.t0Chains p = false)
include serving thawed boundary next quiet

theorem State.servingSwitch_of_idle (idle : s.activeJob p = none) : s.servingSwitch p =
    { s.fset .ringActiveSwitching p 1 with switching := s.switching ++ [(p, k, s.time)] } := by
  simp [State.servingSwitch, serving, thawed, boundary, next, quiet, idle]

/-- The live state of the job that leaves is saved, with the barriers that hold it (R407). -/
theorem State.servingSwitch_of_active {c : Nat} (active : s.activeJob p = some c) :
    let held := (s.boundaries.filter fun (b : Nat × Nat) => b.1 = p).map Prod.snd
    let u : State := { s.setJob c (fun j => { j with saved := true, held := held }) with
      saves := SMap.set {} s.saves c (s.capture p (s.job c).liveAll (s.liveSize p c) []),
      boundaries := s.boundaries.filter fun (b : Nat × Nat) => b.1 ≠ p }
    s.servingSwitch p = { u.fset .ringActiveSwitching p 1 with switching := u.switching ++ [(p, k, u.time)] } := by
  simp [State.servingSwitch, serving, thawed, boundary, next, quiet, active]

end

/-- The end of a switch leaves SWITCHING 0 (R407). -/
theorem State.switchComplete_switching {x : Nat × Nat × Nat} (switches : s.switching.find? (fun y => y.1 = p) = some x) :
    (s.switchComplete p).fget .ringActiveSwitching p = 0 := by
  simp [State.switchComplete, switches]

end

end

/-- Settles O18: the grant and the start of a task, the end of one by its unit, and the switch by the job that leaves. -/
theorem tasksEndAndJobsSwitch : Obligations.TasksEndAndJobsSwitch := by
  intro s
  refine ⟨?dispatch, fun c o active ended => ?matrix,
    fun t o active ended => ?carding, fun p k free serving thawed boundary next quiet => ⟨fun idle => ?first, fun c active => ?switch⟩,
    fun p k begun switches => ⟨rfl, State.switchComplete_switching switches⟩⟩
  case dispatch =>
    intro q p g n x l u v extra tg rings nd part ring first decided w free starts
    exact congrArg Host.Outcome.next ((State.taskDispatch_of_granted part ring first).trans
      (State.dispatchNode_of_started decided free starts))
  case matrix => exact congrArg Host.Outcome.next (State.taskComplete_of_matrix active ended)
  case carding => exact congrArg Host.Outcome.next (State.taskComplete_of_carding active ended)
  case first => exact congrArg Host.Outcome.next (State.servingSwitch_of_idle serving thawed boundary next quiet idle)
  case switch => exact congrArg Host.Outcome.next (State.servingSwitch_of_active serving thawed boundary next quiet active)

end Sys2Proof.Machine

/-! ## Fabric timers and answers (R357, R370, R431 to R433, R439, R440, R445) -/

namespace Sys2Proof.Machine

/-! ### A request at its end-to-end timeout (R433) -/

section
variable {s : State} {dev tag : Nat} {r : FabReq}
  (waits : s.fabReqs.find? (fun r => r.dst = dev && r.tag = some tag && r.answer.isNone) = some r)
include waits

theorem State.e2eTimeout_of_limit (limit : s.fget .flkRoutingE2eRetry 0 ≤ r.resends) :
    s.e2eTimeout dev tag = (s.fadd .flkUnreach 0 1).answerReqs (fun y => y = r) 5 := by
  simp only [State.e2eTimeout, waits, ge_iff_le, limit, if_true]

section
variable (more : r.resends < s.fget .flkRoutingE2eRetry 0)
include more

/-- Under a STOP the request counts as sent again, and nothing is sent (R445). -/
theorem State.e2eTimeout_of_stopped (stopped : s.stoppedTo dev r.spart = true) : s.e2eTimeout dev tag =
    { s with fabReqs := s.fabReqs.map fun (y : FabReq) => if y = r then { r with resends := r.resends + 1 } else y } := by
  have open' : r.answer = none := by
    have hit := List.find?_some waits
    simp only [Bool.and_eq_true, Option.isNone_iff_eq_none] at hit
    exact hit.2
  simp [State.e2eTimeout, waits, Nat.not_le.mpr more, stopped, open']

theorem State.e2eTimeout_of_sent {u : State} {q : FabReq} (free : s.stoppedTo dev r.spart = false)
    (sent : s.transmit r tag = (u, q)) (open' : q.answer = none) : s.e2eTimeout dev tag =
      { u with fabReqs := u.fabReqs.map fun (y : FabReq) => if y = r then { q with resends := r.resends + 1 } else y } := by
  simp [State.e2eTimeout, waits, Nat.not_le.mpr more, free, sent, open']

end

end

/-! ### Gathered answers, SIGNAL_PEER and collectives -/

theorem State.sendResp_of_none {s : State} {dev : Nat} (none : (s.rxSrc dev).answers = []) : s.sendResp dev = s := by
  simp only [State.sendResp, none]

/-- At most 32 of the answers that wait for a source go out in one RESP (R431). -/
theorem State.sendResp_of_some {s : State} {dev : Nat} {e : Nat × Nat × Nat} {l : List (Nat × Nat × Nat)}
    (gathered : (s.rxSrc dev).answers = e :: l) : s.sendResp dev =
      ((s.setRxSrc dev fun q => { q with answers := l.drop 31 }).originate 5 dev 0 0 (s.fget .flkIdTgen 0) 0 0
        ((e :: l).take 32).length 0 (respBytes ((e :: l).take 32))).1 := by
  simp only [State.sendResp, gathered]
  rfl

/-- An answer ends its record, unless the ring has been reset since (R357, R370). -/
theorem execSignalPeerAnswer_of_answered {s : State} {p : Fin 64} {r : Fin 16} {x : FabReq} {idx gen a : Nat}
    (found : s.fabReqs.find? (fun x => x.answer.isSome && x.owner.signals (16 * p.val + r.val)) = some x)
    (owner : x.owner = .signal (16 * p.val + r.val) idx gen) (answer : x.answer = some a) :
    let t : State := { s with fabReqs := s.fabReqs.erase x }
    execSignalPeerAnswer p r s = .next (if s.fget .ringStateGen (16 * p.val + r.val) = gen
      then t.endRec (16 * p.val + r.val) idx (peerStatus a) 0 0 0
      else (t.fadd .ringStale (16 * p.val + r.val) 1).fadd .ringPstale p 1) := by
  simp only [execSignalPeerAnswer, found, owner, answer, Option.getD_some, ring_part, ne_eq, ite_not]

theorem State.collWrite_of_room {s : State} {p va : Nat} (aligned : va % 64 = 0) (small : va < 2 ^ 48)
    (room : (s.colls.filter fun c => c.part = p).length < 16) (new : (s.colls.any fun c => c.part = p && c.dva = va) = false) :
    s.collWrite p va = (State.syncColl { s with colls := s.colls ++ [{ part := p, dva := va }] } p).collStart p va := by
  simp only [State.collWrite, State.collFull, aligned, new, Nat.not_le.mpr small, Nat.not_le.mpr room, ne_eq, not_true,
    decide_false, Bool.or_false, Bool.false_eq_true, if_false]

/-- Settles O42: each timer and each answer by the state in which the statement puts its request, its gathering or its collective. -/
theorem fabricTimersAndAnswers : Obligations.FabricTimersAndAnswers := by
  intro s
  refine ⟨?retry, fun dev none => ?nothing, fun dev e l gathered => ?gathered, fun dev => rfl, ?answered, ?start,
    fun p c running => ?timeout⟩
  case retry =>
    intro dev tag r hit waits
    exact ⟨fun limit => congrArg Host.Outcome.next (State.e2eTimeout_of_limit waits limit), fun more =>
      ⟨fun stopped => congrArg Host.Outcome.next (State.e2eTimeout_of_stopped waits more stopped), fun u q free sent open' =>
        congrArg Host.Outcome.next (State.e2eTimeout_of_sent waits more free sent open')⟩⟩
  case nothing => exact congrArg Host.Outcome.next (State.sendResp_of_none none)
  case gathered => exact congrArg Host.Outcome.next (State.sendResp_of_some gathered)
  case answered =>
    intro p r x idx gen a g found owner answer t
    have ends : exec (.signalPeerAnswer p r) s = _ := execSignalPeerAnswer_of_answered found owner answer
    exact ⟨fun same => ends.trans (by rw [if_pos same]), fun other => ends.trans (by rw [if_neg other])⟩
  case start =>
    rintro _ va p ⟨t, v, rfl⟩ hit aligned small room new
    exact congrArg Host.Outcome.next (by simpa only [hit] using State.collWrite_of_room aligned small room new)
  case timeout => exact congrArg Host.Outcome.next (by simp only [running])

/-! ## Frames, requests and ports (R416 to R432, R440, R445, R448 to R451, R560) -/

/-- A request frame reaches this module under its TAG, and is refused below P1 (R432, R489). -/
theorem State.rxRequest_of_in {s : State} {p ty : Nat} {f : Frame} (arrives : s.frameIn p ty (framed f))
    (k : State → FabFrame → State × Option Nat) :
    s.rxRequest p ty f k = ((s.gotFrame p (framed f)).routed p (framed f) fun v =>
      v.taggedReq (hdrSrc f.header) (byteAt f.header 11) (bigFld f.header 12 2) fun w =>
        if w.fget .pwrState 0 ≥ 2 then (w.fadd .flkQRefused (byteAt f.header 8) 1, some 2) else k w (framed f)).afterFrame p (framed f) :=
  State.rxFrame_of_in arrives _

/-- Settles O39: a frame in order has its TYPE's effect, between what every frame does before and after. -/
theorem framesTakeEffect : Obligations.FramesTakeEffect := by
  intro p f s x h g asked
  have takes {ty : Nat} (arrives : s.frameIn p ty x) (k : State → FabFrame → State) :
      (.next (s.rxFrame p ty f k) : Res) = .next ((k g x).afterFrame p x) := congrArg Host.Outcome.next (State.rxFrame_of_in arrives k)
  have requests {ty : Nat} (arrives : s.frameIn p ty x) (k : State → FabFrame → State × Option Nat) :
      (.next (s.rxRequest p ty f k) : Res) = .next (asked fun u => k u x) := congrArg Host.Outcome.next (State.rxRequest_of_in arrives k)
  refine ⟨fun link => takes link _, fun hello => takes hello _, fun auth => takes auth _, fun fin => takes fin _, fun rekey => takes rekey _,
    fun write room => ?write, fun signal => requests signal _, fun mirror => requests mirror _, fun coll => ?coll, fun resp => takes resp _,
    fun stop => takes stop _⟩
  case write => exact (congrArg Host.Outcome.next (if_neg (Nat.not_le.mpr room))).trans (requests write _)
  case coll => exact congrArg (fun t : State => (.next t.collDrive : Res)) (State.rxRequest_of_in coll _)

/-! ### Requests under their TAGs (R432) -/

section
variable {s : State} {dev tgen tag : Nat} (known : (s.rxSrc dev).known = true)
include known

theorem State.taggedReq_of_old (k : State → State × Option Nat) (old : 128 ≤ (tgen + 256 - (s.rxSrc dev).tgen) % 256) :
    s.taggedReq dev tgen tag k = s.fadd .flkStale 0 1 := by
  simp [State.taggedReq, known, old]

section
variable (now : (tgen + 256 - (s.rxSrc dev).tgen) % 256 = 0)
include now

theorem State.taggedReq_of_beyond (k : State → State × Option Nat) (beyond : 1024 ≤ (tag + 65536 - (s.rxSrc dev).base) % 65536) :
    s.taggedReq dev tgen tag k = s.fadd .flkStale 0 1 := by
  simp [State.taggedReq, known, now, beyond]

section
variable (inside : (tag + 65536 - (s.rxSrc dev).base) % 65536 < 1024)
include inside

theorem State.taggedReq_of_done {st : Nat} (k : State → State × Option Nat)
    (done : (s.rxSrc dev).done.find? (fun e => e.1 = tag) = some (tag, st)) :
    s.taggedReq dev tgen tag k = (s.fadd .flkDup 0 1).answerPeer dev tag tgen st := by
  simp [State.taggedReq, known, now, Nat.not_le.mpr inside, done]

theorem State.taggedReq_of_new {st : Nat} {u : State} {k : State → State × Option Nat}
    (new : (s.rxSrc dev).done.find? (fun e => e.1 = tag) = none)
    (settled : (s.fabPend.any fun x => x.src = dev && x.tag = tag && x.tgen = tgen) = false) (applied : k s = (u, some st)) :
    s.taggedReq dev tgen tag k = u.recordTag dev tag tgen st := by
  simp only [State.taggedReq, known, now, new, settled, applied, Nat.not_le.mpr inside, ge_iff_le, nonpos_iff_eq_zero, OfNat.ofNat_ne_zero,
    ne_eq, not_true, Bool.not_true, decide_false, Bool.and_false, Bool.or_false, Bool.false_eq_true, if_false]

end

end

end

/-- Settles O40: a request by its TGEN, its distance from the window's base, and what is recorded of its TAG. -/
theorem requestsTakeEffectOnce : Obligations.RequestsTakeEffectOnce := by
  intro s dev tgen tag st k q age off known
  exact ⟨State.taggedReq_of_old known k, fun now => State.taggedReq_of_beyond known now k,
    fun now inside => State.taggedReq_of_done known now inside k,
    fun u now inside new settled applied => State.taggedReq_of_new known now inside new settled applied⟩

/-! ### Ports and their links -/

section
variable {s : State} {p : Fin 8}

theorem execPortTrainingDone_of_training (trains : s.fget .flkPortState p = 2) (locked : Bool) :
    execPortTrainingDone p locked s =
      .next (if locked then (s.fset .flkPortState p 3).startHandshake p false else s.portFail p 3) := by
  simp [execPortTrainingDone, trains]

theorem execPortSignalLoss_of_bringUp (rises : s.fget .flkPortState p = 2 ∨ s.fget .flkPortState p = 3) :
    execPortSignalLoss p s = .next (s.portFail p 2) := by
  rcases rises with st | st <;> simp [execPortSignalLoss, st]

theorem execPortSignalLoss_of_up (up : s.fget .flkPortState p = 4 ∨ s.fget .flkPortState p = 5) :
    execPortSignalLoss p s = .next (s.portDown p 2) := by
  rcases up with st | st <;> simp [execPortSignalLoss, st]

theorem execCablePresentChange_of_off (off : s.fget .flkPortState p = 0) (b : Bool) :
    execCablePresentChange p b s = .next (s.setPort p fun q => { q with present := b }) := by
  simp [execCablePresentChange, off]

theorem execCablePresentChange_of_down (down : s.fget .flkPortState p = 1) (b : Bool) :
    execCablePresentChange p b s = .next (if b then (s.setPort p fun q => { q with present := true }).portTrain p
      else (s.setPort p fun q => { q with present := false }).fset .flkPortCause p 2) := by
  cases b <;> simp [execCablePresentChange, down]

theorem execCablePresentChange_of_pulled (runs : 2 ≤ s.fget .flkPortState p) :
    execCablePresentChange p false s = .next ((s.setPort p fun q => { q with present := false }).portDown p 2) := by
  have on : s.fget .flkPortState p ≠ 0 := by omega
  simp [execCablePresentChange, on, runs]

theorem execRekeyInterval_of_encrypted (up : s.fget .flkPortState p = 4) (enc : s.fget .flkPortEnc p = 1) (agreed : (s.port p).hs = 4)
    (idle : (s.port p).rekeying = false) : execRekeyInterval p s =
      .next ((s.draw.setPort p fun q => { q with rekeying := true }).sendHop p 0x14 0 0 (pad64 (Config.rekeyBody s.fresh))) := by
  simp [execRekeyInterval, up, enc, agreed, idle]

/-! #### Timers -/

theorem execLinkAckTimeout_of_vain {k : KeptFrame} {l : List KeptFrame} (kept : (s.port p).kept = k :: l)
    (carries : 3 ≤ s.fget .flkPortState p) (vain : 8 ≤ k.replays) : execLinkAckTimeout p s = .next (s.portDown p 4) := by
  simp [execLinkAckTimeout, kept, Nat.not_lt.mpr carries, vain]

/-- The frame that is kept is sent again and counted (R428). -/
theorem execLinkAckTimeout_of_one {k : KeptFrame} (kept : (s.port p).kept = [k]) (carries : 3 ≤ s.fget .flkPortState p)
    (more : k.replays < 8) : execLinkAckTimeout p s = .next (((s.setPort p fun q =>
      { q with kept := [{ k with replays := k.replays + 1 }],
               replayTimes := s.time :: q.replayTimes.filter fun t => s.time < t + tickSec }).fadd .flkPRetries p 1).wireSend p k.f k.seq) := by
  simp [execLinkAckTimeout, kept, Nat.not_lt.mpr carries, Nat.not_le.mpr more]

theorem execCreditTimeout_of_starved {vc : Fin 4} (starved : s.starved p vc = true) (first : (s.port p).late.testBit vc = false) :
    execCreditTimeout p vc s =
      .next ((s.setPort p fun q => { q with late := q.late ||| 2 ^ vc.val }).fadd .flkPErrCredto p 1) := by
  simp [execCreditTimeout, starved, first]

end

/-- Settles O41: each event of a port by its state, and each timer by what it finds waiting. -/
theorem portsFollowTheirLinks : Obligations.PortsFollowTheirLinks := by
  intro p s st
  refine ⟨fun trains => ⟨?locked, ?unlocked⟩, execPortSignalLoss_of_bringUp, execPortSignalLoss_of_up, execCablePresentChange_of_off,
    fun down => ⟨?plugged, ?unplugged⟩, execCablePresentChange_of_pulled, fun carries => ⟨?fec, ?auth⟩, execRekeyInterval_of_encrypted,
    fun runs => ?handshake, fun k l => execLinkAckTimeout_of_vain, fun k => execLinkAckTimeout_of_one,
    fun vc => execCreditTimeout_of_starved, fun dead => ?credit⟩
  case locked => exact execPortTrainingDone_of_training trains true
  case unlocked => exact execPortTrainingDone_of_training trains false
  case plugged => exact execCablePresentChange_of_down down true
  case unplugged => exact execCablePresentChange_of_down down false
  case fec => exact congrArg Host.Outcome.next (if_neg (Nat.not_lt.mpr carries))
  case auth => exact congrArg Host.Outcome.next (if_neg (Nat.not_lt.mpr carries))
  case handshake => exact congrArg Host.Outcome.next (if_pos runs)
  case credit => exact congrArg Host.Outcome.next (if_pos dead)

end Sys2Proof.Machine

/-! ## Mailboxes and their commands (R238, R374 to R378, R384 to R392, R456, R466) -/

namespace Sys2Proof.Machine

/-! ### Doorbells, responses and the mill -/

section
variable {s : State}

theorem State.mbxDoorbell_of_room {m : Nat} (slot : Nat) (own : m < 65) (room : s.fget .mbxStatusInflight m < 16) :
    s.mbxDoorbell m slot = s.acceptRequest m slot (cellsGet s.slots (0x4000 * m + 0x1000 + 0x100 * slot) 256) := by
  simp only [State.mbxDoorbell, ge_iff_le, Nat.not_le.mpr own, Nat.not_le.mpr room, if_false]

theorem State.mbxDoorbell_of_full {m : Nat} (slot : Nat) (own : m < 65) (full : 16 ≤ s.fget .mbxStatusInflight m) :
    s.mbxDoorbell m slot = s.fadd .mbxDbign m 1 := by
  simp only [State.mbxDoorbell, ge_iff_le, Nat.not_le.mpr own, full, if_false, if_true]

/-- The response that order allows is written once there is room, and what it held back follows (R375, R377). -/
theorem State.flushMbx_of_room {m fuel : Nat} {r : MbxReq} (next : writable (s.mbx m).reqs = some r) (room : s.rspRoom m = true) :
    s.flushMbx m (fuel + 1) = (s.writeResponse m r).flushMbx m fuel := by
  simp [State.flushMbx, next, room]

theorem State.millFault_of_up {core : Nat} (up : s.millUp = true) :
    s.millFault core = (((List.range 65).foldl (fun t m => t.fset .mbxStatusRestarting m 1) s).logFault
      { cls := 7, action := 8, unit := unitWord 9 core }).hardFault none (unitWord 9 core) 7 := by
  simp [State.millFault, up]

/-- A restart serves again, or leaves a cold start where the firmware does not measure as before (R466, R519). -/
theorem execMillRestartDone_of_restarting (restarting : s.fget .mbxStatusRestarting 64 ≠ 0)
    (ready : bitAt (s.fget .glbReadyStatus 0) 1 = true) (same : Bool) :
    execMillRestartDone same s = .next (if same then (if s.pwrSeq.isSome then s.abandonBist.rollBack else s.abandonBist).millBack
      else { s.fset .glbReadyStatus 0 0 with started := false }) := by
  cases same <;> simp [execMillRestartDone, restarting, ready]

end

/-- Settles O31: a doorbell by the requests in flight, and each event of the mill by the state that lets it take place. -/
theorem mailboxesTakeAndReset : Obligations.MailboxesTakeAndReset := by
  intro mb s
  refine ⟨fun own => ⟨fun slot room => ?room, fun slot full => ?full, ?reset⟩, fun r next room => ?deferred, fun core up => ?fault,
    fun restarting ready => ⟨fun idle => ?back, ?cold⟩, fun counts => rfl⟩
  case room => exact congrArg Host.Outcome.next (State.mbxDoorbell_of_room slot own room)
  case full => exact congrArg Host.Outcome.next (State.mbxDoorbell_of_full slot own full)
  case reset => exact congrArg Host.Outcome.next (if_pos own)
  case deferred => exact congrArg Host.Outcome.next (State.flushMbx_of_room next room)
  case fault => exact congrArg Host.Outcome.next (State.millFault_of_up up)
  case back =>
    refine (execMillRestartDone_of_restarting restarting ready true).trans ?_
    rw [idle]
    rfl
  case cold => exact execMillRestartDone_of_restarting restarting ready false

/-- Settles O32: each command is `State.runCommand` with its own opcode and function. -/
theorem commandsAreAnswered : Obligations.CommandsAreAnswered := by
  intro m r s
  refine ⟨?_, fun turn => congrArg (fun t : State => (.next t.endUnplaced : Res)) (State.runCommand_of_turn turn _)⟩
  simp only [List.forall_mem_cons, List.not_mem_nil, false_implies, implies_true, and_true]
  and_intros <;> exact fun turn => congrArg Host.Outcome.next (State.runCommand_of_turn turn _)

/-! ### Queries (R384 to R388, R390, R392) -/

section
variable {s : State} {m : Nat} {r : MbxReq}

theorem cmdObjQuery_of_named {i : Nat} (named : s.lookup m (fld r.data 16 4) = .inl i) :
    let p := byteAt r.data 5
    let o := s.obj i
    let mask (f : Copy → Bool) : Nat := [1, 2, 3].foldl (fun a t => if o.copies.any fun c => c.tier = t && f c then a + 2 ^ t else a) 0
    cmdObjQuery s m r = (s, .now 0 (toBytes 1 o.kind ++ toBytes 1 o.format ++ toBytes 1 (mask fun _ => true) ++
      toBytes 1 (mask fun c => c.refs.any fun f => f.part = p && f.pinned) ++ toBytes 4 0 ++ toBytes 8 o.bytes ++
      toBytes 6 (((o.copies.find? fun c => c.tier = 3).map (·.base)).getD 0) ++ toBytes 2 0 ++ toBytes 4 o.version ++
      toBytes 4 (o.copies.filter fun c => c.refs.any fun f => f.part = p).length)) := by
  simp only [cmdObjQuery, named]

theorem cmdVsessQuery_of_named {i : Nat} (named : s.sessLookup (byteAt r.data 5) (fld r.data 16 4) = .inl i) :
    cmdVsessQuery s m r = (s, .now 0 ((s.vs i).block ++ toBytes 8 (s.vs i).frames ++
      toBytes 4 (s.videos.filter fun j => j.sess = i && j.next = 0).length)) := by
  simp only [cmdVsessQuery, named]

theorem cmdBistQuery_of_idle (idle : s.bist = none) : cmdBistQuery s m r = (s, .now 0 (toBytes 16 0)) := by
  simp only [cmdBistQuery, idle]

theorem cmdBistQuery_of_running {b : BistRun} (runs : s.bist = some b) :
    cmdBistQuery s m r = (s, .now 0 (toBytes 1 1 ++ toBytes 1 b.scope ++ toBytes 6 0 ++ toBytes 8 b.mask)) := by
  simp only [cmdBistQuery, runs]

theorem cmdCkptQuery_of_newest {i : Nat} (newest : s.newestImage (byteAt r.data 5) = some i) :
    cmdCkptQuery s m r = (s, .now 0 (toBytes 8 (s.image i).num ++ toBytes 8 (s.image i).step ++
      [if decide ((s.image i).mstate = 2) then 1 else 0])) := by
  simp only [cmdCkptQuery, newest, decide_eq_true_eq]

/-- The figures that MEASURE answers, before the report of `n` bytes (R522). -/
def State.measureFigures (s : State) (n : Nat) : List Byte :=
  toBytes 1 (s.fget .secLc 0) ++ toBytes 1 (s.fget .secDbgReq 0) ++ toBytes 1 (s.fget .secDbgApplied 0) ++ [0] ++ toBytes 4 n ++
    (List.range 4).flatMap measurement

theorem cmdMeasure_of_bare (bare : fld r.data 48 6 = 0) : cmdMeasure s m r = (s, .now 0 (s.measureFigures 0)) := if_pos bare

section
variable {u : State} (report : fld r.data 48 6 ≠ 0) (probed : s.cmdProbe m (byteAt r.data 5) (fld r.data 48 6) 512 = (u, none))
include report probed

/-- A report is signed by the alias key, or ends in zeros in a module without a lifecycle (R521, R522). -/
theorem cmdMeasure_of_unsigned (blank : u.fget .secLc 0 = 0) :
    cmdMeasure s m r = (u.vstoreGo (byteAt r.data 5) (fld r.data 48 6)
      (u.reportBody ((r.data.drop 16).take 32) (byteAt r.data 5) ++ List.replicate 96 0) 3, .now 0 (s.measureFigures 512)) := by
  simp only [cmdMeasure, report, probed, blank, if_false, if_true, State.measureFigures]

theorem cmdMeasure_of_signed (lifecycle : u.fget .secLc 0 ≠ 0) :
    let body := u.reportBody ((r.data.drop 16).take 32) (byteAt r.data 5)
    cmdMeasure s m r = ((u.aliasSign body).1.vstoreGo (byteAt r.data 5) (fld r.data 48 6) (body ++ (u.aliasSign body).2) 3,
      .now 0 (s.measureFigures 512)) := by
  simp only [cmdMeasure, report, probed, lifecycle, if_false, State.measureFigures]

end

/-- A certificate of the lifecycle is written where its range can be written (R521). -/
theorem cmdCertGet_of_issued (lifecycle : s.fget .secLc 0 ≠ 0) (listed : byteAt r.data 16 ≤ 3) :
    let cert := Config.certificate (byteAt r.data 16) (s.fget .secLc 0)
    let probe := s.cmdProbe m (byteAt r.data 5) (fld r.data 24 6) cert.length
    cmdCertGet s m r = probe.2.elim
      (probe.1.vstoreGo (byteAt r.data 5) (fld r.data 24 6) cert (cert.length / 4096 + 2), .now 0 (toBytes 4 cert.length ++ [4]))
      fun a => (probe.1, a) := by
  intro cert probe
  have issued : ¬ (decide (s.fget .secLc 0 = 0) || decide (byteAt r.data 16 > 3)) = true := by simp [lifecycle, listed]
  have cases : cmdCertGet s m r = _ := if_neg issued
  rw [cases]
  rcases h : probe with ⟨u, _ | a⟩ <;> simp only [probe, cert] at h <;> simp only [h] <;> rfl

/-- FAULT_READ and LOST_READ write the entries asked for once their range can be written (R290, R456). -/
theorem State.readEntries_of_writable {u : State} {log : List (List Byte)} (count : Nat) :
    let es := (log.reverse.filter fun e => fld r.data 16 8 ≤ fld e 0 8).take (fld r.data 30 2)
    let next := (es.getLast?.map fun e => fld e 0 8 + 1).getD (max (fld r.data 16 8) count)
    s.cmdProbe m (byteAt r.data 5) (fld r.data 24 6) es.flatten.length = (u, none) →
    s.readEntries m r log count = (u.vstoreGo (byteAt r.data 5) (fld r.data 24 6) es.flatten (es.flatten.length / 4096 + 2),
      .now 0 (toBytes 8 next ++ toBytes 2 es.length)) := by
  intro es next probed
  simp only [es] at probed
  cases last : es.getLast? <;> simp only [es] at last <;> simp only [State.readEntries, probed, last, es, next] <;> rfl

theorem cmdLogRead_of_writable {u : State} (host : m ≠ 65) :
    let lo := max (fld r.data 16 8) s.logLow
    let es := ((s.changeLog.reverse.drop (lo - s.logLow)).take (fld r.data 30 2)).map (redact m)
    s.cmdProbe m (byteAt r.data 5) (fld r.data 24 6) es.flatten.length = (u, none) →
    cmdLogRead s m r = (u.vstoreGo (byteAt r.data 5) (fld r.data 24 6) es.flatten (es.flatten.length / 4096 + 2),
      .now 0 (toBytes 8 (lo + es.length) ++ padTo 8 (toBytes 2 es.length) ++ toBytes 8 s.logLow)) := by
  intro lo es probed
  simp only [es, lo] at probed
  simp only [cmdLogRead, logFrom, host, probed, if_false, es, lo]

end

section
variable {s : State} (r : MbxReq)

theorem cmdLogRead_of_beyond (beyond : s.changeLog.reverse.drop (max (fld r.data 16 8) s.logLow - s.logLow) = []) :
    cmdLogRead s 65 r = (s, .now 0 (toBytes 8 (max (fld r.data 16 8) s.logLow) ++ toBytes 2 0)) := by
  simp [cmdLogRead, logFrom, beyond]

/-- The sideband takes one entry with each LOG_READ (R392). -/
theorem cmdLogRead_of_entry {e : List Byte} {l : List (List Byte)}
    (entry : s.changeLog.reverse.drop (max (fld r.data 16 8) s.logLow - s.logLow) = e :: l) :
    cmdLogRead s 65 r =
      (s, .now 0 (toBytes 8 (max (fld r.data 16 8) s.logLow + 1) ++ padTo 8 (toBytes 2 1) ++ e)) := by
  simp [cmdLogRead, logFrom, entry]

end

theorem mbxNum_ne_sideband {m : Mbx} (host : m ≠ .sideband) : mbxNum m ≠ 65 := by
  cases m with
  | part p =>
    intro h
    have := p.isLt
    simp only [mbxNum] at h
    omega
  | pf0 => decide
  | sideband => exact absurd rfl host

/-- Settles O33: each query whose turn has come is answered with what its function gives once what it names is found or its range can be
written. -/
theorem queriesAnswer : Obligations.QueriesAnswer := by
  intro m r s n d p q say bit figures
  have answers {op : Nat} {t : State} {pl : List Byte} {f : State → Nat → MbxReq → State × Ans} (turn : s.cmdTurn m op r)
      (h : f s n r = (t, .now 0 pl)) : Host.Outcome.next (s.runCommand m op f) = say t pl :=
    congrArg Host.Outcome.next (State.runCommand_of_answer turn h)
  refine ⟨fun turn => answers turn rfl, fun turn => answers turn rfl, fun turn => answers turn rfl, fun i turn named => ?object,
    fun turn => answers turn rfl, fun turn bare => ?bare, ?report, ?cert, fun turn => answers turn rfl, fun i turn named => ?session,
    fun turn => ⟨fun idle => ?idle, fun b runs => ?test⟩, fun i turn newest => ?checkpoint, fun turn => answers turn rfl, ?faults, ?lost,
    ?log, ?sideband⟩
  case object => exact answers turn (cmdObjQuery_of_named named)
  case bare => exact answers turn (cmdMeasure_of_bare bare)
  case report =>
    intro u turn report probed body
    exact ⟨fun blank => answers turn (cmdMeasure_of_unsigned report probed blank),
      fun lifecycle => answers turn (cmdMeasure_of_signed report probed lifecycle)⟩
  case cert =>
    intro turn lifecycle listed cert
    have issued := cmdCertGet_of_issued (m := n) lifecycle listed
    have applied : exec (.certGet m) s = _ := congrArg Host.Outcome.next (State.runCommand_of_turn turn _)
    rw [applied, State.commanded, issued]
    rcases s.cmdProbe n (byteAt r.data 5) (fld r.data 24 6) cert.length with ⟨u, _ | a⟩ <;> rfl
  case session => exact answers turn (cmdVsessQuery_of_named named)
  case idle => exact answers turn (cmdBistQuery_of_idle idle)
  case test => exact answers turn (cmdBistQuery_of_running runs)
  case checkpoint => exact answers turn (cmdCkptQuery_of_newest newest)
  case faults => exact fun u turn probed => answers turn (State.readEntries_of_writable s.faultNext probed)
  case lost => exact fun u turn probed => answers turn (State.readEntries_of_writable s.lostNext probed)
  case log => exact fun u turn host probed => answers turn (cmdLogRead_of_writable (mbxNum_ne_sideband host) probed)
  case sideband =>
    rintro turn rfl
    exact ⟨fun beyond => answers turn (cmdLogRead_of_beyond r beyond), fun e l entry => answers turn (cmdLogRead_of_entry r entry)⟩

end Sys2Proof.Machine

/-! ## The change log is chained (R390) -/

namespace Sys2Proof.Machine

/-! ### Lengths and fields of bytes -/

@[simp] theorem toBytes_length (n v : Nat) : (toBytes n v).length = n := by
  induction n generalizing v with
  | zero => rfl
  | succ n ih => rw [toBytes, List.length_cons, ih]

@[simp] theorem padTo_length (n : Nat) (l : List Byte) : (padTo n l).length = max n l.length := by
  rw [padTo, List.length_append, List.length_replicate]
  omega

theorem ofBytes_toBytes (n v : Nat) : ofBytes (toBytes n v) = v % 256 ^ n := by
  induction n generalizing v with
  | zero => simp [toBytes, ofBytes, Nat.mod_one]
  | succ n ih =>
    rw [toBytes, ofBytes, ih, BitVec.toNat_ofNat, Nat.pow_succ' (m := 256), Nat.mod_mul]

/-! ### SHA-384 gives 48 bytes -/

@[simp] theorem shaBlock_length (h : List Nat) (block : List Byte) : (shaBlock h block).length = min h.length 8 := by
  simp [shaBlock]

theorem shaBlocks_length {n : Nat} {h : List Nat} {bs : List Byte} (words : h.length = 8) : (shaBlocks n h bs).length = 8 := by
  induction n generalizing h bs with
  | zero => exact words
  | succ n ih =>
    rw [shaBlocks]
    split
    · exact words
    · exact ih (by rw [shaBlock_length, words]; rfl)

@[simp] theorem sha384_length (m : List Byte) : (sha384 m).length = 48 := by
  have words : (shaBlocks (m.length / 128 + 2) shaH (shaPad m)).length = 8 := shaBlocks_length (by decide)
  simp [sha384, List.length_flatten, toBytesBE, words, Function.comp_def]

/-! ### An entry of the log -/

@[simp] theorem State.conditioned_length (s : State) {n : Nat} (few : n ≤ 32) : (s.conditioned n).2.length = n := by
  simp only [State.conditioned, List.length_append, List.length_take, toBytes_length]
  omega

/-- The first 80 bytes of an entry: what has changed, and a salt (R390). -/
def State.entryBody (s : State) (src part cls op seq gen : Nat) (old new : List Byte) : List Byte :=
  toBytes 8 s.changeNext ++ toBytes 8 s.time ++ toBytes 1 src ++ toBytes 1 part ++ toBytes 2 cls ++
    toBytes 2 op ++ toBytes 2 seq ++ toBytes 1 gen ++ List.replicate 7 0 ++ padTo 16 (old.take 16) ++
    padTo 16 (new.take 16) ++ (s.conditioned 16).2

section
variable (s : State) (src part cls op seq gen : Nat) (old new : List Byte)

theorem State.entryBody_length : (s.entryBody src part cls op seq gen old new).length = 80 := by
  simp [State.entryBody]

theorem State.entryBody_index : fld (s.entryBody src part cls op seq gen old new) 0 8 = s.changeNext % 2 ^ 64 := by
  have first : (s.entryBody src part cls op seq gen old new).take 8 = toBytes 8 s.changeNext := by
    simp only [State.entryBody, List.append_assoc]
    exact List.take_left' (toBytes_length 8 _)
  rw [fld, List.drop_zero, first, ofBytes_toBytes]
  rfl

end

/-- An entry with its digest and its CHAIN. -/
def chainedEntry (chain body : List Byte) : List Byte := padTo 192 (body ++ sha384 body ++ sha384 (chain ++ sha384 body))

section
variable {chain body : List Byte} (whole : body.length = 80)
include whole

theorem chainedEntry_length : (chainedEntry chain body).length = 192 := by
  simp [chainedEntry, whole]

theorem chainedEntry_body : (chainedEntry chain body).take 80 = body := by
  simp only [chainedEntry, padTo, List.append_assoc]
  exact List.take_left' whole

theorem chainedEntry_digest : ((chainedEntry chain body).drop 80).take 48 = sha384 body := by
  simp only [chainedEntry, padTo, List.append_assoc]
  rw [List.drop_left' whole]
  exact List.take_left' (sha384_length _)

theorem chainedEntry_chain : ((chainedEntry chain body).drop 128).take 48 = sha384 (chain ++ sha384 body) := by
  simp only [chainedEntry, padTo]
  rw [List.append_assoc, List.drop_left' (by simp [whole])]
  exact List.take_left' (sha384_length _)

end

/-- A new entry goes before the newest 65,535 (R390). -/
theorem State.logChange_changeLog (s : State) (src part cls op seq gen : Nat) (old new : List Byte) :
    (s.logChange src part cls op seq gen old new).changeLog =
      chainedEntry s.chain (s.entryBody src part cls op seq gen old new) :: s.changeLog.take 65535 := rfl

/-- Settles O38: the entry's body, digest and CHAIN stand one behind the other, each of its length. -/
theorem changeLogIsChained : Obligations.ChangeLogIsChained := by
  intro s src part cls op seq gen old new t
  have whole := s.entryBody_length src part cls op seq gen old new
  refine ⟨_, _, s.logChange_changeLog src part cls op seq gen old new, rfl, chainedEntry_length whole, ?index, ?digest, ?chain, rfl⟩
  case index =>
    rw [← s.entryBody_index src part cls op seq gen old new, fld, fld, List.drop_zero, List.drop_zero,
      ← congrArg (List.take 8) (chainedEntry_body (chain := s.chain) whole), List.take_take]
    rfl
  case digest => rw [chainedEntry_digest whole, chainedEntry_body whole]
  case chain =>
    rw [chainedEntry_digest whole, ← chainedEntry_chain whole]
    rfl

/-! ## Commands marked L end (R377, R480, R493) -/

section
variable {mb : Mbx} {seq : Nat} {r : MbxReq} {s : State} (serves : s.millServes (mbxNum mb) = true)
  (runs : s.runningL (mbxNum mb) seq = some r)
include serves runs

theorem State.commandComplete_of_wake (op : fld r.data 0 2 = 0x401) : s.commandComplete mb seq = s.wakeFinish (mbxNum mb) r := by
  simp [State.commandComplete, serves, runs, op]

section
variable (idle : s.recoveries.any (fun (x : Recovery) => x.request = some (mbxNum mb, r.stamp)) = false) (op : fld r.data 0 2 = 0x904)
include idle op

theorem State.commandComplete_of_region {x : Nat} (held : s.regionImage (byteAt r.data 5) (fld r.data 16 8) = some x) :
    s.commandComplete mb seq = s.takeover (mbxNum mb) r x := by
  simp [State.commandComplete, serves, runs, op, idle, held]

theorem State.commandComplete_of_no_region (none : s.regionImage (byteAt r.data 5) (fld r.data 16 8) = none) :
    s.commandComplete mb seq = s.endL (mbxNum mb) r 5 [] false := by
  simp [State.commandComplete, serves, runs, op, idle, none]

end

section
variable (issued : s.tierDone (mbxNum mb) r.stamp = true)
include issued

theorem State.commandComplete_of_promote (op : fld r.data 0 2 = 0x303) :
    s.commandComplete mb seq = s.finishL (mbxNum mb) r cmdObjPromote (fun t _ => t) false := by
  rw [State.runningL] at runs
  simp [State.commandComplete, State.runningL, State.lComplete, serves, runs, op, issued]

theorem State.commandComplete_of_stage (op : fld r.data 0 2 = 0x306) : s.commandComplete mb seq = s.finishStage (mbxNum mb) r := by
  rw [State.runningL] at runs
  simp [State.commandComplete, State.runningL, State.lComplete, serves, runs, op, issued]

/-- LOAD_MODEL takes its whole effect at its end, and its entry names what it has placed (R377). -/
theorem State.commandComplete_of_load {u : State} {pl : List Byte} (op : fld r.data 0 2 = 0x30A)
    (loads : cmdLoadModel s (mbxNum mb) r = (u, .running pl)) : s.commandComplete mb seq =
      (u.logCmd (mbxNum mb) r 0xE [] ((r.data.drop 16).take 8 ++ (pl.drop 8).take 8)).endL (mbxNum mb) r 0 pl true := by
  rw [State.runningL] at runs
  simp [State.commandComplete, State.runningL, State.lComplete, State.finishL, serves, runs, op, issued, loads]

theorem State.commandComplete_of_close (op : fld r.data 0 2 = 0x702)
    (quiet : (s.vframes.any fun f => f.sess = fld r.data 16 4 % 2 ^ 24) = false) : s.commandComplete mb seq =
      ((s.closeSess (fld r.data 16 4 % 2 ^ 24)).logCmd (mbxNum mb) r 0xF (toBytes 4 (fld r.data 16 4)) []).endL (mbxNum mb) r 0 []
        true := by
  rw [State.runningL] at runs
  simp only [State.commandComplete, State.runningL, State.lComplete, serves, runs, op, issued, quiet, Bool.not_true, Bool.false_eq_true,
    if_false]

end

end

/-- Settles O37: the running command by its opcode, and one that moves bytes once they have been issued. -/
theorem longCommandsEnd : Obligations.LongCommandsEnd := by
  intro mb seq r s serves runs n d
  refine ⟨fun op => ?wake, fun issued => ⟨fun op => ?promote, fun op => ?stage, fun u pl op loads => ?load, fun op quiet => ?close⟩,
    fun op idle => ⟨fun x held => ?region, fun none => ?lost⟩⟩
  case wake => exact congrArg Host.Outcome.next (State.commandComplete_of_wake serves runs op)
  case promote => exact congrArg Host.Outcome.next (State.commandComplete_of_promote serves runs issued op)
  case stage => exact congrArg Host.Outcome.next (State.commandComplete_of_stage serves runs issued op)
  case load => exact congrArg Host.Outcome.next (State.commandComplete_of_load serves runs issued op loads)
  case close => exact congrArg Host.Outcome.next (State.commandComplete_of_close serves runs issued op quiet)
  case region => exact congrArg Host.Outcome.next (State.commandComplete_of_region serves runs idle op held)
  case lost => exact congrArg Host.Outcome.next (State.commandComplete_of_no_region serves runs idle op none)

end Sys2Proof.Machine

/-! ## Steps, power sequences, shutdown, starts and resets -/

namespace Sys2Proof.Machine

/-! ### Every step (spec/95) -/

/-- Settles O1: the front command is the one that `step` matches. -/
theorem stepRunsFrontCommand : Obligations.StepRunsFrontCommand := fun _ _ _ => rfl

theorem exec_next (c : Instr) (s : State) : ∃ t, exec c s = .next t := by
  cases c <;> exact ⟨_, rfl⟩

theorem step_of_empty {s : State} (empty : s.pending = []) : step s = .next s.idle := by
  simp only [step, empty]

/-- Settles O54: every arm of `exec` is a `.next`; an empty queue adds 1 to GLB_TIME. -/
theorem everyStepCompletes : Obligations.EveryStepCompletes :=
  ⟨exec_next, fun s empty => ⟨s.idle, step_of_empty empty, s.fget_fadd_same .glbTime 0 1, fun _ i other => s.fget_fadd_fld 0 i 1 other, rfl⟩⟩

/-! ### Power-state sequences (R490 to R496) -/

section
variable {s : State} {q : PwrSeq} {c : Nat} {rest : List Nat}

theorem State.blockAnswers_of_busy (seq : s.pwrSeq = some q) (todo : q.todo = c :: rest)
    (busy : s.blockReady q.target c = false) : s.blockAnswers = s := by
  simp [State.blockAnswers, seq, todo, busy]

section
variable (seq : s.pwrSeq = some q) (todo : q.todo = c :: rest) (agreed : q.refused = none) (up : s.millUp = true)
  (stage : s.fget .pwrStateStage 0 = 0)
include seq todo agreed up stage

theorem State.blockAnswers_of_last (ready : s.blockReady q.target c = true) (last : rest = []) : s.blockAnswers =
    ({ s.stopBlock q.target c with pwrSeq := some { q with todo := rest, ready := c :: q.ready } } : State).powerCommit
      { q with todo := rest, ready := c :: q.ready } := by
  subst last
  simp [State.blockAnswers, seq, todo, agreed, up, stage, ready]

theorem State.blockAnswers_of_more {d : Nat} {l : List Nat} (ready : s.blockReady q.target c = true) (more : rest = d :: l) : s.blockAnswers =
    ({ s.stopBlock q.target c with pwrSeq := some { q with todo := rest, ready := c :: q.ready } } : State).prepare d := by
  subst more
  simp [State.blockAnswers, seq, todo, agreed, up, stage, ready]

theorem State.drainRefuse_of_reason {reason : Nat} (refuses : s.refuseReason q.target c = some reason) : s.drainRefuse =
    { (((s.fset .pwrRefuseBlock 0 c).fset .pwrRefuseTarget 0 q.target).fset .pwrRefuseReason 0 reason).fadd .pwrRefusals 0 1 with
      pwrSeq := some { q with refused := some (c, reason) } } := by
  simp [State.drainRefuse, seq, todo, agreed, up, stage, refuses]

end

theorem execPowerRollbackDone_of_refused {m reason : Nat} {r : MbxReq} (seq : s.pwrSeq = some q) (refused : q.refused = some (c, reason))
    (up : s.millUp = true) (asked : s.seqRequest q = some (m, r)) :
    execPowerRollbackDone s = .next (s.rollBack.endL m r 0x10 (toBytes 1 (s.fget .pwrState 0) ++ toBytes 1 c) false) := by
  simp [execPowerRollbackDone, seq, refused, up, asked]

end

/-- The source that PWR_WAKE_SOURCE names for a wake (R495). -/
def wakeSource : WakeCause → Nat
  | .pf0Mailbox => 2
  | .partMailbox _ => 3
  | .sideband => 4

theorem wakeSource_lt (cause : WakeCause) : wakeSource cause < 8 := by
  cases cause <;> simp [wakeSource]

theorem wakeSource_of_named {cause : WakeCause} {n : Nat}
    (named : (cause = .pf0Mailbox ∧ n = 2) ∨ ((∃ p, cause = .partMailbox p) ∧ n = 3) ∨ (cause = .sideband ∧ n = 4)) : wakeSource cause = n := by
  obtain ⟨rfl, rfl⟩ | ⟨⟨p, rfl⟩, rfl⟩ | ⟨rfl, rfl⟩ := named <;> rfl

theorem execWakeEvent_of_asleep {s : State} (started : s.started = true) (p4 : s.fget .pwrState 0 = 4) (idle : s.pwrSeq = none)
    (stage : s.fget .pwrStateStage 0 = 0) (cause : WakeCause) : execWakeEvent cause s = .next
      { ((((s.fset .pwrWakeSourceSrc 0 (wakeSource cause)).fset .pwrWakeSourceFrom 0 4).fset .pwrStateBusy 0 1).fset .pwrStateTarget 0 3) with
        pwrSeq := some { target := 3, wake := true } } := by
  cases cause <;> simp [execWakeEvent, wakeSource, started, p4, idle, stage]

/-- Settles O45: by the state of the sequence, each event has one outcome. -/
theorem powerSequencesRun : Obligations.PowerSequencesRun := by
  intro s q c rest
  refine ⟨?blocks, fun m r reason seq refused up asked => execPowerRollbackDone_of_refused seq refused up asked, ?wake, ?woken⟩
  case blocks =>
    intro seq todo agreed up stage
    refine ⟨fun ready last => congrArg Host.Outcome.next (State.blockAnswers_of_last seq todo agreed up stage ready last),
      fun d l ready more => congrArg Host.Outcome.next (State.blockAnswers_of_more seq todo agreed up stage ready more),
      fun busy => congrArg Host.Outcome.next (State.blockAnswers_of_busy seq todo busy), fun reason refuses => ?refusal⟩
    refine ⟨_, congrArg Host.Outcome.next (State.drainRefuse_of_reason seq todo agreed up stage refuses), rfl, ?_⟩
    simp
  case wake =>
    intro started p4 idle stage cause n named
    have small := wakeSource_lt cause
    rw [wakeSource_of_named named] at small
    refine ⟨_, execWakeEvent_of_asleep started p4 idle stage cause, ?_⟩
    simp [wakeSource_of_named named, p4, Nat.mod_eq_of_lt small]
  case woken =>
    intro waking
    refine ⟨congrArg Host.Outcome.next (by simp [waking]), fun held => congrArg Host.Outcome.next (by simp [waking, held])⟩

/-! ### Supply loss and shutdown (R501, R507 to R510, R562 to R565) -/

section
variable {s : State}

theorem State.lossDetected_of_loaded (started : s.started = true) (stage : s.fget .pwrStateStage 0 = 0) (loaded : s.fget .ftlStatusState 0 ≠ 0) :
    s.lossDetected = ((({ s with inputOk := false, coldCause := 4 } : State).powerLost.fset .pwrStateStage 0 1).refreshClocks) := by
  simp [State.lossDetected, started, stage, loaded]

theorem execInputOvercurrent_of_closed (closed : s.swOpen = false) (input : s.inputOk = true) :
    execInputOvercurrent s = .next ({ s.fset .pciBoardSwopen 0 1 with swOpen := true } : State).lossDetected := by
  simp [execInputOvercurrent, closed, input]

theorem execInputQualified_of_closed (closed : s.swOpen = false) : execInputQualified s =
    .next (if s.fget .pwrStateStage 0 = 1 then ({ s with inputOk := true, seqStopped := false } : State).abortShutdown
      else { s with inputOk := true, seqStopped := false }) := by
  simp [execInputQualified, closed]

theorem State.passStage4_of_waiting (stage : s.fget .pwrStateStage 0 = 3) : s.passStage4 = s.fset .pwrStateStage 0 4 := if_pos stage

theorem execThermalTrip_of_hot {src : BitVec 8} {lim trip : Nat} (limit : thermalLimit src.toNat = some (lim, trip)) (started : s.started = true)
    (stage : s.fget .pwrStateStage 0 = 0) (hot : trip ≤ SMap.get 0 s.temps src.toNat) : execThermalTrip src s =
      .next ({ s.fadd .pwrTrips 0 1 with tripPin := true, coldCause := 3 } : State).powerLost.stage2 := by
  simp [execThermalTrip, limit, started, stage, Nat.not_lt.mpr hot]

/-- PCI_BOARD shows the energy of the hold-up store, and whether 4 J are there (R563). -/
def State.showHoldup (s : State) (e : Nat) : State :=
  ((({ s with holdup := some e } : State).fset .pciBoardHoldupE 0 e).fset .pciBoardHoldupOk 0 (if e ≥ 40 then 1 else 0)).fset
    .pciBoardHoldupLow 0 (if e < 40 then 1 else 0)

theorem execHoldupStoreCharged_of_p4 {e : BitVec 8} (input : s.inputOk = true) (p4 : s.fget .pwrState 0 = 4) :
    execHoldupStoreCharged e s = .next (s.showHoldup e.toNat) := by
  simp [execHoldupStoreCharged, State.showHoldup, input, p4]

theorem State.fget_showHoldup (s : State) (e : BitVec 8) : (s.showHoldup e.toNat).fget .pciBoardHoldupE 0 = e.toNat ∧
    (s.showHoldup e.toNat).fget .pciBoardHoldupOk 0 = (if 40 ≤ e.toNat then 1 else 0) ∧
    (s.showHoldup e.toNat).fget .pciBoardHoldupLow 0 = (if 40 ≤ e.toNat then 0 else 1) := by
  have small : e.toNat % 256 = e.toNat := Nat.mod_eq_of_lt e.isLt
  by_cases full : 40 ≤ e.toNat
  · simp [State.showHoldup, small, full, Nat.not_lt.mpr full]
  · simp [State.showHoldup, small, full, Nat.lt_of_not_le full]

end

/-- Settles O47: each event of the supply and of the sequencer, by the stage it finds. -/
theorem supplyLossShutsDown : Obligations.SupplyLossShutsDown := by
  intro s
  refine ⟨fun started stage loaded => ⟨congrArg Host.Outcome.next (State.lossDetected_of_loaded started stage loaded), fun closed input => ?overcurrent⟩,
    fun closed stage => ?qualified, fun closed stage => ?returned, fun stage => congrArg Host.Outcome.next (if_pos stage), fun stage => ?waited,
    fun stage => congrArg Host.Outcome.next (if_pos stage), fun tripped => congrArg Host.Outcome.next (if_pos (by simpa using tripped)),
    fun src lim trip limit started stage hot => execThermalTrip_of_hot limit started stage hot,
    fun off input => congrArg Host.Outcome.next (if_neg (by simp [off, input])), fun e input p4 => ?charged⟩
  case overcurrent => exact ⟨_, execInputOvercurrent_of_closed closed input, rfl, by simp⟩
  case qualified => exact (execInputQualified_of_closed closed).trans (by simp [stage])
  case returned => exact (execInputQualified_of_closed closed).trans (by simp [stage])
  case waited => exact congrArg Host.Outcome.next ((if_pos stage).trans (State.passStage4_of_waiting (by simpa using stage)))
  case charged => exact ⟨_, execHoldupStoreCharged_of_p4 input p4, rfl, s.fget_showHoldup e⟩

/-! ### Starts and resets (R503 to R517, R547, R556, R566, R567) -/

section
variable {s : State}

theorem State.glbReset_of_key {v : Nat} (started : s.started = true) (stage : s.fget .pwrStateStage 0 = 0) (key : v % 2 ^ 16 = 0x5A17)
    (module : bitAt v 16 = true) : s.glbReset v = s.moduleReset 2 := by
  exact if_pos (by simp only [started, stage, key, module, decide_true, Bool.and_self])

theorem State.glbReset_of_wrong {v : Nat} (wrong : v % 2 ^ 16 ≠ 0x5A17 ∨ bitAt v 16 = false) : s.glbReset v = s := by
  refine if_neg fun all => ?_
  simp only [Bool.and_eq_true, decide_eq_true_eq] at all
  obtain ⟨⟨_, key⟩, module⟩ := all
  obtain other | clear := wrong
  · exact other key
  · exact absurd (clear.symm.trans module) Bool.false_ne_true

theorem State.bitAt_setReady_zero (s : State) : bitAt ((s.setReady 0 true).fget .glbReadyStatus 0) 0 = true := by
  simp [State.setReady, bitAt, Nat.or_mod_two_eq_one]

/-- The link in L0 at a speed and a width, after the errors that training corrected (R557). -/
def State.linkTrained (s : State) (speed width flit : Nat) : State :=
  ((((s.countCorrected .pciCorr 0).fset .pciLinkSpeed 0 speed).fset .pciLinkWidth 0 width).fset .pciLinkFlit 0 flit).fset .pciLinkLstate 0 3

theorem execPcieLinkUp_of_trained {speed : BitVec 3} {width : BitVec 5} {flit : Bool} (started : s.started = true) (released : s.perst = false)
    (nonzero : speed ≠ 0) (valid : speed ≠ 7) (lanes : width = 8 ∨ width = 16) : execPcieLinkUp speed width flit s =
      .next ((s.linkTrained speed.toNat width.toNat (if flit then 1 else 0)).setReady 0 true) :=
  congrArg Host.Outcome.next (if_neg (by obtain rfl | rfl := lanes <;> simpa [started, released] using And.intro nonzero valid))

theorem State.fget_linkTrained (s : State) (speed : BitVec 3) (width : BitVec 5) (flit : Bool) :
    let t := (s.linkTrained speed.toNat width.toNat (if flit then 1 else 0)).setReady 0 true
    t.fget .pciLinkSpeed 0 = speed.toNat ∧ t.fget .pciLinkWidth 0 = width.toNat ∧ t.fget .pciLinkFlit 0 = (if flit then 1 else 0) ∧
      t.fget .pciLinkLstate 0 = 3 := by
  have speed_lt : speed.toNat % 8 = speed.toNat := Nat.mod_eq_of_lt speed.isLt
  have width_lt : width.toNat % 32 = width.toNat := Nat.mod_eq_of_lt width.isLt
  have flit_lt : (if flit then 1 else 0) % 2 = (if flit then 1 else 0) := by cases flit <;> rfl
  simp [State.linkTrained, State.setReady, speed_lt, width_lt, flit_lt]

end

/-- Settles O48: each event of the sequencer and of the link acts under its guard; the link's fields are those of the training. -/
theorem startsAndResets : Obligations.StartsAndResets := by
  intro s
  refine ⟨fun f off input released cool closed runs => congrArg Host.Outcome.next (if_neg (by simp [off, input, released, cool, closed, runs])),
    fun v started stage key module => congrArg Host.Outcome.next (State.glbReset_of_key started stage key module),
    fun v wrong => congrArg Host.Outcome.next (State.glbReset_of_wrong wrong),
    fun released started stage => congrArg Host.Outcome.next ((if_neg (by simp [released])).trans (if_pos (by simp [started, stage]))),
    fun released off => congrArg Host.Outcome.next ((if_neg (by simp [released])).trans (if_neg (by simp [off]))),
    fun held started b => congrArg Host.Outcome.next ((if_neg (by simp [held])).trans (if_pos started)),
    fun held off => ⟨congrArg Host.Outcome.next ((if_neg (by simp [held])).trans (if_neg (by simp [off]))),
      congrArg Host.Outcome.next ((if_neg (by simp [held])).trans (if_neg (by simp [off])))⟩, ?linkUp,
    fun started => congrArg Host.Outcome.next (if_neg (by simp [started])),
    fun p started => congrArg Host.Outcome.next (if_neg (by simp [started])),
    fun started => congrArg Host.Outcome.next (if_neg (by simp [started])),
    fun started enabled => congrArg Host.Outcome.next (if_neg (by simp [started, enabled]))⟩
  case linkUp =>
    intro speed width flit started released nonzero valid lanes
    obtain ⟨hspeed, hwidth, hflit, hstate⟩ := s.fget_linkTrained speed width flit
    exact ⟨_, execPcieLinkUp_of_trained started released nonzero valid lanes, hspeed, hwidth, hflit, hstate, State.bitAt_setReady_zero _⟩

end Sys2Proof.Machine

/-! ## The management bus, SPDM, debug and the self-test -/

namespace Sys2Proof.Machine

/-! ### The management bus and DOE discovery (R525, R568, R569) -/

section
variable {s : State}

theorem State.mctpMessage_of_vendor {body : List Byte} (started : s.started = true) (served : s.busServed = true)
    (awake : s.fget .pwrState 0 ≠ 4) (vendor : fld body 0 2 = 0x1F6A) (size : body.length = 258) :
    s.mctpMessage 0x7E body = s.acceptRequest 65 0 (body.drop 2) := by
  simp [State.mctpMessage, State.dispatchMctp, State.vendorMessage, started, served, awake, vendor, size]

theorem State.mctpMessage_of_p4 {type : Nat} {body : List Byte} (started : s.started = true) (served : s.busServed = true)
    (p4 : s.fget .pwrState 0 = 4) (empty : s.mctpHeld = []) : s.mctpMessage type body = { s with mctpHeld := [(type, body)] } := by
  simp [State.mctpMessage, started, served, p4, empty]

theorem State.control_of_served (f : State → State) (served : s.busServed = true) (up : s.millUp = true) : s.control f = f s := by
  simp [State.control, served, up]

theorem State.assign_of_new {dyn : Nat} (served : s.busServed = true) (i3c : s.smbus ≠ some true) (new : s.dynAddr = none) :
    s.assign dyn = { s with smbus := some false, dynAddr := some dyn } := by
  simp [State.assign, served, i3c, new]

theorem execSetEndpointId_of_valid {e : Byte} (served : s.busServed = true) (up : s.millUp = true) (low : e ≠ 0) (high : e ≠ 0xFF) :
    execSetEndpointId e s = .next (({ s with eid := e.toNat } : State).emit (.mctpControl 1 [0, 0, e, 0])) :=
  congrArg Host.Outcome.next ((State.control_of_served _ served up).trans (if_neg (by simpa using And.intro low high)))

theorem execSmbusReadByte_of_smbus (served : s.busServed = true) (smbus : s.smbus ≠ some false) : execSmbusReadByte 1 s =
    .next (({ s with smbus := some true } : State).emit (.bus [BitVec.ofNat 8 s.hottestDie])) := by
  refine congrArg Host.Outcome.next ((if_neg ?_).trans (if_pos rfl))
  simp [served, smbus]

theorem execDoeDiscovery_of_served (index : BitVec 8) (served : s.spdmServed) : execDoeDiscovery index s = .next (s.emit
    (.doe (if index.toNat = 0 then [1, 0, 0, 1] else if index.toNat = 1 then [1, 0, 1, 0] else [0xFF, 0xFF, 0, 0]))) := by
  obtain ⟨up, awake⟩ := served
  simp [execDoeDiscovery, up, awake]

end

/-- Settles O50: what is served is taken, control commands act, and each transfer of an unsettled bus settles it. -/
theorem managementBusAnswers : Obligations.ManagementBusAnswers := by
  intro s
  refine ⟨fun body started served awake vendor size => congrArg Host.Outcome.next (State.mctpMessage_of_vendor started served awake vendor size),
    fun type body started served p4 empty => congrArg Host.Outcome.next (State.mctpMessage_of_p4 started served p4 empty),
    fun served up => ⟨fun e low high => execSetEndpointId_of_valid served up low high,
      congrArg Host.Outcome.next (State.control_of_served _ served up), congrArg Host.Outcome.next (State.control_of_served _ served up),
      congrArg Host.Outcome.next (State.control_of_served _ served up)⟩,
    fun st dyn served i3c new => ⟨congrArg Host.Outcome.next (State.assign_of_new served i3c new),
      fun own => congrArg Host.Outcome.next ((if_pos own).trans (State.assign_of_new served i3c new))⟩,
    fun served smbus => execSmbusReadByte_of_smbus served smbus,
    fun served => ⟨execDoeDiscovery_of_served 0 served, execDoeDiscovery_of_served 1 served⟩⟩

/-! ### SPDM (R523 to R525) -/

section
variable {t : Transport} {s : State}

theorem State.spdm_of_served (f : State → State × SpdmReply) (served : s.spdmServed) :
    s.spdm t f = (f s).1.emit (.spdm (t == .doe) (f s).2) := by
  obtain ⟨up, awake⟩ := served
  simp [State.spdm, up, awake]

theorem State.spdmAt_of_early {phase : Nat} (f : State → State × SpdmReply) (served : s.spdmServed) (early : (s.spdmConn t).phase < phase) :
    s.spdmAt t phase f = s.emit (.spdm (t == .doe) (.error 4)) := by
  rw [State.spdmAt, State.spdm_of_served _ served, if_pos early]

theorem State.spdmAt_of_reached {phase : Nat} (f : State → State × SpdmReply) (served : s.spdmServed)
    (reached : phase ≤ (s.spdmConn t).phase) : s.spdmAt t phase f = (f s).1.emit (.spdm (t == .doe) (f s).2) := by
  rw [State.spdmAt, State.spdm_of_served _ served, if_neg (Nat.not_lt.mpr reached)]

/-- A request in its step of the connection is answered with what its body gives. -/
theorem State.next_spdmAt {phase : Nat} {f : State → State × SpdmReply} {u : State} {r : SpdmReply} (served : s.spdmServed)
    (reached : phase ≤ (s.spdmConn t).phase) (gives : f s = (u, r)) :
    (.next (s.spdmAt t phase f) : Res) = .next (u.emit (.spdm (t == .doe) r)) := by
  rw [State.spdmAt_of_reached f served reached, gives]

end

/-- Settles O51: each request by its step of the connection, then by the branch of its body. -/
theorem spdmRequestsAnswer : Obligations.SpdmRequestsAnswer := by
  intro t s served
  refine ⟨congrArg Host.Outcome.next (State.spdm_of_served _ served), fun code => congrArg Host.Outcome.next (State.spdm_of_served _ served),
    fun unopened => congrArg Host.Outcome.next (State.spdmAt_of_early _ served (by omega)),
    fun reached v known => State.next_spdmAt served reached (if_pos (by simpa using known)),
    fun reached asym hash p384 sha => State.next_spdmAt served reached (if_pos (by simp [p384, sha])), fun reached lifecycle => ⟨?digests,
      fun off len inside => State.next_spdmAt served reached ((if_neg lifecycle).trans (if_neg (by simpa using inside))),
      fun nonce => State.next_spdmAt served reached ((if_neg lifecycle).trans (if_neg (by simp))), fun i nonce known => ?measurements⟩⟩
  case digests => exact State.next_spdmAt served reached (by rw [if_neg lifecycle])
  case measurements =>
    exact State.next_spdmAt served reached ((if_neg (by simp)).trans ((if_neg (by simp; omega)).trans (if_neg Bool.false_ne_true)))

end Sys2Proof.Machine

/-! ## Debug, levels and the self-test (R526 to R545) -/

namespace Sys2Proof.Machine

/-! ### The debug aperture (R528, R534) -/

section
variable {s : State} {dpa n : Nat}

theorem State.aperture_of_denied {w : Option Nat} (denied : s.debugReaches dpa w.isSome = false) :
    s.aperture dpa n w = (s.fadd .secDbgdeny 0 1, 2 ^ (8 * n) - 1) := by
  simp [State.aperture, denied]

theorem State.aperture_of_read (reached : s.debugReaches dpa false = true) : s.aperture dpa n none = (s, s.debugRead dpa n) := by
  simp [State.aperture, reached]

theorem State.aperture_of_write {v : Nat} (reached : s.debugReaches dpa true = true) :
    s.aperture dpa n (some v) = (s.debugWrite dpa n v, 0) := by
  simp [State.aperture, reached]

variable {off : BitVec 28} {wide : Bool} {w : Option (BitVec 64)}

section
variable (started : s.started = true) (awake : s.asleep .pf0 = false) (aligned : off.toNat % (if wide then 8 else 4) = 0)
include started awake aligned

theorem execDebugApertureAccess_of_aperture {t : State} {v : Nat} (above : 0xC000000 ≤ off.toNat)
    (acts : s.aperture ((s.fget .secAper 0 + (off.toNat - 0xC000000)) % 2 ^ 52) (if wide then 8 else 4)
      (w.map fun v => v.toNat % 2 ^ (8 * if wide then 8 else 4)) = (t, v)) :
    execDebugApertureAccess off wide w s = .next (if w.isSome then t else t.emit (.readData (if wide then 8 else 4) v)) := by
  have notLow : ¬off.toNat < 0x8000000 := by omega
  have notTrace : ¬off.toNat < 0x9000000 := by omega
  have notGap : ¬off.toNat < 0xC000000 := by omega
  simp only [execDebugApertureAccess, started, awake, aligned, notLow, notTrace, notGap, acts, Bool.not_true, decide_false, Bool.or_self, ne_eq,
    not_true_eq_false, Bool.false_eq_true, if_false]

theorem execDebugApertureAccess_of_read (above : 0xC000000 ≤ off.toNat)
    (reached : s.debugReaches ((s.fget .secAper 0 + (off.toNat - 0xC000000)) % 2 ^ 52) false = true) :
    execDebugApertureAccess off wide none s = .next (s.emit (.readData (if wide then 8 else 4)
      (s.debugRead ((s.fget .secAper 0 + (off.toNat - 0xC000000)) % 2 ^ 52) (if wide then 8 else 4)))) := by
  rw [execDebugApertureAccess_of_aperture started awake aligned above (by rw [Option.map_none, State.aperture_of_read reached]), Option.isSome_none,
    if_neg Bool.false_ne_true]

theorem execDebugApertureAccess_of_write {v : BitVec 64} (above : 0xC000000 ≤ off.toNat)
    (reached : s.debugReaches ((s.fget .secAper 0 + (off.toNat - 0xC000000)) % 2 ^ 52) true = true) :
    execDebugApertureAccess off wide (some v) s = .next (s.debugWrite ((s.fget .secAper 0 + (off.toNat - 0xC000000)) % 2 ^ 52)
      (if wide then 8 else 4) (v.toNat % 2 ^ (8 * if wide then 8 else 4))) := by
  rw [execDebugApertureAccess_of_aperture started awake aligned above (by rw [Option.map_some, State.aperture_of_write reached]), Option.isSome_some,
    if_pos rfl]

theorem execDebugApertureAccess_of_trace (above : 0x8000000 ≤ off.toNat) (below : off.toNat < 0x9000000) (opened : s.traceOpen = true) :
    execDebugApertureAccess off wide none s = .next (s.emit (.readData (if wide then 8 else 4)
      (ofBytes (s.ld (traceBase + (off.toNat - 0x8000000)) (if wide then 8 else 4))))) := by
  simp [execDebugApertureAccess, started, awake, aligned, Nat.not_lt.mpr above, below, opened]

end

/-! ### Halts (R532, R534) -/

theorem State.secHalt_of_denied (f : State → State) (started : s.started = true) (p0 : s.fget .pwrState 0 = 0)
    (below : s.fget .secDbgApplied 0 ≠ 2) : s.secHalt f = s.fadd .secDbgdeny 0 1 := by
  simp [State.secHalt, started, p0, below]

theorem State.secHalt_of_full (f : State → State) (started : s.started = true) (p0 : s.fget .pwrState 0 = 0)
    (full : s.fget .secDbgApplied 0 = 2) : s.secHalt f = f s := by
  simp [State.secHalt, started, p0, full]

theorem State.haltThread_of_active {t : Nat} (p0 : s.fget .pwrState 0 = 0) (active : (s.ctask t).active = true) :
    s.haltThread t = s.setThread t fun h => { h with halted := true } := by
  simp [State.haltThread, p0, active]

theorem State.resumeThread_runs {t : Nat} (free : (s.thread t).wait = .none) :
    ((s.resumeThread t).thread t).halted = false ∧ ((s.resumeThread t).thread t).wait = .none := by
  have kept : (({ s with halts := s.halts.filter (· ≠ t) } : State).thread t).wait = .none := free
  rw [State.resumeThread, State.thread_setThread_same]
  simp only [kept, and_self]

/-! ### JTAG and the console (R530, R531) -/

theorem execXident_eq (s : State) : execXident s =
    .next ((s.setTap .xident).emit (.jtag (bitsOf 32 (0x09400000 + Config.fuseRev.toNat * 2 ^ 8 + s.fget .secLc 0)))) := by
  rw [execXident, show 0x0940 * 2 ^ 16 = 0x09400000 from rfl]

theorem execSamplePreload_of_full (bits : List Bool) (full : s.fget .secDbgApplied 0 = 2) : execSamplePreload bits s =
    .next ((({ s.draw with preload := bits } : State).setTap .samplePreload).emit (.jtag (Config.boundary s.fresh))) :=
  congrArg Host.Outcome.next (if_pos full)

theorem execExtest_of_full (full : s.fget .secDbgApplied 0 = 2) (empty : s.formedParts = []) :
    execExtest s = .next ((s.setTap .extest).emit (.boundary s.preload)) :=
  congrArg Host.Outcome.next (if_pos (by simp [full, empty]))

theorem execExtest_of_below (below : s.fget .secDbgApplied 0 ≠ 2) : execExtest s = .next s.tapBypass :=
  congrArg Host.Outcome.next (if_neg (by simp [below]))

theorem execDbgAccess_of_none (v : BitVec 96) (closed : s.fget .secDbgApplied 0 = 0) : execDbgAccess v s =
    .next (((s.setTap .dbgAccess).fadd .secDbgdeny 0 1).emit (.jtag (bitsOf 96 (2 ^ 96 - 1)))) :=
  congrArg Host.Outcome.next (if_pos (by simp [closed]))

theorem execDbgAccess_of_write {v : BitVec 96} (opened : s.fget .secDbgApplied 0 ≠ 0)
    (aligned : (s.fget .secAper 0 + v.toNat % 2 ^ 52) % 2 ^ 52 % 4 = 0) (write : v.toNat.testBit 52 = true)
    (reached : s.debugReaches ((s.fget .secAper 0 + v.toNat % 2 ^ 52) % 2 ^ 52) true = true) : execDbgAccess v s =
    .next (((s.setTap .dbgAccess).debugWrite ((s.fget .secAper 0 + v.toNat % 2 ^ 52) % 2 ^ 52) 4 (v.toNat / 2 ^ 64)).emit
      (.jtag (bitsOf 96 v.toNat))) := by
  refine congrArg Host.Outcome.next ((if_neg ?_).trans ((if_neg ?_).trans ((if_neg ?_).trans (if_pos write))))
  · simp only [opened, aligned]
    decide
  · simp [write]
  · simp only [write, reached, Bool.not_true, Bool.false_eq_true, not_false_eq_true]

theorem execUartCommand_of_allowed {ro : Bool} (line : List Byte) (up : s.millUp = true) (awake : s.fget .pwrState 0 ≠ 4)
    (allowed : s.fget .secDbgApplied 0 = 2 ∨ (s.fget .secDbgApplied 0 = 1 ∧ ro = true)) :
    execUartCommand ro line s = .next (s.draw.emit (.uart (Config.consoleText s.fresh))) :=
  congrArg Host.Outcome.next ((if_neg (by simp [up, awake])).trans (if_pos (by simpa using allowed)))

end

/-- Settles O52: each access by the guard that lets it through or denies it. -/
theorem debugActs : Obligations.DebugActs := by
  intro s
  refine ⟨fun started awake off wide w => ?aperture, fun t started p0 => ⟨fun below => ?denied, fun full active => ?halt, fun full noHalts free => ?resume⟩,
    rfl, execXident_eq s, fun bits full => execSamplePreload_of_full bits full, fun full empty => execExtest_of_full full empty,
    fun below => ⟨execExtest_of_below below, fun bits => congrArg Host.Outcome.next (if_neg below)⟩,
    fun closed v => execDbgAccess_of_none v closed, fun v => ?written,
    fun ro line up awake allowed => execUartCommand_of_allowed line up awake allowed⟩
  case aperture =>
    intro n dpa aligned
    refine ⟨fun above denied => execDebugApertureAccess_of_aperture started awake aligned above (State.aperture_of_denied (by rwa [Option.isSome_map])),
      ?_, ?_, ?_⟩
    · rintro above reached rfl
      exact execDebugApertureAccess_of_read started awake aligned above reached
    · rintro v above reached rfl
      exact execDebugApertureAccess_of_write started awake aligned above reached
    · rintro above below opened rfl
      exact execDebugApertureAccess_of_trace started awake aligned above below opened
  case denied =>
    exact ⟨congrArg Host.Outcome.next (State.secHalt_of_denied _ started p0 below),
      congrArg Host.Outcome.next (State.secHalt_of_denied _ started p0 below)⟩
  case halt => exact congrArg Host.Outcome.next ((State.secHalt_of_full _ started p0 full).trans (State.haltThread_of_active p0 active))
  case resume =>
    exact ⟨_, congrArg Host.Outcome.next (State.secHalt_of_full _ started p0 full), State.resumeThread_runs free⟩
  case written =>
    intro dpa opened aligned write reached
    exact execDbgAccess_of_write opened aligned write reached

/-! ### Lifecycle and debug level (R533) -/

section
variable {α : Type} {f : Fld} {i : Nat} {g : State → α → State}

theorem State.fget_foldl (keeps : ∀ t x, (g t x).fget f i = t.fget f i) (s : State) (l : List α) : (l.foldl g s).fget f i = s.fget f i := by
  induction l generalizing s with
  | nil => rfl
  | cons x l ih => exact (ih _).trans (keeps s x)

theorem State.ctasks_foldl (keeps : ∀ t x, (g t x).ctasks = t.ctasks) (s : State) (l : List α) : (l.foldl g s).ctasks = s.ctasks := by
  induction l generalizing s with
  | nil => rfl
  | cons x l ih => exact (ih _).trans (keeps s x)

end

/-- The level that a lifecycle grants: MILL in SECURE, FULL in every other (R533). -/
def lcGrant (lc : Nat) : Nat := if lc = 2 then 1 else 2

/-- A challenge as SEC_CHAL shows it (R516). -/
def State.showChallenge (s : State) (bytes : List Byte) : State :=
  (List.range 8).foldl (fun t i => t.fset .secChal i (fld bytes (4 * i) 4)) s

/-- The measurements as SEC_MEAS shows them (R518). -/
def State.showMeasurements (s : State) : State :=
  (List.range 4).foldl (fun t i => (List.range 12).foldl (fun u w =>
    u.fset .secMeas (12 * i + w) (fld (toBytes 48 (Config.imageDigest i).toNat) (4 * w) 4)) t) s

@[simp] theorem State.fget_showChallenge (s : State) (bytes : List Byte) {f : Fld} (i : Nat) (other : f ≠ .secChal) :
    (s.showChallenge bytes).fget f i = s.fget f i :=
  State.fget_foldl (fun _ _ => State.fget_fset_fld _ _ _ _ other) _ _

theorem State.ctasks_showChallenge (s : State) (bytes : List Byte) : (s.showChallenge bytes).ctasks = s.ctasks :=
  State.ctasks_foldl (fun _ _ => State.fset_ctasks _ _ _ _) _ _

@[simp] theorem State.fget_showMeasurements (s : State) {f : Fld} (i : Nat) (other : f ≠ .secMeas) :
    s.showMeasurements.fget f i = s.fget f i :=
  State.fget_foldl (fun _ _ => State.fget_foldl (fun _ _ => State.fget_fset_fld _ _ _ _ other) _ _) _ _

theorem State.ctasks_showMeasurements (s : State) : s.showMeasurements.ctasks = s.ctasks :=
  State.ctasks_foldl (fun _ _ => State.ctasks_foldl (fun _ _ => State.fset_ctasks _ _ _ _) _ _) _ _

/-- Lifecycle, provisioning and levels that a start loads (R514, R533). -/
def State.loadLevels (s : State) (lc requested : Nat) : State :=
  ((((s.fset .secLc 0 lc).fset .secLcPending 0 lc).fset .secLcProvisioned 0
    (if s.fuseUds || Config.fuseProvisioned = 1 then 1 else 0)).fset .secDbgGrant 0 (lcGrant lc)).fset
    .secDbgApplied 0 (min (lcGrant lc) requested)

theorem State.secStart_eq (s old : State) (sig : Nat) : s.secStart old sig =
    ((((((s.conditioned 32).1.loadLevels old.fusedLc (s.fget .secDbgReq 0)).showChallenge
      (s.conditioned 32).2).showMeasurements.fset .secSigok 0 sig).fset .secIdIdkey 0 (if old.fusedLc = 0 then 0 else 1)).fset
      .secIdAlias 0 (if old.fusedLc = 0 then 0 else 1)).fset .secDbgJtag 0 (if s.tap = .dbgAccess then 1 else 0) := rfl

/-- A start shows the measurements and the challenge in registers of their own: the lifecycle and the levels are not among them. -/
theorem State.fget_secStart (s old : State) (sig : Nat) : (s.secStart old sig).fget .secLc 0 = old.fusedLc % 4 ∧
    (s.secStart old sig).fget .secDbgGrant 0 = lcGrant old.fusedLc % 4 ∧
    (s.secStart old sig).fget .secDbgApplied 0 = min (lcGrant old.fusedLc) (s.fget .secDbgReq 0) % 4 := by
  simp [State.secStart_eq, State.loadLevels]

theorem State.ctasks_secStart (s old : State) (sig : Nat) : (s.secStart old sig).ctasks = s.ctasks := by
  rw [State.secStart_eq, State.fset_ctasks, State.fset_ctasks, State.fset_ctasks, State.fset_ctasks, State.ctasks_showMeasurements,
    State.ctasks_showChallenge]
  rfl

/-! ### DEBUG_SET (R526) -/

section
variable {s : State} {v : Nat}

/-- The levels that DEBUG_SET shows: the one asked for, and the applied one. -/
def State.showLevels (s : State) (v : Nat) : State := (s.fset .secDbgReq 0 v).fset .secDbgApplied 0 (min v (s.fget .secDbgGrant 0))

theorem State.endHalted_of_no_task (empty : s.ctasks = []) : s.endHalted = { s with halts := [] } := by
  simp [State.endHalted, empty]

/-- Where the level does not fall, or no carding task runs, DEBUG_SET ends no task: the fields are those it shows. -/
theorem State.fget_setDebug {f : Fld} (kept : s.fget .secDbgApplied 0 ≤ min v (s.fget .secDbgGrant 0) ∨ s.ctasks = [])
    (other : f ≠ .secDbgTrace) (i : Nat) : (s.setDebug v).fget f i = (s.showLevels v).fget f i := by
  have ended : (if min v (s.fget .secDbgGrant 0) < s.fget .secDbgApplied 0 then (s.showLevels v).endHalted else s.showLevels v).fget f i =
      (s.showLevels v).fget f i := by
    split
    next falls =>
      obtain rises | empty := kept
      · exact absurd falls (Nat.not_lt.mpr rises)
      · rw [State.endHalted_of_no_task (s := s.showLevels v) empty]
        exact State.fget_of_regs rfl f i
    next => rfl
  rw [State.setDebug]
  split
  · exact (State.fget_fset_fld _ _ _ _ other).trans ended
  · exact ended

theorem State.setDebug_levels (kept : s.fget .secDbgApplied 0 ≤ min v (s.fget .secDbgGrant 0) ∨ s.ctasks = []) (small : v ≤ 2) :
    (s.setDebug v).fget .secDbgReq 0 = v ∧ (s.setDebug v).fget .secDbgApplied 0 = min v (s.fget .secDbgGrant 0) := by
  rw [State.fget_setDebug kept (by decide), State.fget_setDebug kept (by decide)]
  have fits : min v (s.fget .secDbgGrant 0) % 4 = min v (s.fget .secDbgGrant 0) := by omega
  simpa [State.showLevels, fits] using Nat.mod_eq_of_lt (show v < 4 by omega)

end

theorem min_lcGrant (lc : Nat) {v : Nat} (small : v ≤ 2) : min v (lcGrant lc) = if lc = 2 then min v 1 else v := by
  unfold lcGrant
  split
  · rfl
  · exact Nat.min_eq_left small

/-- Settles O60: a start grants what the lifecycle allows, and both the start and DEBUG_SET apply the lower of the grant and the request. -/
theorem lifecycleGivesAppliedLevel : Obligations.LifecycleGivesAppliedLevel := by
  intro s old sig fused table t
  obtain ⟨lc, grant, applied⟩ := s.fget_secStart old sig
  have granted : t.fget .secDbgGrant 0 = lcGrant old.fusedLc := grant.trans (Nat.mod_eq_of_lt (by unfold lcGrant; split <;> decide))
  have level {v : Nat} (small : v ≤ 2) : min v (t.fget .secDbgGrant 0) = table old.fusedLc v := granted ▸ min_lcGrant old.fusedLc small
  refine ⟨lc.trans (Nat.mod_eq_of_lt fused), fun small => ?_, fun v small kept => ?_⟩
  · rw [← level small, granted, applied, Nat.min_comm]
    exact Nat.mod_eq_of_lt (by omega)
  · rw [← level small] at kept ⊢
    exact State.setDebug_levels (kept.imp_right (State.ctasks_secStart s old sig).trans) small

/-! ### The end of a self-test (R541 to R545) -/

theorem State.bistEnds_of_idle {s : State} (found : BistFound) (iods : List Nat) (idle : s.bist = none) : s.bistEnds found iods = s := by
  rw [State.bistEnds, idle]

/-- The state in which a run has ended, its units are back and its findings are handled, before its command is answered (R541 to R545). -/
def State.bistOver (s : State) (b : BistRun) (found : BistFound) (iods : List Nat) : State :=
  let units := bistUnits b.scope b.mask
  let f := found.within units
  let t := (skeinsOf s.testSkeins).foldl (fun (t : State) k => t.resetSkein k) { s with fresh := s.fresh + units.length }
  let u : State := { t with bist := none, testSkeins := 0, repairRecord := s.repairRecord + f.repairs }
  (((u.formedParts.foldl State.showPartition u).bistShow b f units (bistSigs s.fresh b.kind units f.units)).bistHandle f
    (iods.filter fun d => units.contains (72 + d))).refreshClocks

/-- The command of a run is answered behind its change-log entry (R541, R575). -/
def State.bistAnswer (s : State) (b : BistRun) (r : MbxReq) (sigs : List Nat) (repairs : Nat) : State :=
  (s.logCmd b.mbx r 0x11 (toBytes 1 b.kind ++ toBytes 1 b.scope ++ toBytes 6 0 ++ toBytes 8 b.mask) (toBytes 16 (bistFold sigs))).endL
    b.mbx r 0 (toBytes 16 (bistFold sigs) ++ toBytes 2 repairs) true

theorem State.bistEnds_of_running {s : State} {b : BistRun} {found : BistFound} {iods : List Nat} {r : MbxReq} (running : s.bist = some b)
    (up : s.millUp = true)
    (asked : ((s.bistOver b found iods).mbx b.mbx).reqs.find? (fun (x : MbxReq) => x.stamp = b.stamp && x.phase = 1) = some r) :
    s.bistEnds found iods = (s.bistOver b found iods).bistAnswer b r
      (bistSigs s.fresh b.kind (bistUnits b.scope b.mask) (found.within (bistUnits b.scope b.mask)).units)
      (found.within (bistUnits b.scope b.mask)).repairs := by
  simp only [State.bistEnds]
  split
  next idle => exact absurd (running.symm.trans idle) (Option.some_ne_none b)
  next run started =>
    obtain rfl := Option.some.inj (running.symm.trans started)
    refine (if_neg (by simp [up])).trans ?_
    split
    next unasked => exact absurd (asked.symm.trans unasked) (Option.some_ne_none r)
    next request answered =>
      obtain rfl := Option.some.inj (asked.symm.trans answered)
      rfl

/-- Settles O53: by whether a run is in progress; the run that ends is the one of the command that it answers. -/
theorem selfTestCompletes : Obligations.SelfTestCompletes := by
  intro s fs fc fi fv n iods found
  refine ⟨fun idle => congrArg Host.Outcome.next (State.bistEnds_of_idle found iods idle), fun b running up => ?_⟩
  intro units f sigs t1 t2 t3 t4 r asked
  exact congrArg Host.Outcome.next (State.bistEnds_of_running running up asked)

end Sys2Proof.Machine
